-- ==== Sys2Proof/Word.lean ====
section
/-!
DEFINITION. The word type of the model, one byte, and the names by which commands speak of pages, requesters, engines
and phases. Every bit-field, sign-extension and byte-order helper stands in Machine/Bits.lean.
-/
namespace Sys2Proof

/-- One byte. -/
abbrev Byte := BitVec 8

namespace Machine

/-- A register page (R392), or a window of a function's BARs (R376): the mirror window and the doorbell page of a
context, and the MSI-X table and pending bits of function `fn` of port `x`. A pinna is named by its module-wide number
(R6), a context by ctx of R126. -/
inductive Page where
  | top | hif (x : Nat) | fnc (x : Nat) | thl | mbx (x : Nat) | lch | clk | tmb | pwr | mgt
  | prt (p : Nat) | est (p : Nat) | ledger (p : Nat) | rhz (s : Nat) | mpe (s : Nat) | rgn
  | lml (l : Nat) | fabric | frd (f : Nat) | pna (n : Nat) | ctx (c : Nat)
  | mirror (c : Nat) | bell (c : Nat) | msix (x fn : Nat) | pba (x fn : Nat)
  deriving DecidableEq, Repr

/-- Who makes a register access: a function of a host port (0 is PF0, v is VF v), with whether the request arrives on the
function's IDE stream; the management controller; or Thallus. -/
inductive Requester where
  | host (port fn : Nat) (ide : Bool)
  | mc
  | thallus
  deriving DecidableEq, Repr

/-- A DMA engine: engine `e` of module-wide frond `f` (R138), or host engine `e` of a port (R378). -/
inductive EngineId where
  | frond (f e : Nat)
  | host (port e : Nat)
  deriving DecidableEq, Repr

/-- The two moments of an instruction that passes through a queue: it issues (it is fetched, its registers are read, it
is queued), and at the head of its queue it is performed (05 R116, 10 R231). -/
inductive Phase where
  | issue | perform
  deriving DecidableEq, Repr

/-- The two moments of a matrix or group instruction: it issues to the queue of the array that holds its group, and at
the head of the queue of array `arr` it is performed (03 R59, R69). -/
inductive ArrPhase where
  | issue
  | perform (arr : Nat)
  deriving DecidableEq, Repr

/-- A moment of an instruction of an array, with its pinna. -/
structure ArrStep where
  n : Nat
  ph : ArrPhase
  deriving DecidableEq, Repr

/-- A superblock as it arrives (11 R255): the control word and the five flits that were sent, and the symbols of each of
its two codewords that the line changed. -/
structure Superblock where
  ctl : BitVec 40
  flits : List Byte
  errs0 : List Nat
  errs1 : List Nat
  deriving DecidableEq, Repr

/-- What the Thallus at the other end of a link sends in the exchanges of a link session (R266): its certificate chain, RSA
modulus and SLH-DSA key, its random bytes and ECDHE public value, its RSA and SLH-DSA signatures, and its ML-KEM message: the encapsulation key of a requester, or the ciphertext of a responder. -/
structure SessionPeer where
  chain : List Byte
  n : List Byte
  slh : List Byte
  random : List Byte
  exchange : List Byte
  rsaSig : List Byte
  slhSig : List Byte
  kem : List Byte
  deriving DecidableEq, Repr

/-- Where a message to Thallus comes from (R316): the mailbox of a host port, the management controller with the bytes of
the message, or a message that waits on VC2 of a link. -/
inductive MsgSource where
  | mailbox (port : Nat)
  | mc (msg : List Byte)
  | link (l : Nat)
  deriving DecidableEq, Repr

end Machine

end Sys2Proof
end

