-- ==== Sys2Proof/Syntax.lean ====
section
/-!
DEFINITION. The commands of the block, one constructor per row of spec/opcode_table.json, in the table's order.
Operands carry what comes from outside: who sends, which unit, the bytes or values sent (log entry 1).
-/
namespace Sys2Proof

open Sys2Proof.Machine

/-- A command. -/
inductive Instr where
  /-- PWR_OK rises: straps are sampled and the clock start sequence of the Cold reset begins (R404). -/
  | coldReset (settle mgmtPort : Nat)
  /-- The start timer sees the first oscillator edge and begins the settle count (R404). -/
  | oscFirstEdge
  /-- No oscillator edge arrives within 10 ms of PWR_OK rising, so cold boot fails with code 1 (R404). -/
  | oscEdgeTimeout
  /-- The strap-selected settle count expires and the root PLL starts (R404). -/
  | settleTimeEnd
  /-- The lock detector has reported lock for 1,024 cycles, and all domains start at the next multiple-of-5
  oscillator cycle (R404). -/
  | pllLocked (lockUs : Nat)
  /-- The PLL is not locked 200 µs after it started, so cold boot fails with code 2 (R404). -/
  | pllLockTimeout
  /-- Loss of lock for 16 oscillator cycles stops every domain and starts the code 3 pattern (R406). -/
  | pllLockLost
  /-- The start timer paces one 2,000 ms frame of coded low pulses on FAULT_N (R405). -/
  | faultPatternFrame
  /-- RST_N is sampled low on 200 consecutive timebase cycles and a Module reset is raised (R415). -/
  | rstNAsserted
  /-- A write of TOP_RESET.go raises a Module reset lasting 200 timebase cycles (R415). -/
  | topResetGo (r : Requester) (value : Nat)
  /-- The Thallus ROM watchdog marks a new image 1 copy rejected and raises a Module reset (R342). -/
  | bootWatchdogExpiry
  /-- At the alignment boundary after the release condition, the Module reset is released once parked domains have
  returned to source 0 (R415). -/
  | moduleResetRelease
  /-- A write of PRT_RESET.go starts a Partition reset of contexts, links and partition blocks (R10). -/
  | partitionReset (r : Requester) (p value : Nat)
  /-- The Partition reset completes once Thallus has written a fresh check key to every stack of the partition
  (R320). -/
  | partitionResetDone (p : Nat)
  /-- CTX_RESET.go or a VF function-level reset stops the context's commands and resets its CTX fields (R361). -/
  | contextReset (r : Option Requester) (c value : Nat)
  /-- The Context reset completes within 100 µs, raises 0xA00C and returns the context to ACTIVE or TEARDOWN (R361).
  -/
  | contextResetDone (c : Nat)
  /-- A write of LML_LINK_CTL.retrain requests a Link reset, which clears the replay buffers, credits and slots and
  retrains the link (R282). -/
  | linkRetrain (r : Requester) (l value : Nat)
  /-- The link completes retraining and then re-establishes its link session (R282). -/
  | linkTrained (l : Nat)
  /-- The pinna instruction does nothing (R60). -/
  | nop (n : Nat)
  /-- The pinna ends its part of the LAUNCH, raises OPEN_AT_HALT for open groups, abandons its queues and starts
  zeroing the accumulator file (R86). -/
  | halt (n : Nat)
  /-- The 96-cycle zeroing of the accumulator file and masks completes and the pinna may accept a LAUNCH (R86). -/
  | accZeroingDone (n : Nat)
  /-- A scalar register is loaded with the immediate (R60). -/
  | sli (n : Nat)
  /-- A scalar ALU operation is performed on registers or the immediate (R60). -/
  | salu (n : Nat)
  /-- An address register is set from an add or from a scalar register (R60). -/
  | aalu (n : Nat)
  /-- A hardware loop with its trip count and body length is started (R61). -/
  | loop (n : Nat)
  /-- A conditional branch is taken or not, and ends any loop whose body it leaves (R60). -/
  | br (n : Nat)
  /-- A 32-bit scratchpad word is loaded into a scalar register (R60). -/
  | sld (n : Nat)
  /-- A scalar register is stored to a 32-bit scratchpad word (R60). -/
  | sst (n : Nat)
  /-- At the head of its array queue, the matrix multiply checks scale lines and adds block sums into a W96 group
  (R70). -/
  | mma (n : Nat) (ph : ArrPhase)
  /-- A group is opened zeroed or filled from a scratchpad tile (R74). -/
  | gopen (n : Nat) (ph : ArrPhase)
  /-- A group is rounded once into an output tile with its scale line and then closed (R76). -/
  | gclose (n : Nat) (ph : ArrPhase)
  /-- A group is stored as a W96 or BF16 image and is either kept or closed (R78). -/
  | gspill (n : Nat) (ph : ArrPhase)
  /-- A group is restored from a W96 or BF16 image (R78). -/
  | gfill (n : Nat) (ph : ArrPhase)
  /-- A pinna joins the fixed split-K tree and sends or combines partial tiles (R81). -/
  | greduce (x : ArrStep)
  /-- A partner's tile reaches the tree port, is checked against s[N] and is added in W96 (R83). -/
  | greduceTileReceived (n : Nat)
  /-- A GREDUCE participant waits beyond its limit and stops with 0x300A (R82). -/
  | treeTimeout (n : Nat)
  /-- The vector engine adds element-wise (R110). -/
  | vadd (n : Nat) (ph : Phase)
  /-- The vector engine subtracts element-wise (R110). -/
  | vsub (n : Nat) (ph : Phase)
  /-- The vector engine multiplies element-wise (R110). -/
  | vmul (n : Nat) (ph : Phase)
  /-- The vector engine performs a fused multiply-add with one rounding (R110). -/
  | vfma (n : Nat) (ph : Phase)
  /-- The vector engine takes the element-wise maximum (R110). -/
  | vmax (n : Nat) (ph : Phase)
  /-- The vector engine takes the element-wise minimum (R110). -/
  | vmin (n : Nat) (ph : Phase)
  /-- The vector engine takes the absolute value (R110). -/
  | vabs (n : Nat) (ph : Phase)
  /-- The vector engine negates (R110). -/
  | vneg (n : Nat) (ph : Phase)
  /-- The vector engine computes a correctly rounded reciprocal (R110). -/
  | vrcp (n : Nat) (ph : Phase)
  /-- The vector engine computes a correctly rounded reciprocal square root (R110). -/
  | vrsqrt (n : Nat) (ph : Phase)
  /-- The vector engine computes a correctly rounded exponential (R110). -/
  | vexp (n : Nat) (ph : Phase)
  /-- The vector engine computes a correctly rounded natural logarithm (R110). -/
  | vlog (n : Nat) (ph : Phase)
  /-- The vector engine multiplies by 2^k (R110). -/
  | vscale (n : Nat) (ph : Phase)
  /-- The vector engine converts between plain formats (R110). -/
  | vcvt (n : Nat) (ph : Phase)
  /-- The vector engine rounds FP32 to the BF16 or FP16 grid and writes it as FP32 (R110). -/
  | vsround (n : Nat) (ph : Phase)
  /-- The vector engine compares element-wise into a mask register (R111). -/
  | vcmp (n : Nat) (ph : Phase)
  /-- The vector engine selects A or B per element under a mask (R110). -/
  | vsel (n : Nat) (ph : Phase)
  /-- The vector engine packs masked elements densely and writes their count to a scalar register (R113). -/
  | vcompress (n : Nat) (ph : Phase)
  /-- The vector engine scatters dense elements back to the masked positions (R113). -/
  | vexpand (n : Nat) (ph : Phase)
  /-- The vector engine combines mask registers logically (R112). -/
  | vmlogic (n : Nat) (ph : Phase)
  /-- The vector engine loads a mask register from the scratchpad (R112). -/
  | vmld (n : Nat) (ph : Phase)
  /-- The vector engine stores a mask register to the scratchpad (R112). -/
  | vmst (n : Nat) (ph : Phase)
  /-- The vector engine forms a fixed-order W96 sum of a run (R114). -/
  | vrsum (n : Nat) (ph : Phase)
  /-- The vector engine forms a fixed-order W96 sum of squares (R114). -/
  | vrsumsq (n : Nat) (ph : Phase)
  /-- The vector engine reduces a run to its largest element (R114). -/
  | vrmax (n : Nat) (ph : Phase)
  /-- The vector engine reduces a run to its smallest element (R114). -/
  | vrmin (n : Nat) (ph : Phase)
  /-- The vector engine writes both the sum and the sum of squares of a run (R114). -/
  | vrmoment (n : Nat) (ph : Phase)
  /-- A pinna copies a descriptor to a frond DMA engine queue and receives a ticket (R139). -/
  | dsub (n : Nat)
  /-- A pinna stalls until the descriptor of a ticket has completed (R139). -/
  | dwait (n : Nat)
  /-- A pinna stalls until all of its submitted descriptors have completed (R139). -/
  | dfence (n : Nat)
  /-- A value is added atomically to a frond flag (R139). -/
  | flagadd (n : Nat)
  /-- A pinna stalls until a frond flag reaches a value (R139). -/
  | flagwait (n : Nat)
  /-- A FLAGWAIT exceeds its limit and stops the program with 0x200C (R139). -/
  | flagTimeout (n : Nat)
  /-- A descriptor reaches the head of its engine's queue and is checked fully before any byte moves (R131). -/
  | dmaDescriptorStart (e : EngineId)
  /-- A descriptor finishes converting and writing its elements and statistics (R138). -/
  | dmaDescriptorComplete (e : EngineId)
  /-- A bus error on a read or write ends the descriptor at the failing element with 0x200A (R135). -/
  | dmaBusError (e : EngineId) (k : Nat)
  /-- A descriptor of a torn-down context ends at its next 4 KiB boundary with 0x200B (R136). -/
  | dmaTeardownAbort (e : EngineId) (m : Nat)
  /-- A write of 0 to a statistics slot's elem field frees its ownership (R142). -/
  | statSlotFree (r : Requester) (f slot value : Nat)
  /-- After earlier conversions drain, a slot folds its observation into a new code for the new step seed (R174). -/
  | estFold (p slot : Nat) (seed : BitVec 64)
  /-- A write of an estimator slot enables, disables or holds its settings, or is refused with 0x1108 (R176). -/
  | estSlotWrite (r : Requester) (p slot word len value : Nat)
  /-- The base die decodes a line and the MPE checks region, metadata, tag or MAC before releasing it (R300). -/
  | memoryLineRead (stack line cls ctx : Nat) (flips : List (Nat × Nat × Nat))
  /-- The MPE encrypts and writes a full or partial line with its MAC or counter and tag (R296). -/
  | memoryLineWrite (stack line cls ctx off : Nat) (data : List Byte)
  /-- A corrected line is written back at the next idle slot of its bank (R152). -/
  | eccWriteback (stack line : Nat)
  /-- An MPE starts the next initialisation, re-key or zeroing sweep (R305). -/
  | sweepStart (stack : Nat)
  /-- A region's sweep finishes in every stack, the region enters its next state and 0x700B is raised (R305). -/
  | sweepDone (region last : Nat)
  /-- A write of RHZ_STAGE_SPLIT takes effect, or is ignored with 0x2106 (R168). -/
  | stageSplitWrite (r : Requester) (stack value : Nat)
  /-- Zeroing of the staging SRAM completes and the requests that need it proceed (R167). -/
  | stagingZeroingDone (stack : Nat)
  /-- A frond engine checks a CSE request and sends its queries to the stacks named (R160). -/
  | cseRequest (f : Nat)
  /-- A base die computes the partial (m, l, o) for each query over its segment (R161). -/
  | cseStackPart (stack : Nat)
  /-- Once all partials have arrived, the merge unit combines them in stack order, or the partial records are
  written (R163). -/
  | cseMerge (f : Nat)
  /-- An arm descriptor is checked and opens a reduction buffer with its deadline cycle and codes (R204). -/
  | redArm (job : Nat)
  /-- A send descriptor is checked and its spans are quantized and sent as contributions (R201). -/
  | redSend (job : Nat)
  /-- A release descriptor frees a CLOSED buffer entry (R485). -/
  | redRelease (job : Nat)
  /-- The last flit of a contribution or partial arrives, and it is accepted into a span or discarded (R206). -/
  | contributionReceived (stack src : Nat)
  /-- The comparator reaches the end of deadline cycle D and the entry becomes CLOSING (R208). -/
  | redDeadline (stack entry : Nat)
  /-- After the pending additions finish, the close writes the spans, steers the codes and writes the decision
  record (R210). -/
  | redClose (stack entry : Nat)
  /-- Between instructions of the check pinna, the vector engine re-sums the selected blocks and compares them with
  the Rhizoid sums (R215). -/
  | sampledCheck (stack entry : Nat)
  /-- A header image is checked and written, and the moments and optionally the weights are initialised (R230). -/
  | updateInit (job : Nat) (ph : Phase)
  /-- The update rule is applied with a gradient read from a stack (R230). -/
  | updateApply (job : Nat) (ph : Phase)
  /-- The fault and last fields are cleared and the step of a layer is set (R230). -/
  | updateClear (job : Nat) (ph : Phase)
  /-- A micro-program image is checked, stored in a slot and digested for the Calyptra (R242). -/
  | updateLoadprog (job : Nat) (ph : Phase)
  /-- An update queued by a close reaches the lanes, is checked, runs its passes and writes the header (R240). -/
  | layerUpdate (stack : Nat)
  /-- A skip advances the layer's step and skips counter and releases the unchanged weights (R246). -/
  | layerSkip (stack : Nat)
  /-- A lane command writes fault and last into the layer header (R246). -/
  | layerFaultWrite (stack : Nat)
  /-- Once the next buffer is OPEN or freed, the release sender checks the list and sends weights and codes to each
  destination (R248). -/
  | releaseStart (stack hdr : Nat)
  /-- After a release, a base die sends a mirror copy of the layer to the buddy node (R280). -/
  | mirrorSend (stack hdr : Nat)
  /-- A link sender with credits starts a frame on the channel it selects, under the current epoch (R263). -/
  | frameTransmit (l : Nat)
  /-- A decoded frame is judged, then decrypted and delivered, or discarded, or the link is reset (R268). -/
  | frameReceived (l flit : Nat) (blocks : List Superblock)
  /-- A control word updates the acknowledgements, credits and any nak replay (R256). -/
  | controlWordReceived (l : Nat) (block : Superblock)
  /-- A write of LML_REKEY_CTL.force moves every bound slot to its next epoch (R269). -/
  | rekeyForce (r : Requester) (l value : Nat)
  /-- A lane loses lock and is remapped to the spare, or the link degrades or goes down (R272). -/
  | laneFailed (l lane : Nat)
  /-- At the end of a 2^24-codeword window, a lane above the symbol threshold is declared failed (R271). -/
  | laneErrorWindow (l : Nat) (counts : List Nat)
  /-- A remap ordered set reaches the sender, which finishes its superblock and answers (R272). -/
  | remapOrderedSet (l lane : Nat)
  /-- Deskew after a lane remap completes and the receiver naks to resume with replay (R272). -/
  | remapDeskewDone (l : Nat)
  /-- A follower link's period expires and it sends a time request (R274). -/
  | timeRequestTimer (l : Nat)
  /-- A responder sends t2 and t3 in the first superblock at or after t2 plus 40 ns (R274). -/
  | timeAnswer (l : Nat)
  /-- A follower computes the offset and the delay from t1 to t4 and writes them (R274). The operands name the answer, of
  those that have arrived, by its times. -/
  | timeAnswerReceived (l t2 t3 t4 : Nat)
  /-- No answer arrives within 100 µs and 0x800B is raised (R275). -/
  | timeAnswerTimeout (l : Nat)
  /-- The Thallus processors run the hybrid SPDM session on VC3 and derive the slot keys (R266). The peer is of module
  `node`. -/
  | linkSessionEstablish (l : Nat) (peer : SessionPeer) (node : Nat)
  /-- A peer's retire notice on VC3 retires that end of a context slot (R270). -/
  | slotRetireNotice (l slot : Nat)
  /-- A received kind-0x20 write is checked against the bound context and performed, then acknowledged, or refused
  (R261). -/
  | remoteWrite (l : Nat)
  /-- A received kind-0x23 write into sealed regions is performed, then acknowledged, or refused (R261). -/
  | mirrorWrite (l : Nat)
  /-- A kind-0x21 acknowledgement lets the sender write that destination's stamp (R248). -/
  | remoteWriteAck (l : Nat)
  /-- A kind-0x22 refusal raises 0x800E and leaves the stamp unwritten (R261). -/
  | remoteWriteRefusal (l : Nat)
  /-- A signed fabric message puts the module into the STANDBY role (R278). -/
  | fabricStandby (src : MsgSource)
  /-- A STANDBY spare takes the failed node's identifier, routes and maps (R279). -/
  | fabricAdopt (src : MsgSource)
  /-- An adopted module moves from ADOPT to ACTIVE (R279). -/
  | fabricActivate (src : MsgSource)
  /-- Route entries are set, rebinding slots towards the alternate link (R279). -/
  | fabricRoute (src : MsgSource)
  /-- A buddy sends stored stack ranges back to the adopted node as mirror writes (R281). -/
  | fabricRestore (src : MsgSource)
  /-- After the release of a reset, the ROM runs its self-tests, the ladder, the identity checks and the
  verification of the runtime (R341). -/
  | thallusBoot
  /-- The Thallus runtime reports ready and commits the copy states and any security version (R342). -/
  | runtimeReady
  /-- The destination of image 2, 3 or 4 reports that its new copy is ready (R342). -/
  | imageDestReady (image : Nat)
  /-- A destination does not report ready within 500 ms and the previous copy is booted (R342). -/
  | imageReadyTimeout (image : Nat)
  /-- A TRNG health test fails and the DRBG serves nothing until a new start-up test passes (R317). -/
  | trngHealthFail (kind : Nat)
  /-- A Calyptra request snapshots the device state and begins dual signing (R332). -/
  | calyptra (src : MsgSource)
  /-- Signing completes, is self-checked, and the Calyptra is returned (R317). -/
  | calyptraSigned (failures : Nat)
  /-- The mailbox returns both certificates or both public keys (R344). -/
  | identity (port : Nat)
  /-- An authority slot key update is checked, then written, fused and taken into use (R329). -/
  | keyUpdate (port : Nat)
  /-- An image transfer begins by marking and erasing the copy that is not running (R343). -/
  | fwBegin (port : Nat)
  /-- Image bytes are accepted in increasing offset (R343). -/
  | fwData (port : Nat)
  /-- The transferred copy is verified and staged (R343). -/
  | fwEnd (port : Nat)
  /-- A staged image 2 is activated live, or activation is reported as pending (R343). -/
  | activate (port : Nat)
  /-- A queued mailbox request or this page's firmware transfer is abandoned (R347). -/
  | mailboxCancel (r : Requester) (port value : Nat)
  /-- A type-1 operator message writes and locks MPE_ESC.policy (R331). -/
  | operatorEscPolicy (src : MsgSource)
  /-- A type-2 operator message stores a new layout and resets every partition (R350). -/
  | operatorPartitionLayout (src : MsgSource)
  /-- An SPDM GET_MEASUREMENTS is answered with blocks from one snapshot, including the Calyptra (R336). -/
  | getMeasurements (port : Nat) (req : List Byte)
  /-- The SPDM responder answers GET_VERSION (R384). -/
  | getVersion (port : Nat) (req : List Byte)
  /-- The SPDM responder answers GET_CAPABILITIES (R384). -/
  | getCapabilities (port : Nat) (req : List Byte)
  /-- The SPDM responder negotiates its algorithms (R384). -/
  | negotiateAlgorithms (port : Nat) (req : List Byte)
  /-- The SPDM responder returns its certificate digests (R384). -/
  | getDigests (port : Nat) (req : List Byte)
  /-- The SPDM responder returns the certificate chain of slot 0 (R384). -/
  | getCertificate (port : Nat) (req : List Byte)
  /-- The SPDM responder answers a challenge with a signature (R384). -/
  | challenge (port : Nat) (req : List Byte)
  /-- The SPDM responder starts a session key exchange (R384). -/
  | keyExchange (port : Nat) (req : List Byte)
  /-- The SPDM responder completes a session handshake (R384). -/
  | finish (port session : Nat) (req chain keys : List Byte)
  /-- The SPDM session keys are updated (R384). -/
  | spdmKeyUpdate (port session : Nat) (req : List Byte)
  /-- The SPDM responder answers a heartbeat (R384). -/
  | heartbeat (port session : Nat) (req : List Byte)
  /-- An SPDM session is ended (R384). -/
  | endSession (port session : Nat) (req : List Byte)
  /-- A chunk of a large SPDM request is received (R384). -/
  | chunkSend (port : Nat) (req : List Byte)
  /-- A chunk of a large SPDM response is returned (R384). -/
  | chunkGet (port : Nat) (req : List Byte)
  /-- A vendor-defined SPDM message carries hybrid session steps or an owner's import key (R366). -/
  | vendorDefinedRequest (port session : Nat) (req : List Byte)
  /-- IDE_KM in a secured session programs or refreshes the keys of a selective stream (R382). -/
  | ideKmKeyProg (port session : Nat) (req : List Byte)
  /-- A TLP fails IDE integrity: the stream becomes Insecure, its TDI enters ERROR and 0xD006 is raised (R382). -/
  | ideIntegrityFail (port stream : Nat)
  /-- A TDISP message locks a VF's interface configuration (R383). -/
  | lockInterface (port session : Nat) (req : List Byte)
  /-- TDISP returns a TDI's state (R383). -/
  | getDeviceInterfaceState (port session : Nat) (req : List Byte)
  /-- TDISP returns the interface report with its BARs, context and policy digest (R383). -/
  | getDeviceInterfaceReport (port session : Nat) (req : List Byte)
  /-- A locked TDI enters RUN (R383). -/
  | startInterface (port session : Nat) (req : List Byte)
  /-- A TDI is stopped and leaves RUN (R383). -/
  | stopInterface (port session : Nat) (req : List Byte)
  /-- A FREE context becomes an ACTIVE single-owner context with owner 0 (R353). -/
  | ctxCreate (p : Nat)
  /-- A signed joint policy is verified and a joint context is created, with its policy record and key (R363). -/
  | jointCreate (p : Nat)
  /-- A member obtains the policy key from a neighbour over the VC3 link session (R363). -/
  | policyKeyTransfer (l ctx : Nat)
  /-- A context enters TEARDOWN and its commands stop (R362). -/
  | teardown (p : Nat)
  /-- When the stops are complete, the context's slots are retired and its regions destroyed and optionally zeroed
  (R362). -/
  | teardownRetireDestroy (c : Nat)
  /-- After any zeroing, the owner table, keys and grant are erased and the context becomes FREE (R362). -/
  | teardownRelease (c : Nat)
  /-- Thallus loads fresh region keys and the region enters INIT for its initialisation sweep (R292). -/
  | regionCreate (p : Nat)
  /-- A region is given new keys and a new epoch and enters REKEY for its sweep (R307). -/
  | regionRekey (p : Nat)
  /-- A region's keys are cleared and the region becomes FREE or ZEROING (R293). -/
  | regionDestroy (p : Nat)
  /-- A context slot of a link is bound, with its session identifier and channel maps (R265). -/
  | slotBind (p : Nat)
  /-- A bound context slot of a link is unbound (R353). -/
  | slotUnbind (p : Nat)
  /-- A release document signed by all owners grants a single-owner context the right to unseal key-8 chunks (R369).
  -/
  | releaseGrant (p : Nat)
  /-- A submission doorbell write publishes a new tail, or is ignored, or faults the context (R377). -/
  | sqDoorbell (r : Requester) (c q len value : Nat)
  /-- A write of the completion head returns records and lets waiting records be written (R354). -/
  | cqHeadReturn (r : Requester) (c len value : Nat)
  /-- The partition scheduler reads the next entry of a queue and starts the command once its resources and record
  space are free (R356). -/
  | commandStart (p : Nat)
  /-- Program images are loaded into the named pinnae, their registers are set, and they start (R355). -/
  | launch (job : Nat)
  /-- Every named pinna has halted or stopped and the LAUNCH record is written (R357). -/
  | launchComplete (job : Nat)
  /-- A DMA command runs its descriptors in order, sealing or unsealing chunks where selected (R368). -/
  | dma (job : Nat)
  /-- A CSE command hands its list of requests to a frond engine (R157). -/
  | cse (job : Nat)
  /-- A FENCE completes when every earlier command of the masked queues has completed (R356). -/
  | fence (job : Nat)
  /-- After the earlier commands of its queue complete, SIGNAL writes its value (R355). -/
  | signalWrite (job : Nat)
  /-- SIGNAL polls every 1 µs until the value at its address reaches its own (R355). -/
  | signalWait (job : Nat)
  /-- A SIGNAL wait exceeds its timeout and ends with 0xA00B (R355). -/
  | signalTimeout (job : Nat)
  /-- The payload is recorded, with the timebase time, in the capture stream (R355). -/
  | captureMark (job : Nat)
  /-- A fundamental reset, hot reset or link-down of a port resets its functions and its partitions (R375). -/
  | portReset (x cause : Nat)
  /-- A function-level reset of PF0 resets only its configuration space, MSI-X table and header copies (R375). -/
  | pf0Flr (x : Nat)
  /-- A port finishes training and raises 0xD005 if the link is degraded (R375). -/
  | pcieLinkTrained (x speed width : Nat)
  /-- A PTM Request is stamped and answered after 40 ns with the timebase (R421). -/
  | ptmRequest (x : Nat)
  /-- A host completion error or timeout is a bus error and raises 0xD009 (R378). -/
  | hostDmaErrorCompletion (x : Nat) (e : EngineId) (kind k : Nat)
  /-- A host, MC or Thallus write to a register with no row of its own, subject to reachability, locks and access
  size (R386). -/
  | registerWrite (r : Requester) (page : Page) (off len value : Nat)
  /-- A W1C write of EVT_STS clears pending classes and resends a message if pending remains (R395). -/
  | evtStsWrite (r : Requester) (page : Page) (value : Nat)
  /-- A write of EVT_MASK changes suppression and sends a message if pending remains (R395). -/
  | evtMaskWrite (r : Requester) (page : Page) (value : Nat)
  /-- A write-once lock of a page's RW block fields until the scope reset (R390). -/
  | pageCtlLock (r : Requester) (page : Page) (value : Nat)
  /-- A write of CLK_DOM_i.src starts parking or unparking a domain, or is refused (R408). -/
  | domainSwitchRequest (r : Requester) (dom value : Nat)
  /-- At boundary B, the domain's old clock stops and the multiplexer changes source (R409). -/
  | domainSwitchBoundary (dom : Nat)
  /-- The first edge of the new source arrives after 32 suppressed cycles and the switch completes (R409). -/
  | domainSwitched (dom : Nat)
  /-- At each 200 MHz edge the timebase advances by 5 ns plus the rate and any slew step (R417). -/
  | timebaseTick
  /-- A write of TMB_SET_CTL.go requests a set of the timebase 64 cycles later (R418). -/
  | tmbSetGo (r : Requester) (value : Nat)
  /-- The master and every copy take the new value, valid is set and 0xB004 is raised (R418). -/
  | timeSet
  /-- A write of TMB_SLEW replaces the slew remainder (R417). -/
  | tmbSlewWrite (r : Requester) (value : Nat)
  /-- A read of TMB_NS_LO loads the reader's latch with the high word and the fraction (R424). -/
  | tmbNsLoRead (r : Requester) (len : Nat)
  /-- A read of TMB_NS_HI or TMB_FRAC returns and empties its latched part (R424). -/
  | tmbLatchedRead (r : Requester) (frac : Bool)
  /-- PPS_OUT rises at a whole second of the timebase and falls after its width (R420). -/
  | ppsEdge
  /-- REF10M_OUT rises at each 100 ns multiple and falls 50 ns later (R420). -/
  | ref10mEdge
  /-- At each 64-cycle window the current throttle level is applied to all arrays (R427). -/
  | throttleWindow
  /-- A 1 µs sample of input power and current moves the current limiter level (R427). -/
  | currentSample (watts milliamps : Nat)
  /-- The 100 µs sensor reading moves the thermal level (R427). -/
  | thermalSample (temps : List Nat)
  /-- Every 1 ms the cap loop compares mean power with the cap and moves its level and counts any conflict (R429).
  -/
  | capLoop (watts : Nat)
  /-- THROTTLE_N held at a new level for 200 cycles sets or clears the external level (R427). -/
  | extThrottle (low : Bool)
  /-- A rail leaves its window or the input leaves its limits, so PWR_OK falls and the stage shuts down (R426). -/
  | inputFaultShutdown (cause millivolts : Nat)
  /-- An input in a marginal band leaves the module running and raises 0xB105 (R426). -/
  | inputRange (high : Bool) (millivolts : Nat)
  /-- After 100 ms of good input following a shutdown, the stage restarts by itself (R426). -/
  | powerStageRestart
  /-- Each 50 kS/s sample adds its energy to every channel total (R433). -/
  | meterSample (codes : List Int)
  /-- Every 1 ms the meter attributes energy to quarters, partitions and contexts (R435). -/
  | meterAllocate (resident : List Nat)
  /-- Every interval the meter writes an interval log entry (R438). -/
  | meterInterval
  /-- The input stays below 32.0 V for 20 µs and the power-fail entry is written on hold-up (R438). -/
  | meterPowerFail
  /-- The meter has verified its image, restored its totals and written its power-up record (R440). -/
  | meterReady (gap : Nat)
  /-- The I3C READ returns the LCH page bytes (R441). -/
  | meterRead (msg : List Byte)
  /-- The page, nonce, seal digest and counter are returned, signed (R441). -/
  | sealRead (msg : List Byte)
  /-- Log entries and sector signatures are returned (R441). -/
  | meterLog (msg : List Byte)
  /-- A signed acknowledgement moves LCH_LOG_ACK forward and frees sectors (R441). -/
  | meterAck (msg : List Byte)
  /-- A signed parameter block with the next event counter is logged and applied (R442). -/
  | meterParam (msg : List Byte)
  /-- A meter firmware transfer begins (R442). -/
  | meterFwBegin (len : Nat)
  /-- Meter firmware bytes are received (R442). -/
  | meterFwData (off : Nat) (bytes : List Byte)
  /-- The meter image is verified into the copy that is not running (R442). -/
  | meterFwEnd
  /-- Every 100 ms the MC reads every sensor for PLDM telemetry (R450). -/
  | sensorPoll (readings : List Nat)
  /-- The MC returns a numeric sensor reading over PLDM type 2 (R450). -/
  | pldmGetSensorReading (sensor : Nat)
  /-- A PLDM firmware update begins an image transfer (R343). -/
  | pldmRequestUpdate (image len : Nat)
  /-- The device requests the next 1,024-byte piece of firmware data (R343). -/
  | pldmRequestFirmwareData (data : List Byte)
  /-- PLDM ActivateFirmware activates a staged copy live or reports it pending (R343). -/
  | pldmActivateFirmware (image : Nat) (selfContained : Bool)
  /-- A PTP message on the management port is timestamped and processed as grandmaster or receiver (R451). -/
  | ptpMessage (bytes : Option (List Byte))
  /-- An offset sample sets or slews and rate-steers the timebase and may lock it (R451). -/
  | timeSampleSteer (period : Nat)
  /-- No sample for 8 periods unlocks the timebase into holdover (R451). -/
  | timeSourceLost
  /-- The management Ethernet link comes up or goes down (R464). -/
  | ethLink (up : Bool)
  /-- One entry per cycle leaves the intake queue with the next sequence number (R453). -/
  | logDequeue
  /-- A page of 8 entries, an aged page or an alarm's page is programmed to the flash ring (R454). -/
  | logPageProgram
  /-- When the MC becomes ready it resumes the log and writes LOG_START (R455). -/
  | logStart
  /-- Mode 0 to 1 checks the ring and writes the START record (R456). -/
  | captureStart (c : Nat)
  /-- Mode 1 to 0 writes the TRAILER with its MAC (R456). -/
  | captureStop (c : Nat)
  /-- Mode 0 to 2 checks START and TRAILER and restores the slots (R456). -/
  | replayStart (c : Nat)
  /-- Mode 2 to 0 ends replay (R456). -/
  | replayStop (c : Nat)
  /-- PCIEx_PERST_N rises and the port begins link training once image 3 is running (R480). -/
  | perstNRising (x : Nat)
  /-- The peer's Thallus confirms on VC3 a slot bound to the same fabric session identifier, and the waiting local
  binding of the context slot completes (R265). -/
  | slotBindConfirmation (l slot : Nat) (fsid : Nat)
  /-- A new TRNG start-up test passes after a health failure, and the DRBG serves requests again (R317). -/
  | trngStartUpTest
  /-- A register read that reaches an unreachable page, breaks the size rule or bypasses a locked TDI's stream
  returns zero, all ones or Unsupported Request and raises 0xD001, 0xD00A or 0xD00B (R391). -/
  | registerRead (r : Requester) (page : Page) (off len : Nat)
  /-- A host configuration request sets PCIe configuration state such as SR-IOV VF Enable and NumVFs, the power
  state or MSI-X enables, or completes with Request Retry Status before the link is up (R374). -/
  | configurationRequest (x fn off : Nat) (value : Option Nat)
  /-- A correctable or uncorrectable PCIe error is detected and logged by AER, counted on the HIF page, and 0xD008
  is raised for an uncorrectable one (R374). -/
  | aerError (x : Nat) (uncorrectable : Bool) (status : Nat)
  /-- A PLDM cancel abandons the image transfer in progress, leaving its copy in state 0 (R343). -/
  | pldmCancelUpdate
  /-- An MCTP control message from the bus owner, such as the one that assigns the endpoint ID, is answered by the
  management controller (R449). -/
  | mctpControlMessage (msg : List Byte)
  deriving DecidableEq, Repr

end Sys2Proof
end

