-- ==== Sys2Proof/WellFormed.lean ====
section
/-!
DEFINITION. Well-formed commands: every unit that a command names exists (R6, R352, R374, R392), and a register access
has a size, an offset and a value that a bus can carry (R386).
-/
namespace Sys2Proof

open Sys2Proof.Machine

/-- Units of the module (00 R6): 768 pinnae, 4 partitions, 32 contexts, 16 links of 9 lanes, 12 stacks, 32 fronds, 2 host
ports, and the 64 regions of R286. -/
def isPinna (n : Nat) : Bool := decide (n < 768)
def isPart (p : Nat) : Bool := decide (p < 4)
def isCtx (c : Nat) : Bool := decide (c < 32)
def isLink (l : Nat) : Bool := decide (l < 16)
def isLane (l : Nat) : Bool := decide (l < 9)

/-- An array of a pinna (R59). -/
def Machine.ArrPhase.ok : ArrPhase → Bool
  | .issue => true
  | .perform arr => decide (arr < 4)

/-- A superblock of five 256 B flits, whose errors are symbols of a 544-symbol codeword, each named once (R255). -/
def Machine.Superblock.ok (b : Superblock) : Bool :=
  let errs (es : List Nat) : Bool := es.all (fun j => decide (j < 544)) && es.eraseDups.length == es.length
  b.flits.length == 1280 && errs b.errs0 && errs b.errs1

/-- An SPDM responder: of port 0 or 1, or over MCTP (R449). -/
def isResponder (x : Nat) : Bool := decide (x < 3)
def isStack (k : Nat) : Bool := decide (k < 12)
def isFrond (f : Nat) : Bool := decide (f < 32)
def isPort (x : Nat) : Bool := decide (x < 2)
def isRegion (r : Nat) : Bool := decide (r < 64)

/-- A value, an offset in a page and a length that one access can carry. -/
def isValue (v : Nat) : Bool := decide (v < 2 ^ 64)
def isOffset (o : Nat) : Bool := decide (o < 16384)
def isLength (n : Nat) : Bool := decide (1 ≤ n) && decide (n ≤ 8)

/-- A host function is PF0 or one of the 32 VFs of a port. -/
def Machine.Requester.wf : Requester → Bool
  | .host x fn _ => isPort x && decide (fn ≤ 32)
  | .mc => true
  | .thallus => true

def Machine.EngineId.wf : EngineId → Bool
  | .frond f e => isFrond f && decide (e < 4)
  | .host x e => isPort x && decide (e < 4)

def Machine.MsgSource.wf : MsgSource → Bool
  | .mailbox x => isPort x
  | .mc _ => true
  | .link l => isLink l

def Machine.Page.wf : Page → Bool
  | .hif x => isPort x
  | .fnc x => isPort x
  | .mbx x => isPort x
  | .prt p => isPart p
  | .est p => isPart p
  | .ledger p => isPart p
  | .rhz k => isStack k
  | .mpe k => isStack k
  | .lml l => isLink l
  | .frd f => isFrond f
  | .pna n => isPinna n
  | .ctx c => isCtx c
  | .mirror c => isCtx c
  | .bell c => isCtx c
  | .msix x fn => isPort x && decide (fn ≤ 32)
  | .pba x fn => isPort x && decide (fn ≤ 32)
  | .top | .thl | .lch | .clk | .tmb | .pwr | .mgt | .rgn | .fabric => true

/-- The check of a command. -/
def Instr.wf : Instr → Bool
  | .coldReset _ _ => true
  | .oscFirstEdge => true
  | .oscEdgeTimeout => true
  | .settleTimeEnd => true
  | .pllLocked _ => true
  | .pllLockTimeout => true
  | .pllLockLost => true
  | .faultPatternFrame => true
  | .rstNAsserted => true
  | .topResetGo r value => r.wf && isValue value
  | .bootWatchdogExpiry => true
  | .moduleResetRelease => true
  | .partitionReset r p value => r.wf && isPart p && isValue value
  | .partitionResetDone p => isPart p
  | .contextReset r c value => (match r with | some q => q.wf | none => true) && isCtx c && isValue value
  | .contextResetDone c => isCtx c
  | .linkRetrain r l value => r.wf && isLink l && isValue value
  | .linkTrained l => isLink l
  | .nop n => isPinna n
  | .halt n => isPinna n
  | .accZeroingDone n => isPinna n
  | .sli n => isPinna n
  | .salu n => isPinna n
  | .aalu n => isPinna n
  | .loop n => isPinna n
  | .br n => isPinna n
  | .sld n => isPinna n
  | .sst n => isPinna n
  | .mma n ph => isPinna n && ph.ok
  | .gopen n ph => isPinna n && ph.ok
  | .gclose n ph => isPinna n && ph.ok
  | .gspill n ph => isPinna n && ph.ok
  | .gfill n ph => isPinna n && ph.ok
  | .greduce x => isPinna x.n && x.ph.ok
  | .greduceTileReceived n => isPinna n
  | .treeTimeout n => isPinna n
  | .vadd n _ => isPinna n
  | .vsub n _ => isPinna n
  | .vmul n _ => isPinna n
  | .vfma n _ => isPinna n
  | .vmax n _ => isPinna n
  | .vmin n _ => isPinna n
  | .vabs n _ => isPinna n
  | .vneg n _ => isPinna n
  | .vrcp n _ => isPinna n
  | .vrsqrt n _ => isPinna n
  | .vexp n _ => isPinna n
  | .vlog n _ => isPinna n
  | .vscale n _ => isPinna n
  | .vcvt n _ => isPinna n
  | .vsround n _ => isPinna n
  | .vcmp n _ => isPinna n
  | .vsel n _ => isPinna n
  | .vcompress n _ => isPinna n
  | .vexpand n _ => isPinna n
  | .vmlogic n _ => isPinna n
  | .vmld n _ => isPinna n
  | .vmst n _ => isPinna n
  | .vrsum n _ => isPinna n
  | .vrsumsq n _ => isPinna n
  | .vrmax n _ => isPinna n
  | .vrmin n _ => isPinna n
  | .vrmoment n _ => isPinna n
  | .dsub n => isPinna n
  | .dwait n => isPinna n
  | .dfence n => isPinna n
  | .flagadd n => isPinna n
  | .flagwait n => isPinna n
  | .flagTimeout n => isPinna n
  | .dmaDescriptorStart e => e.wf
  | .dmaDescriptorComplete e => e.wf
  | .dmaBusError e _ => e.wf
  | .dmaTeardownAbort e _ => e.wf
  | .statSlotFree r f _ value => r.wf && isFrond f && isValue value
  | .estFold p _ _ => isPart p
  | .estSlotWrite r p _ _ _ value => r.wf && isPart p && isValue value
  | .memoryLineRead stack _ _ ctx _ => isStack stack && isCtx ctx
  | .memoryLineWrite stack _ _ ctx _ _ => isStack stack && isCtx ctx
  | .eccWriteback stack _ => isStack stack
  | .sweepStart stack => isStack stack
  | .sweepDone region last => isRegion region && isStack last
  | .stageSplitWrite r stack value => r.wf && isStack stack && isValue value
  | .stagingZeroingDone stack => isStack stack
  | .cseRequest f => isFrond f
  | .cseStackPart stack => isStack stack
  | .cseMerge f => isFrond f
  | .redArm _ => true
  | .redSend _ => true
  | .redRelease _ => true
  | .contributionReceived stack _ => isStack stack
  | .redDeadline stack _ => isStack stack
  | .redClose stack _ => isStack stack
  | .sampledCheck stack _ => isStack stack
  | .updateInit _ _ => true
  | .updateApply _ _ => true
  | .updateClear _ _ => true
  | .updateLoadprog _ _ => true
  | .layerUpdate stack => isStack stack
  | .layerSkip stack => isStack stack
  | .layerFaultWrite stack => isStack stack
  | .releaseStart stack _ => isStack stack
  | .mirrorSend stack _ => isStack stack
  | .frameTransmit l => isLink l
  | .frameReceived l i bs => isLink l && decide (i < 5) && !bs.isEmpty && decide (bs.length ≤ 4) && bs.all (fun b => b.ok)
  | .controlWordReceived l b => isLink l && b.ok
  | .rekeyForce r l value => r.wf && isLink l && isValue value
  | .laneFailed l lane => isLink l && isLane lane
  | .laneErrorWindow l _ => isLink l
  | .remapOrderedSet l lane => isLink l && isLane lane
  | .remapDeskewDone l => isLink l
  | .timeRequestTimer l => isLink l
  | .timeAnswer l => isLink l
  | .timeAnswerReceived l _ _ _ => isLink l
  | .timeAnswerTimeout l => isLink l
  | .linkSessionEstablish l _ _ => isLink l
  | .slotRetireNotice l _ => isLink l
  | .remoteWrite l => isLink l
  | .mirrorWrite l => isLink l
  | .remoteWriteAck l => isLink l
  | .remoteWriteRefusal l => isLink l
  | .fabricStandby src => src.wf
  | .fabricAdopt src => src.wf
  | .fabricActivate src => src.wf
  | .fabricRoute src => src.wf
  | .fabricRestore src => src.wf
  | .thallusBoot => true
  | .runtimeReady => true
  | .imageDestReady _ => true
  | .imageReadyTimeout _ => true
  | .trngHealthFail _ => true
  | .calyptra src => src.wf
  | .calyptraSigned _ => true
  | .identity port => isPort port
  | .keyUpdate port => isPort port
  | .fwBegin port => isPort port
  | .fwData port => isPort port
  | .fwEnd port => isPort port
  | .activate port => isPort port
  | .mailboxCancel r port value => r.wf && isPort port && isValue value
  | .operatorEscPolicy src => src.wf
  | .operatorPartitionLayout src => src.wf
  | .getMeasurements port _ => isResponder port
  | .getVersion port _ => isResponder port
  | .getCapabilities port _ => isResponder port
  | .negotiateAlgorithms port _ => isResponder port
  | .getDigests port _ => isResponder port
  | .getCertificate port _ => isResponder port
  | .challenge port _ => isResponder port
  | .keyExchange port _ => isResponder port
  | .finish port _ _ _ _ => isResponder port
  | .spdmKeyUpdate port _ _ => isResponder port
  | .heartbeat port _ _ => isResponder port
  | .endSession port _ _ => isResponder port
  | .chunkSend port _ => isResponder port
  | .chunkGet port _ => isResponder port
  | .vendorDefinedRequest port _ _ => isResponder port
  | .ideKmKeyProg port _ _ => isPort port
  | .ideIntegrityFail port _ => isPort port
  | .lockInterface port _ _ => isPort port
  | .getDeviceInterfaceState port _ _ => isPort port
  | .getDeviceInterfaceReport port _ _ => isPort port
  | .startInterface port _ _ => isPort port
  | .stopInterface port _ _ => isPort port
  | .ctxCreate p => isPart p
  | .jointCreate p => isPart p
  | .policyKeyTransfer l ctx => isLink l && isCtx ctx
  | .teardown p => isPart p
  | .teardownRetireDestroy c => isCtx c
  | .teardownRelease c => isCtx c
  | .regionCreate p => isPart p
  | .regionRekey p => isPart p
  | .regionDestroy p => isPart p
  | .slotBind p => isPart p
  | .slotUnbind p => isPart p
  | .releaseGrant p => isPart p
  | .sqDoorbell r c _ _ value => r.wf && isCtx c && isValue value
  | .cqHeadReturn r c _ value => r.wf && isCtx c && isValue value
  | .commandStart p => isPart p
  | .launch _ => true
  | .launchComplete _ => true
  | .dma _ => true
  | .cse _ => true
  | .fence _ => true
  | .signalWrite _ => true
  | .signalWait _ => true
  | .signalTimeout _ => true
  | .captureMark _ => true
  | .portReset x _ => isPort x
  | .pf0Flr x => isPort x
  | .pcieLinkTrained x _ _ => isPort x
  | .ptmRequest x => isPort x
  | .hostDmaErrorCompletion x e _ _ => isPort x && e.wf
  | .registerWrite r page off len value => r.wf && page.wf && isOffset off && isLength len && isValue value
  | .evtStsWrite r page value => r.wf && page.wf && isValue value
  | .evtMaskWrite r page value => r.wf && page.wf && isValue value
  | .pageCtlLock r page value => r.wf && page.wf && isValue value
  | .domainSwitchRequest r _ value => r.wf && isValue value
  | .domainSwitchBoundary _ => true
  | .domainSwitched _ => true
  | .timebaseTick => true
  | .tmbSetGo r value => r.wf && isValue value
  | .timeSet => true
  | .tmbSlewWrite r value => r.wf && isValue value
  | .tmbNsLoRead r _ => r.wf
  | .tmbLatchedRead r _ => r.wf
  | .ppsEdge => true
  | .ref10mEdge => true
  | .throttleWindow => true
  | .currentSample _ _ => true
  | .thermalSample _ => true
  | .capLoop _ => true
  | .extThrottle _ => true
  | .inputFaultShutdown _ _ => true
  | .inputRange _ _ => true
  | .powerStageRestart => true
  | .meterSample _ => true
  | .meterAllocate _ => true
  | .meterInterval => true
  | .meterPowerFail => true
  | .meterReady _ => true
  | .meterRead _ => true
  | .sealRead _ => true
  | .meterLog _ => true
  | .meterAck _ => true
  | .meterParam _ => true
  | .meterFwBegin _ => true
  | .meterFwData _ _ => true
  | .meterFwEnd => true
  | .sensorPoll _ => true
  | .pldmGetSensorReading _ => true
  | .pldmRequestUpdate _ _ => true
  | .pldmRequestFirmwareData _ => true
  | .pldmActivateFirmware _ _ => true
  | .ptpMessage _ => true
  | .timeSampleSteer _ => true
  | .timeSourceLost => true
  | .ethLink _ => true
  | .logDequeue => true
  | .logPageProgram => true
  | .logStart => true
  | .captureStart c => isCtx c
  | .captureStop c => isCtx c
  | .replayStart c => isCtx c
  | .replayStop c => isCtx c
  | .perstNRising x => isPort x
  | .slotBindConfirmation l _ _ => isLink l
  | .trngStartUpTest => true
  | .registerRead r page off len => r.wf && page.wf && isOffset off && isLength len
  | .configurationRequest x _ _ value => isPort x && value.all isValue
  | .aerError x _ _ => isPort x
  | .pldmCancelUpdate => true
  | .mctpControlMessage _ => true

/-- The page of a DMA engine. -/
def Machine.EngineId.pages : EngineId → List Page
  | .frond f _ => [.frd f]
  | .host x _ => [.hif x]

/-- The pages of the units that a command names. -/
def Instr.pages : Instr → List Page
  | .coldReset _ _ => []
  | .oscFirstEdge => []
  | .oscEdgeTimeout => []
  | .settleTimeEnd => []
  | .pllLocked _ => []
  | .pllLockTimeout => []
  | .pllLockLost => []
  | .faultPatternFrame => []
  | .rstNAsserted => []
  | .topResetGo _ _ => []
  | .bootWatchdogExpiry => []
  | .moduleResetRelease => []
  | .partitionReset _ p _ => [.prt p]
  | .partitionResetDone p => [.prt p]
  | .contextReset _ c _ => [.ctx c]
  | .contextResetDone c => [.ctx c]
  | .linkRetrain _ l _ => [.lml l]
  | .linkTrained l => [.lml l]
  | .nop n => [.pna n]
  | .halt n => [.pna n]
  | .accZeroingDone n => [.pna n]
  | .sli n => [.pna n]
  | .salu n => [.pna n]
  | .aalu n => [.pna n]
  | .loop n => [.pna n]
  | .br n => [.pna n]
  | .sld n => [.pna n]
  | .sst n => [.pna n]
  | .mma n _ => [.pna n]
  | .gopen n _ => [.pna n]
  | .gclose n _ => [.pna n]
  | .gspill n _ => [.pna n]
  | .gfill n _ => [.pna n]
  | .greduce x => [.pna x.n]
  | .greduceTileReceived n => [.pna n]
  | .treeTimeout n => [.pna n]
  | .vadd n _ => [.pna n]
  | .vsub n _ => [.pna n]
  | .vmul n _ => [.pna n]
  | .vfma n _ => [.pna n]
  | .vmax n _ => [.pna n]
  | .vmin n _ => [.pna n]
  | .vabs n _ => [.pna n]
  | .vneg n _ => [.pna n]
  | .vrcp n _ => [.pna n]
  | .vrsqrt n _ => [.pna n]
  | .vexp n _ => [.pna n]
  | .vlog n _ => [.pna n]
  | .vscale n _ => [.pna n]
  | .vcvt n _ => [.pna n]
  | .vsround n _ => [.pna n]
  | .vcmp n _ => [.pna n]
  | .vsel n _ => [.pna n]
  | .vcompress n _ => [.pna n]
  | .vexpand n _ => [.pna n]
  | .vmlogic n _ => [.pna n]
  | .vmld n _ => [.pna n]
  | .vmst n _ => [.pna n]
  | .vrsum n _ => [.pna n]
  | .vrsumsq n _ => [.pna n]
  | .vrmax n _ => [.pna n]
  | .vrmin n _ => [.pna n]
  | .vrmoment n _ => [.pna n]
  | .dsub n => [.pna n]
  | .dwait n => [.pna n]
  | .dfence n => [.pna n]
  | .flagadd n => [.pna n]
  | .flagwait n => [.pna n]
  | .flagTimeout n => [.pna n]
  | .dmaDescriptorStart e => e.pages
  | .dmaDescriptorComplete e => e.pages
  | .dmaBusError e _ => e.pages
  | .dmaTeardownAbort e _ => e.pages
  | .statSlotFree _ f _ _ => [.frd f]
  | .estFold p _ _ => [.prt p]
  | .estSlotWrite _ p _ _ _ _ => [.prt p]
  | .memoryLineRead stack _ _ ctx _ => [.rhz stack, .ctx ctx]
  | .memoryLineWrite stack _ _ ctx _ _ => [.rhz stack, .ctx ctx]
  | .eccWriteback stack _ => [.rhz stack]
  | .sweepStart stack => [.rhz stack]
  | .sweepDone _ last => [.rhz last]
  | .stageSplitWrite _ stack _ => [.rhz stack]
  | .stagingZeroingDone stack => [.rhz stack]
  | .cseRequest f => [.frd f]
  | .cseStackPart stack => [.rhz stack]
  | .cseMerge f => [.frd f]
  | .redArm _ => []
  | .redSend _ => []
  | .redRelease _ => []
  | .contributionReceived stack _ => [.rhz stack]
  | .redDeadline stack _ => [.rhz stack]
  | .redClose stack _ => [.rhz stack]
  | .sampledCheck stack _ => [.rhz stack]
  | .updateInit _ _ => []
  | .updateApply _ _ => []
  | .updateClear _ _ => []
  | .updateLoadprog _ _ => []
  | .layerUpdate stack => [.rhz stack]
  | .layerSkip stack => [.rhz stack]
  | .layerFaultWrite stack => [.rhz stack]
  | .releaseStart stack _ => [.rhz stack]
  | .mirrorSend stack _ => [.rhz stack]
  | .frameTransmit l => [.lml l]
  | .frameReceived l _ _ => [.lml l]
  | .controlWordReceived l _ => [.lml l]
  | .rekeyForce _ l _ => [.lml l]
  | .laneFailed l _ => [.lml l]
  | .laneErrorWindow l _ => [.lml l]
  | .remapOrderedSet l _ => [.lml l]
  | .remapDeskewDone l => [.lml l]
  | .timeRequestTimer l => [.lml l]
  | .timeAnswer l => [.lml l]
  | .timeAnswerReceived l _ _ _ => [.lml l]
  | .timeAnswerTimeout l => [.lml l]
  | .linkSessionEstablish l _ _ => [.lml l]
  | .slotRetireNotice l _ => [.lml l]
  | .remoteWrite l => [.lml l]
  | .mirrorWrite l => [.lml l]
  | .remoteWriteAck l => [.lml l]
  | .remoteWriteRefusal l => [.lml l]
  | .fabricStandby _ => []
  | .fabricAdopt _ => []
  | .fabricActivate _ => []
  | .fabricRoute _ => []
  | .fabricRestore _ => []
  | .thallusBoot => []
  | .runtimeReady => []
  | .imageDestReady _ => []
  | .imageReadyTimeout _ => []
  | .trngHealthFail _ => []
  | .calyptra _ => []
  | .calyptraSigned _ => []
  | .identity port => [.hif port]
  | .keyUpdate port => [.hif port]
  | .fwBegin port => [.hif port]
  | .fwData port => [.hif port]
  | .fwEnd port => [.hif port]
  | .activate port => [.hif port]
  | .mailboxCancel _ port _ => [.hif port]
  | .operatorEscPolicy _ => []
  | .operatorPartitionLayout _ => []
  | .getMeasurements _ _ => []
  | .getVersion _ _ => []
  | .getCapabilities _ _ => []
  | .negotiateAlgorithms _ _ => []
  | .getDigests _ _ => []
  | .getCertificate _ _ => []
  | .challenge _ _ => []
  | .keyExchange _ _ => []
  | .finish _ _ _ _ _ => []
  | .spdmKeyUpdate _ _ _ => []
  | .heartbeat _ _ _ => []
  | .endSession _ _ _ => []
  | .chunkSend _ _ => []
  | .chunkGet _ _ => []
  | .vendorDefinedRequest _ _ _ => []
  | .ideKmKeyProg port _ _ => [.hif port]
  | .ideIntegrityFail port _ => [.hif port]
  | .lockInterface port _ _ => [.hif port]
  | .getDeviceInterfaceState port _ _ => [.hif port]
  | .getDeviceInterfaceReport port _ _ => [.hif port]
  | .startInterface port _ _ => [.hif port]
  | .stopInterface port _ _ => [.hif port]
  | .ctxCreate p => [.prt p]
  | .jointCreate p => [.prt p]
  | .policyKeyTransfer l ctx => [.lml l, .ctx ctx]
  | .teardown p => [.prt p]
  | .teardownRetireDestroy c => [.ctx c]
  | .teardownRelease c => [.ctx c]
  | .regionCreate p => [.prt p]
  | .regionRekey p => [.prt p]
  | .regionDestroy p => [.prt p]
  | .slotBind p => [.prt p]
  | .slotUnbind p => [.prt p]
  | .releaseGrant p => [.prt p]
  | .sqDoorbell _ c _ _ _ => [.ctx c]
  | .cqHeadReturn _ c _ _ => [.ctx c]
  | .commandStart p => [.prt p]
  | .launch _ => []
  | .launchComplete _ => []
  | .dma _ => []
  | .cse _ => []
  | .fence _ => []
  | .signalWrite _ => []
  | .signalWait _ => []
  | .signalTimeout _ => []
  | .captureMark _ => []
  | .portReset x _ => [.hif x]
  | .pf0Flr x => [.hif x]
  | .pcieLinkTrained x _ _ => [.hif x]
  | .ptmRequest x => [.hif x]
  | .hostDmaErrorCompletion x e _ _ => [.hif x] ++ e.pages
  | .registerWrite _ page _ _ _ => [page]
  | .evtStsWrite _ page _ => [page]
  | .evtMaskWrite _ page _ => [page]
  | .pageCtlLock _ page _ => [page]
  | .domainSwitchRequest _ _ _ => []
  | .domainSwitchBoundary _ => []
  | .domainSwitched _ => []
  | .timebaseTick => []
  | .tmbSetGo _ _ => []
  | .timeSet => []
  | .tmbSlewWrite _ _ => []
  | .tmbNsLoRead _ _ => []
  | .tmbLatchedRead _ _ => []
  | .ppsEdge => []
  | .ref10mEdge => []
  | .throttleWindow => []
  | .currentSample _ _ => []
  | .thermalSample _ => []
  | .capLoop _ => []
  | .extThrottle _ => []
  | .inputFaultShutdown _ _ => []
  | .inputRange _ _ => []
  | .powerStageRestart => []
  | .meterSample _ => []
  | .meterAllocate _ => []
  | .meterInterval => []
  | .meterPowerFail => []
  | .meterReady _ => []
  | .meterRead _ => []
  | .sealRead _ => []
  | .meterLog _ => []
  | .meterAck _ => []
  | .meterParam _ => []
  | .meterFwBegin _ => []
  | .meterFwData _ _ => []
  | .meterFwEnd => []
  | .sensorPoll _ => []
  | .pldmGetSensorReading _ => []
  | .pldmRequestUpdate _ _ => []
  | .pldmRequestFirmwareData _ => []
  | .pldmActivateFirmware _ _ => []
  | .ptpMessage _ => []
  | .timeSampleSteer _ => []
  | .timeSourceLost => []
  | .ethLink _ => []
  | .logDequeue => []
  | .logPageProgram => []
  | .logStart => []
  | .captureStart c => [.ctx c]
  | .captureStop c => [.ctx c]
  | .replayStart c => [.ctx c]
  | .replayStop c => [.ctx c]
  | .perstNRising x => [.hif x]
  | .slotBindConfirmation l _ _ => [.lml l]
  | .trngStartUpTest => []
  | .registerRead _ page _ _ => [page]
  | .configurationRequest x _ _ _ => [.hif x]
  | .aerError x _ _ => [.hif x]
  | .pldmCancelUpdate => []
  | .mctpControlMessage _ => []

end Sys2Proof
end

