-- ==== Sys2Proof/Decode.lean ====
section
/-!
DEFINITION. Commands spelled by words. The module takes its commands from registers, buses, links and pins; no row of
the command table has an encoding of its own, so no word spells a command.
-/
namespace Sys2Proof

/-- The command that the low `nbits` bits of a word spell: none, since the table gives no row any bits. -/
def decodeTableWord (_nbits _w : Nat) : Option Instr := none

end Sys2Proof
end

