-- ==== Sys2Proof/Config.lean ====
section
/-!
DEFINITION. What the spec leaves open, and what a module is shipped with: uninterpreted constants without bodies, so that
nothing can be proved of their values (log entry 5).
-/
namespace Sys2Proof.Config

/-- Bytes drawn from the TRNG (R315), and bytes that the spec leaves open, by the number of the draw. -/
opaque freeByte : Nat → Byte

/-- Values the spec leaves open after an operation, by the number of the draw. -/
opaque freeWord : Nat → BitVec 64

/-- What becomes of the count of an event of a page, by the page's number, the tick, and the mark of the page's latest
event (R394, R412; log entry 102). -/
opaque evtFate : Nat → Nat → Nat → Nat

/-- Which bits of a register word hardware set in the very cycle of a write within the same tick, by the word's key, the
tick and the draws so far (R8; log entry 113). -/
opaque sameCycle : Nat → Nat → Nat → Nat

/-- How many FIFOs a reset clears by handshake, the page code of each, and the entries that each discards, by the number
of the draw (R413; log entry 103). -/
opaque fifos : Nat → Nat
opaque fifoPage : Nat → Nat → Nat
opaque fifoDropped : Nat → Nat → Nat

/-- Cycles that the accesses of a pinna's scratchpad wait during a tick, by the pinna, the tick and the draws so far (R121;
log entry 104). -/
opaque bankWaits : Nat → Nat → Nat → Nat

/-- Whether an element of the destination of an interrupted vector instruction holds its new value, by the number of the
draw and the element (R117). -/
opaque wroteNew : Nat → Nat → Bool

/-- Whether an OTP bit reads back wrong after it was programmed, by its byte and its place in the byte (R318; log entry
105). -/
opaque fuseFails : Nat → Nat → Bool

/-- The key that the PUF gives with its helper data (R319). -/
opaque pufKey : List Byte → List Byte

/-- How many of its first two attempts a signature fails its self-check, by the number of the draw (R317). -/
opaque signFails : Nat → Nat

/-- Whether a certificate chain of a link's peer leads to the root and certifies its RSA modulus and SLH-DSA key: a check
of X.509, which the spec names and does not repeat (R266, R323). -/
opaque certifies : List Byte → List Byte → List Byte → Bool

/-- What a module holds when it is shipped: the root secret, the PUF helper data, the identity digest and the identity
cache, the images of copy A, the key update bodies of the authority slots, the two certificates, the digest of the Thallus
ROM, and the meter's parameters and image (R318, R321 to R323, R326, R336). -/
opaque shippedSecret : List Byte
opaque shippedHelper : List Byte
opaque shippedDigest : List Byte
opaque shippedCache : List Byte
opaque shippedImage : Nat → List Byte
opaque shippedRecord : Nat → List Byte
opaque shippedCert : Nat → List Byte
opaque romDigest : List Byte
opaque shippedParams : List Byte
opaque shippedMeterImage : List Byte

/-- The hash of the root certificate of the identity chain (R323). -/
opaque rootHash : List Byte

/-- The label of the block of a meter acknowledgement, which the spec does not name (R441). -/
opaque ackLabel : List Byte

/-- Molesque's PCI-SIG vendor identifier (R374). -/
opaque vendorId : BitVec 16

end Sys2Proof.Config
end

