-- ==== Sys2Proof/Machine/Crypto.lean ====
section
/-!
DEFINITION. The cryptographic functions that the spec names by their standards: SHA-384 (FIPS 180-4), HMAC and HKDF with
SHA-384 (RFC 2104, RFC 5869), AES-256 (FIPS 197), CMAC (SP 800-38B), XTS (IEEE 1619) and GCM (SP 800-38D), and the
check of an RSASSA-PKCS1-v1_5 signature with SHA-384. Byte strings are lists.
-/
namespace Sys2Proof.Machine

/-! SHA-384. -/

/-- The round constants of SHA-512. -/
def sha512K : List (BitVec 64) :=
  [0x428a2f98d728ae22#64, 0x7137449123ef65cd#64, 0xb5c0fbcfec4d3b2f#64, 0xe9b5dba58189dbbc#64,
   0x3956c25bf348b538#64, 0x59f111f1b605d019#64, 0x923f82a4af194f9b#64, 0xab1c5ed5da6d8118#64] ++
  [0xd807aa98a3030242#64, 0x12835b0145706fbe#64, 0x243185be4ee4b28c#64, 0x550c7dc3d5ffb4e2#64,
   0x72be5d74f27b896f#64, 0x80deb1fe3b1696b1#64, 0x9bdc06a725c71235#64, 0xc19bf174cf692694#64] ++
  [0xe49b69c19ef14ad2#64, 0xefbe4786384f25e3#64, 0x0fc19dc68b8cd5b5#64, 0x240ca1cc77ac9c65#64,
   0x2de92c6f592b0275#64, 0x4a7484aa6ea6e483#64, 0x5cb0a9dcbd41fbd4#64, 0x76f988da831153b5#64] ++
  [0x983e5152ee66dfab#64, 0xa831c66d2db43210#64, 0xb00327c898fb213f#64, 0xbf597fc7beef0ee4#64,
   0xc6e00bf33da88fc2#64, 0xd5a79147930aa725#64, 0x06ca6351e003826f#64, 0x142929670a0e6e70#64] ++
  [0x27b70a8546d22ffc#64, 0x2e1b21385c26c926#64, 0x4d2c6dfc5ac42aed#64, 0x53380d139d95b3df#64,
   0x650a73548baf63de#64, 0x766a0abb3c77b2a8#64, 0x81c2c92e47edaee6#64, 0x92722c851482353b#64] ++
  [0xa2bfe8a14cf10364#64, 0xa81a664bbc423001#64, 0xc24b8b70d0f89791#64, 0xc76c51a30654be30#64,
   0xd192e819d6ef5218#64, 0xd69906245565a910#64, 0xf40e35855771202a#64, 0x106aa07032bbd1b8#64] ++
  [0x19a4c116b8d2d0c8#64, 0x1e376c085141ab53#64, 0x2748774cdf8eeb99#64, 0x34b0bcb5e19b48a8#64,
   0x391c0cb3c5c95a63#64, 0x4ed8aa4ae3418acb#64, 0x5b9cca4f7763e373#64, 0x682e6ff3d6b2b8a3#64] ++
  [0x748f82ee5defb2fc#64, 0x78a5636f43172f60#64, 0x84c87814a1f0ab72#64, 0x8cc702081a6439ec#64,
   0x90befffa23631e28#64, 0xa4506cebde82bde9#64, 0xbef9a3f7b2c67915#64, 0xc67178f2e372532b#64] ++
  [0xca273eceea26619c#64, 0xd186b8c721c0c207#64, 0xeada7dd6cde0eb1e#64, 0xf57d4f7fee6ed178#64,
   0x06f067aa72176fba#64, 0x0a637dc5a2c898a6#64, 0x113f9804bef90dae#64, 0x1b710b35131c471b#64] ++
  [0x28db77f523047d84#64, 0x32caab7b40c72493#64, 0x3c9ebe0a15c9bebc#64, 0x431d67c49c100d4c#64,
   0x4cc5d4becb3e42b6#64, 0x597f299cfc657e2a#64, 0x5fcb6fab3ad6faec#64, 0x6c44198c4a475817#64]

/-- The initial hash value of SHA-384. -/
def sha384Init : List (BitVec 64) :=
  [0xcbbb9d5dc1059ed8#64, 0x629a292a367cd507#64, 0x9159015a3070dd17#64, 0x152fecd8f70e5939#64,
   0x67332667ffc00b31#64, 0x8eb44a8768581511#64, 0xdb0c2e0d64f98fa7#64, 0x47b5481dbefa4fa4#64]

/-- The message schedule word after the last sixteen, held newest first. -/
def shaNext (w : List (BitVec 64)) : BitVec 64 :=
  let w2 := w.getD 1 0
  let w7 := w.getD 6 0
  let w15 := w.getD 14 0
  let w16 := w.getD 15 0
  let s0 := w15.rotateRight 1 ^^^ w15.rotateRight 8 ^^^ (w15 >>> 7)
  let s1 := w2.rotateRight 19 ^^^ w2.rotateRight 61 ^^^ (w2 >>> 6)
  s1 + w7 + s0 + w16

/-- One round on the eight working variables. -/
def shaRound (h : List (BitVec 64)) (k w : BitVec 64) : List (BitVec 64) :=
  match h with
  | [a, b, c, d, e, f, g, h] =>
    let S1 := e.rotateRight 14 ^^^ e.rotateRight 18 ^^^ e.rotateRight 41
    let ch := (e &&& f) ^^^ (~~~e &&& g)
    let t1 := h + S1 + ch + k + w
    let S0 := a.rotateRight 28 ^^^ a.rotateRight 34 ^^^ a.rotateRight 39
    let maj := (a &&& b) ^^^ (a &&& c) ^^^ (b &&& c)
    [t1 + (S0 + maj), a, b, c, d + t1, e, f, g]
  | h => h

/-- The compression of one 128-byte block. -/
def shaBlock (h : List (BitVec 64)) (blk : List Byte) : List (BitVec 64) :=
  let w0 := (List.range 16).map (fun i => BitVec.ofNat 64 (beNat (slice blk (8 * i) 8)))
  let r := sha512K.zipIdx.foldl (fun (x : List (BitVec 64) × List (BitVec 64)) k =>
    if k.2 < 16 then (shaRound x.1 k.1 (w0.getD k.2 0), x.2)
    else
      let w := shaNext x.2
      (shaRound x.1 k.1 w, (w :: x.2).take 16)) (h, w0.reverse)
  List.zipWith (· + ·) h r.1

/-- All blocks of a padded message; `n` bounds their number. -/
def shaBlocks : Nat → List (BitVec 64) → List Byte → List (BitVec 64)
  | 0, h, _ => h
  | n + 1, h, m => shaBlocks n (shaBlock h (m.take 128)) (m.drop 128)

/-- SHA-384. -/
def sha384 (m : List Byte) : List Byte :=
  let n := m.length
  let padded := m ++ [0x80#8] ++ List.replicate ((239 - n % 128) % 128) 0#8 ++ beBytes 16 (8 * n)
  ((shaBlocks (padded.length / 128) sha384Init padded).take 6).flatMap (fun w => beBytes 8 w.toNat)

/-- HMAC-SHA-384. -/
def hmac384 (key m : List Byte) : List Byte :=
  let k0 := if 128 < key.length then sha384 key else key
  let k := k0 ++ List.replicate (128 - k0.length) 0#8
  sha384 (k.map (· ^^^ 0x5C#8) ++ sha384 (k.map (· ^^^ 0x36#8) ++ m))

/-- HKDF-Extract. -/
def hkdfExtract (salt ikm : List Byte) : List Byte := hmac384 salt ikm

/-- Blocks T(i), T(i + 1), … of HKDF-Expand. -/
def hkdfBlocks (prk info : List Byte) : Nat → Nat → List Byte → List Byte
  | 0, _, _ => []
  | n + 1, i, prev =>
    let t := hmac384 prk (prev ++ info ++ [BitVec.ofNat 8 i])
    t ++ hkdfBlocks prk info n (i + 1) t

/-- HKDF-Expand to `len` bytes. -/
def hkdfExpand (prk info : List Byte) (len : Nat) : List Byte := (hkdfBlocks prk info (ceilDiv len 48) 1 []).take len

/-- The bytes of an ASCII string. -/
def ascii (s : String) : List Byte := s.toList.map (fun c => BitVec.ofNat 8 c.toNat)

/-! AES-256. -/

/-- Multiplication by x in the field of AES. -/
def aesDouble (a : Nat) : Nat := if a < 128 then 2 * a else (2 * a) % 256 ^^^ 0x1B

/-- The product in the field of AES. -/
def aesMul (a b : Nat) : Nat :=
  ((List.range 8).foldl (fun (x : Nat × Nat) i => (if b.testBit i then x.1 ^^^ x.2 else x.1, aesDouble x.2)) (0, a)).1

/-- a^254, the inverse (0 for 0). -/
def aesInv (a : Nat) : Nat :=
  let a2 := aesMul a a
  let a3 := aesMul a2 a
  let a6 := aesMul a3 a3
  let a12 := aesMul a6 a6
  let a15 := aesMul a12 a3
  let a30 := aesMul a15 a15
  let a60 := aesMul a30 a30
  let a120 := aesMul a60 a60
  let a126 := aesMul a120 a6
  let a127 := aesMul a126 a
  aesMul a127 a127

/-- The S-box. -/
def aesSbox (a : Nat) : Nat :=
  let b := aesInv a
  let rot (k : Nat) : Nat := (b <<< k ||| b >>> (8 - k)) % 256
  b ^^^ rot 1 ^^^ rot 2 ^^^ rot 3 ^^^ rot 4 ^^^ 0x63

/-- The S-box as a table. -/
def aesTable : List Nat := (List.range 256).map aesSbox

def aesSub (t : List Nat) (a : Nat) : Nat := t.getD a 0

/-- The inverse S-box as a table. -/
def aesInvTable : List Nat :=
  let t := aesTable
  (List.range 256).map (fun y => (List.range 256).find? (fun x => t.getD x 0 == y) |>.getD 0)

/-- The key schedule of AES-256: 60 words of four bytes. -/
def aesSchedule (t : List Nat) (key : List Nat) : List (List Nat) :=
  let w0 := (List.range 8).map (fun i => (key.drop (4 * i)).take 4)
  ((List.range 52).foldl (fun (x : List (List Nat) × Nat) j =>
    let i := j + 8
    let prev := x.1.getD (i - 1) []
    let old := x.1.getD (i - 8) []
    let tmp :=
      if i % 8 = 0 then
        match prev with
        | [a, b, c, d] => [aesSub t b ^^^ x.2, aesSub t c, aesSub t d, aesSub t a]
        | p => p
      else if i % 8 = 4 then prev.map (aesSub t) else prev
    (x.1 ++ [List.zipWith (· ^^^ ·) old tmp], if i % 8 = 0 then aesDouble x.2 else x.2)) (w0, 1)).1

/-- The round keys of AES-256: fifteen of sixteen bytes. -/
def aesRoundKeys (key : List Byte) : List (List Nat) :=
  let ws := aesSchedule aesTable (key.map BitVec.toNat)
  (List.range 15).map (fun r => ((ws.drop (4 * r)).take 4).flatten)

def aesShift (s : List Nat) : List Nat := (List.range 16).map (fun i => s.getD ((i + 4 * (i % 4)) % 16) 0)
def aesUnshift (s : List Nat) : List Nat := (List.range 16).map (fun i => s.getD ((i + 16 - 4 * (i % 4)) % 16) 0)

def aesMixWith (c : List Nat) (s : List Nat) : List Nat :=
  (List.range 16).map (fun i =>
    let col := i / 4 * 4
    (List.range 4).foldl (fun a k => a ^^^ aesMul (s.getD (col + k) 0) (c.getD ((k + 4 - i % 4) % 4) 0)) 0)

/-- AES-256 of one block under expanded keys. -/
def aesEncryptWith (t : List Nat) (rks : List (List Nat)) (blk : List Byte) : List Byte :=
  let x0 := List.zipWith (· ^^^ ·) (blk.map BitVec.toNat) (rks.getD 0 [])
  let x := (List.range 13).foldl (fun s r =>
    List.zipWith (· ^^^ ·) (aesMixWith [2, 3, 1, 1] (aesShift (s.map (aesSub t)))) (rks.getD (r + 1) [])) x0
  (List.zipWith (· ^^^ ·) (aesShift (x.map (aesSub t))) (rks.getD 14 [])).map (BitVec.ofNat 8)

/-- AES-256 of one 16-byte block. -/
def aesEncrypt (key blk : List Byte) : List Byte := aesEncryptWith aesTable (aesRoundKeys key) blk

/-- The inverse cipher. -/
def aesDecrypt (key blk : List Byte) : List Byte :=
  let t := aesInvTable
  let rks := aesRoundKeys key
  let x0 := List.zipWith (· ^^^ ·) (blk.map BitVec.toNat) (rks.getD 14 [])
  let x := (List.range 13).foldl (fun s r =>
    aesMixWith [14, 11, 13, 9] (List.zipWith (· ^^^ ·) ((aesUnshift s).map (aesSub t)) (rks.getD (13 - r) []))) x0
  (List.zipWith (· ^^^ ·) ((aesUnshift x).map (aesSub t)) (rks.getD 0 [])).map (BitVec.ofNat 8)

/-- Two byte strings combined bit by bit, to the length of the shorter. -/
def xorBytes (a b : List Byte) : List Byte := List.zipWith (· ^^^ ·) a b

/-- Doubling of a big-endian block in GF(2^128) (CMAC). -/
def cmacDouble (b : List Byte) : List Byte :=
  let n := beNat b * 2
  beBytes 16 (if n < 2 ^ 128 then n else (n % 2 ^ 128) ^^^ 0x87)

/-- The message cut into blocks of 16 bytes; `n` bounds their number. -/
def blocks16 : Nat → List Byte → List (List Byte)
  | 0, _ => []
  | n + 1, m => if m.isEmpty then [] else m.take 16 :: blocks16 n (m.drop 16)

/-- AES-256-CMAC. -/
def cmac (key m : List Byte) : List Byte :=
  let t := aesTable
  let rks := aesRoundKeys key
  let k1 := cmacDouble (aesEncryptWith t rks (List.replicate 16 0#8))
  let k2 := cmacDouble k1
  let bs := blocks16 (m.length / 16 + 1) m
  let last := bs.getLast?.getD []
  let final := if last.length = 16 then xorBytes last k1
               else xorBytes (last ++ [0x80#8] ++ List.replicate (15 - last.length) 0#8) k2
  let x := bs.dropLast.foldl (fun x b => aesEncryptWith t rks (xorBytes x b)) (List.replicate 16 0#8)
  aesEncryptWith t rks (xorBytes x final)

/-- Doubling of a little-endian block in GF(2^128) (XTS). -/
def xtsDouble (b : List Byte) : List Byte :=
  let n := leNat b * 2
  leBytes 16 (if n < 2 ^ 128 then n else (n % 2 ^ 128) ^^^ 0x87)

/-- XTS-AES-256 encryption of whole blocks, with the tweak value as 16 bytes little-endian. -/
def xtsEncrypt (k1 k2 tweak m : List Byte) : List Byte :=
  let t := aesTable
  let rks := aesRoundKeys k1
  ((blocks16 (m.length / 16) m).foldl (fun (x : List Byte × List Byte) b =>
    (x.1 ++ xorBytes (aesEncryptWith t rks (xorBytes b x.2)) x.2, xtsDouble x.2)) ([], aesEncrypt k2 tweak)).1

/-- XTS-AES-256 decryption of whole blocks. -/
def xtsDecrypt (k1 k2 tweak m : List Byte) : List Byte :=
  ((blocks16 (m.length / 16) m).foldl (fun (x : List Byte × List Byte) b =>
    (x.1 ++ xorBytes (aesDecrypt k1 (xorBytes b x.2)) x.2, xtsDouble x.2)) ([], aesEncrypt k2 tweak)).1

/-- The product in the field of GCM, on blocks as big-endian numbers whose most significant bit comes first. -/
def ghashMul (x y : Nat) : Nat :=
  ((List.range 128).foldl (fun (a : Nat × Nat) i =>
    (if x.testBit (127 - i) then a.1 ^^^ a.2 else a.1,
     if a.2 % 2 = 1 then (a.2 / 2) ^^^ (0xE1 * 2 ^ 120) else a.2 / 2)) (0, y)).1

/-- GHASH of a string of whole blocks. -/
def ghash (h : Nat) (m : List Byte) : Nat :=
  (blocks16 (m.length / 16) m).foldl (fun y b => ghashMul (y ^^^ beNat b) h) 0

def padTo16 (m : List Byte) : List Byte := m ++ List.replicate ((16 - m.length % 16) % 16) 0#8

/-- The keystream of GCM from counter value `c` on. -/
def gcmStream (t : List Nat) (rks : List (List Nat)) (iv : List Byte) : Nat → Nat → List Byte
  | 0, _ => []
  | n + 1, c => aesEncryptWith t rks (iv ++ beBytes 4 c) ++ gcmStream t rks iv n (c + 1)

/-- AES-256-GCM with a 96-bit IV: the ciphertext and the 16-byte tag. -/
def gcmEncrypt (key iv aad m : List Byte) : List Byte × List Byte :=
  let t := aesTable
  let rks := aesRoundKeys key
  let h := beNat (aesEncryptWith t rks (List.replicate 16 0#8))
  let c := xorBytes m (gcmStream t rks iv (ceilDiv m.length 16) 2)
  let s := ghash h (padTo16 aad ++ padTo16 c ++ beBytes 8 (8 * aad.length) ++ beBytes 8 (8 * c.length))
  (c, xorBytes (beBytes 16 s) (aesEncryptWith t rks (iv ++ beBytes 4 1)))

/-- The opening of a GCM message: the plaintext, when the tag is right. -/
def gcmDecrypt (key iv aad c tag : List Byte) : Option (List Byte) :=
  let t := aesTable
  let rks := aesRoundKeys key
  let h := beNat (aesEncryptWith t rks (List.replicate 16 0#8))
  let s := ghash h (padTo16 aad ++ padTo16 c ++ beBytes 8 (8 * aad.length) ++ beBytes 8 (8 * c.length))
  if xorBytes (beBytes 16 s) (aesEncryptWith t rks (iv ++ beBytes 4 1)) = tag then
    some (xorBytes c (gcmStream t rks iv (ceilDiv c.length 16) 2))
  else none

/-! RSASSA-PKCS1-v1_5 with SHA-384. -/

/-- x^e mod n, over the `k` low bits of e. -/
def powMod (x n : Nat) : Nat → Nat → Nat
  | 0, _ => 1 % n
  | k + 1, e =>
    let r := powMod (x * x % n) n k (e / 2)
    if e % 2 = 1 then r * x % n else r

/-- The DigestInfo prefix of SHA-384. -/
def sha384DigestInfo : List Byte :=
  [0x30#8, 0x41#8, 0x30#8, 0x0D#8, 0x06#8, 0x09#8, 0x60#8, 0x86#8, 0x48#8, 0x01#8] ++
  [0x65#8, 0x03#8, 0x04#8, 0x02#8, 0x02#8, 0x05#8, 0x00#8, 0x04#8, 0x30#8]

/-- Whether a signature of `len` bytes over a message is right under modulus `n` and exponent 65,537. -/
def rsaVerify (len n : Nat) (msg sig : List Byte) : Bool :=
  let em := [0x00#8, 0x01#8] ++ List.replicate (len - 70) 0xFF#8 ++ [0x00#8] ++ sha384DigestInfo ++ sha384 msg
  sig.length == len && decide (beNat sig < n) && beBytes len (powMod (beNat sig) n 17 65537) == em

end Sys2Proof.Machine
end

