-- ==== Sys2Proof/Machine/RsaKey.lean ====
section
/-!
DEFINITION. RSA-3072 keys (FIPS 186-5, A.1.3) from an HMAC_DRBG with SHA-384 (SP 800-90A), and RSASSA-PKCS1-v1_5 signing
(13_trust_keys_attestation.md, R322, R324). What those standards leave to the implementer is PRESUMED (log entry 116).
-/
namespace Sys2Proof.Machine

/-! HMAC_DRBG. -/

structure HmacDrbg where
  key : List Byte
  v : List Byte

def HmacDrbg.update (d : HmacDrbg) (data : List Byte) : HmacDrbg :=
  let k := hmac384 d.key (d.v ++ [0x00#8] ++ data)
  let v := hmac384 k d.v
  if data = [] then { key := k, v := v }
  else
    let k2 := hmac384 k (v ++ [0x01#8] ++ data)
    { key := k2, v := hmac384 k2 v }

/-- Instantiation with a seed. -/
def HmacDrbg.init (seed : List Byte) : HmacDrbg :=
  ({ key := List.replicate 48 0x00#8, v := List.replicate 48 0x01#8 } : HmacDrbg).update seed

/-- `n` values of V in turn, joined. -/
def HmacDrbg.stream (key : List Byte) : Nat → List Byte → List Byte × List Byte
  | 0, v => ([], v)
  | n + 1, v =>
    let v1 := hmac384 key v
    let r := HmacDrbg.stream key n v1
    (v1 ++ r.1, r.2)

/-- A generate request of `n` bytes. -/
def HmacDrbg.generate (d : HmacDrbg) (n : Nat) : List Byte × HmacDrbg :=
  let r := HmacDrbg.stream d.key (ceilDiv n 48) d.v
  (r.1.take n, ({ key := d.key, v := r.2 } : HmacDrbg).update [])

/-! Probable primes (FIPS 186-5, B.3.1). -/

/-- The odd part of a positive number and the exponent of two; `n` bounds the exponent. -/
def oddPart : Nat → Nat → Nat × Nat
  | 0, m => (m, 0)
  | n + 1, m => if m % 2 = 0 then (let r := oddPart n (m / 2)
                                   (r.1, r.2 + 1)) else (m, 0)

/-- Whether squaring `z` reaches w − 1 within `n` further steps. -/
def reachesMinusOne (w : Nat) : Nat → Nat → Bool
  | 0, z => z == w - 1
  | n + 1, z => z == w - 1 || reachesMinusOne w n (z * z % w)

/-- One Miller-Rabin round with base `b`. -/
def millerRabin (w b : Nat) : Bool :=
  let m := oddPart 1536 (w - 1)
  let z := powMod b w 1536 m.1
  z == 1 || reachesMinusOne w (m.2 - 1) z

/-- A base in [2, w − 2]; `fuel` bounds the draws. -/
def drawBase (w : Nat) : Nat → HmacDrbg → Nat × HmacDrbg
  | 0, d => (2, d)
  | fuel + 1, d =>
    let r := d.generate 192
    let b := beNat r.1
    if 1 < b ∧ b < w - 1 then (b, r.2) else drawBase w fuel r.2

/-- `rounds` rounds of the test. -/
def probablePrime (w : Nat) : Nat → HmacDrbg → Bool × HmacDrbg
  | 0, d => (true, d)
  | rounds + 1, d =>
    let b := drawBase w 64 d
    if millerRabin w b.1 then probablePrime w rounds b.2 else (false, b.2)

/-! Keys. -/

/-- The public exponent (R322). -/
def rsaE : Nat := 65537

/-- A prime of 1,536 bits that keeps its distance from `p` (0 for the first); `fuel` bounds the candidates. -/
def rsaPrime (p : Nat) : Nat → HmacDrbg → Option (Nat × HmacDrbg)
  | 0, _ => none
  | fuel + 1, d =>
    let r := d.generate 192
    let q := beNat r.1 ||| 1
    if q * q < 2 ^ 3071 ∨ (p ≠ 0 ∧ (p - q) + (q - p) ≤ 2 ^ 1436) then rsaPrime p fuel r.2
    else if (q - 1) % rsaE = 0 then rsaPrime p fuel r.2
    else
      let t := probablePrime q 4 r.2
      if t.1 then some (q, t.2) else rsaPrime p fuel t.2

/-- The two primes of the key of a seed; 0 and 0 where the search fails. -/
def rsaPrimes (seed : List Byte) : Nat × Nat :=
  match rsaPrime 0 65536 (HmacDrbg.init seed) with
  | none => (0, 0)
  | some (p, d) => match rsaPrime p 65536 d with
    | none => (0, 0)
    | some (q, _) => (p, q)

/-- The modulus as 384 bytes. -/
def rsaModulus (pq : Nat × Nat) : List Byte := beBytes 384 (pq.1 * pq.2)

/-- The private exponent: the inverse of e modulo the least common multiple of p − 1 and q − 1. -/
def rsaPrivate (pq : Nat × Nat) : Nat :=
  let l := Nat.lcm (pq.1 - 1) (pq.2 - 1)
  (1 + l * ((rsaE - powMod l rsaE 17 (rsaE - 2)) % rsaE)) / rsaE

/-- The encoded message of RSASSA-PKCS1-v1_5 with SHA-384, of 384 bytes. -/
def rsaEncode (msg : List Byte) : List Byte :=
  [0x00#8, 0x01#8] ++ List.replicate 314 0xFF#8 ++ [0x00#8] ++ sha384DigestInfo ++ sha384 msg

/-- A signature under the key of two primes: 384 bytes. -/
def rsaSign (pq : Nat × Nat) (msg : List Byte) : List Byte :=
  beBytes 384 (powMod (beNat (rsaEncode msg)) (pq.1 * pq.2) 3072 (rsaPrivate pq))

end Sys2Proof.Machine
end

