-- ==== Sys2Proof/Machine/SlhDsa.lean ====
section
/-!
DEFINITION. SLH-DSA with SHA-2 (FIPS 205, pure mode, empty context string), for the parameter sets 192s, 192f and 128f
that the spec names (13_trust_keys_attestation.md, R322, R324; 17_power_and_metering.md, R432).
-/
namespace Sys2Proof.Machine

/-- A parameter set: n, h, d, h' = h/d, a, k, m; `big` says that H, T and the message hash use SHA-512. -/
structure SlhParams where
  n : Nat
  h : Nat
  d : Nat
  hp : Nat
  a : Nat
  k : Nat
  m : Nat
  big : Bool

def slh192s : SlhParams := { n := 24, h := 63, d := 7, hp := 9, a := 14, k := 17, m := 39, big := true }
def slh192f : SlhParams := { n := 24, h := 66, d := 22, hp := 3, a := 8, k := 33, m := 42, big := true }
def slh128f : SlhParams := { n := 16, h := 66, d := 22, hp := 3, a := 6, k := 33, m := 34, big := false }

/-- An address: its layer, tree, type and last three words. -/
structure SlhAdrs where
  layer : Nat := 0
  tree : Nat := 0
  type : Nat := 0
  w1 : Nat := 0
  w2 : Nat := 0
  w3 : Nat := 0

/-- The compressed form of an address. -/
def SlhAdrs.bytes (a : SlhAdrs) : List Byte :=
  beBytes 1 a.layer ++ beBytes 8 a.tree ++ beBytes 1 a.type ++ beBytes 4 a.w1 ++ beBytes 4 a.w2 ++ beBytes 4 a.w3

/-! The hash functions. -/

/-- F, and PRF, which has the same form. -/
def SlhParams.F (p : SlhParams) (pk : List Byte) (a : SlhAdrs) (m : List Byte) : List Byte :=
  (sha256 (pk ++ List.replicate (64 - p.n) 0#8 ++ a.bytes ++ m)).take p.n

/-- H and T. -/
def SlhParams.H (p : SlhParams) (pk : List Byte) (a : SlhAdrs) (m : List Byte) : List Byte :=
  if p.big then (sha512 (pk ++ List.replicate (128 - p.n) 0#8 ++ a.bytes ++ m)).take p.n else p.F pk a m

/-- The randomizer of a message. -/
def SlhParams.prfMsg (p : SlhParams) (skPrf opt m : List Byte) : List Byte :=
  (if p.big then hmacOf sha512 128 skPrf (opt ++ m) else hmacOf sha256 64 skPrf (opt ++ m)).take p.n

/-- The digest of a message. -/
def SlhParams.hMsg (p : SlhParams) (r seed root m : List Byte) : List Byte :=
  if p.big then mgf1 sha512 64 (r ++ seed ++ sha512 (r ++ seed ++ root ++ m)) p.m
  else mgf1 sha256 32 (r ++ seed ++ sha256 (r ++ seed ++ root ++ m)) p.m

/-- The first `count` digits of `b` bits of a byte string. -/
def baseDigits (x : List Byte) (b count : Nat) : List Nat :=
  let v := beNat x
  (List.range count).map (fun i => (v >>> (8 * x.length - b * (i + 1))) % 2 ^ b)

/-- Piece `i` of a concatenation of strings of `n` bytes. -/
def piece (n : Nat) (bs : List Byte) (i : Nat) : List Byte := slice bs (n * i) n

/-! WOTS+. -/

/-- Chains of a WOTS+ key: two per byte, and three of the checksum. -/
def SlhParams.len (p : SlhParams) : Nat := 2 * p.n + 3

/-- The digits of a message and of its checksum. -/
def SlhParams.wotsDigits (p : SlhParams) (m : List Byte) : List Nat :=
  let ds := baseDigits m 4 (2 * p.n)
  ds ++ baseDigits (beBytes 2 (16 * (ds.map (fun d => 15 - d)).sum)) 4 3

/-- A chain of `s` steps from step `i` on. -/
def SlhParams.chain (p : SlhParams) (pk : List Byte) (a : SlhAdrs) (x : List Byte) (i : Nat) : Nat → List Byte
  | 0 => x
  | s + 1 => p.F pk { a with w3 := i + s } (SlhParams.chain p pk a x i s)

/-- The secret of chain `i` of the key pair at an address. -/
def SlhParams.wotsSecret (p : SlhParams) (sk pk : List Byte) (a : SlhAdrs) (i : Nat) : List Byte :=
  p.F pk { a with type := 5, w2 := i, w3 := 0 } sk

/-- The public key of the key pair at an address. -/
def SlhParams.wotsPk (p : SlhParams) (sk pk : List Byte) (a : SlhAdrs) : List Byte :=
  p.H pk { a with type := 1, w2 := 0, w3 := 0 } ((List.range p.len).flatMap (fun i =>
    p.chain pk { a with type := 0, w2 := i } (p.wotsSecret sk pk a i) 0 15))

def SlhParams.wotsSign (p : SlhParams) (sk pk : List Byte) (a : SlhAdrs) (m : List Byte) : List Byte :=
  (p.wotsDigits m).zipIdx.flatMap (fun x =>
    p.chain pk { a with type := 0, w2 := x.2 } (p.wotsSecret sk pk a x.2) 0 x.1)

def SlhParams.wotsFromSig (p : SlhParams) (pk : List Byte) (a : SlhAdrs) (m sig : List Byte) : List Byte :=
  p.H pk { a with type := 1, w2 := 0, w3 := 0 } ((p.wotsDigits m).zipIdx.flatMap (fun x =>
    p.chain pk { a with type := 0, w2 := x.2 } (piece p.n sig x.2) x.1 (15 - x.1)))

/-! XMSS and the hypertree. -/

/-- Node `i` at height `z` of a tree. -/
def SlhParams.node (p : SlhParams) (sk pk : List Byte) (a : SlhAdrs) : Nat → Nat → List Byte
  | 0, i => p.wotsPk sk pk { a with w1 := i }
  | z + 1, i => p.H pk { a with type := 2, w1 := 0, w2 := z + 1, w3 := i }
      (SlhParams.node p sk pk a z (2 * i) ++ SlhParams.node p sk pk a z (2 * i + 1))

/-- The sibling of a node. -/
def sibling (i : Nat) : Nat := if i % 2 = 0 then i + 1 else i - 1

def SlhParams.xmssSign (p : SlhParams) (sk pk : List Byte) (a : SlhAdrs) (idx : Nat) (m : List Byte) : List Byte :=
  p.wotsSign sk pk { a with w1 := idx } m ++ (List.range p.hp).flatMap (fun j => p.node sk pk a j (sibling (idx / 2 ^ j)))

/-- The root above a node: `up` gives the address of the node at a height and place; `auth` the siblings. -/
def SlhParams.climb (p : SlhParams) (pk : List Byte) (up : Nat → Nat → SlhAdrs) (height idx : Nat) (leaf auth : List Byte) :
    List Byte :=
  (List.range height).foldl (fun x j =>
    let other := piece p.n auth j
    p.H pk (up (j + 1) (idx / 2 ^ (j + 1))) (if idx / 2 ^ j % 2 = 0 then x ++ other else other ++ x)) leaf

def SlhParams.xmssFromSig (p : SlhParams) (pk : List Byte) (a : SlhAdrs) (idx : Nat) (m sig : List Byte) : List Byte :=
  p.climb pk (fun z i => { a with type := 2, w1 := 0, w2 := z, w3 := i }) p.hp idx
    (p.wotsFromSig pk { a with w1 := idx } m (sig.take (p.n * p.len))) (sig.drop (p.n * p.len))

/-- Bytes of an XMSS signature. -/
def SlhParams.xmssLen (p : SlhParams) : Nat := p.n * (p.len + p.hp)

/-- The tree and leaf of layer `j`. -/
def SlhParams.place (p : SlhParams) (tree leaf j : Nat) : Nat × Nat :=
  (tree / 2 ^ (p.hp * j), if j = 0 then leaf else tree / 2 ^ (p.hp * (j - 1)) % 2 ^ p.hp)

/-- A hypertree signature: each layer signs the root of the one below. -/
def SlhParams.htSign (p : SlhParams) (sk pk : List Byte) (tree leaf : Nat) (m : List Byte) : List Byte :=
  ((List.range p.d).foldl (fun (x : List Byte × List Byte) j =>
    let at_ := p.place tree leaf j
    let a : SlhAdrs := { layer := j, tree := at_.1 }
    let sig := p.xmssSign sk pk a at_.2 x.2
    (x.1 ++ sig, p.xmssFromSig pk a at_.2 x.2 sig)) ([], m)).1

/-- The root of the hypertree that a signature gives. -/
def SlhParams.htFromSig (p : SlhParams) (pk : List Byte) (tree leaf : Nat) (m sig : List Byte) : List Byte :=
  (List.range p.d).foldl (fun x j =>
    let at_ := p.place tree leaf j
    p.xmssFromSig pk { layer := j, tree := at_.1 } at_.2 x (piece p.xmssLen sig j)) m

/-! FORS. -/

def SlhParams.forsSecret (p : SlhParams) (sk pk : List Byte) (a : SlhAdrs) (i : Nat) : List Byte :=
  p.F pk { a with type := 6, w2 := 0, w3 := i } sk

/-- The address of a FORS node. -/
def SlhAdrs.fors (a : SlhAdrs) (z i : Nat) : SlhAdrs := { a with type := 3, w2 := z, w3 := i }

def SlhParams.forsNode (p : SlhParams) (sk pk : List Byte) (a : SlhAdrs) : Nat → Nat → List Byte
  | 0, i => p.F pk (a.fors 0 i) (p.forsSecret sk pk a i)
  | z + 1, i => p.H pk (a.fors (z + 1) i)
      (SlhParams.forsNode p sk pk a z (2 * i) ++ SlhParams.forsNode p sk pk a z (2 * i + 1))

def SlhParams.forsSign (p : SlhParams) (sk pk : List Byte) (a : SlhAdrs) (md : List Byte) : List Byte :=
  (baseDigits md p.a p.k).zipIdx.flatMap (fun x =>
    p.forsSecret sk pk a (x.2 * 2 ^ p.a + x.1)
      ++ (List.range p.a).flatMap (fun j => p.forsNode sk pk a j (x.2 * 2 ^ (p.a - j) + sibling (x.1 / 2 ^ j))))

def SlhParams.forsFromSig (p : SlhParams) (pk : List Byte) (a : SlhAdrs) (md sig : List Byte) : List Byte :=
  p.H pk { a with type := 4, w2 := 0, w3 := 0 } ((baseDigits md p.a p.k).zipIdx.flatMap (fun x =>
    let s := piece (p.n * (p.a + 1)) sig x.2
    let i := x.2 * 2 ^ p.a + x.1
    p.climb pk a.fors p.a i (p.F pk (a.fors 0 i) (s.take p.n)) (s.drop p.n)))

/-! Keys, signatures and verification. -/

/-- The root of the hypertree for the seeds SK.seed and PK.seed. -/
def SlhParams.root (p : SlhParams) (sk pk : List Byte) : List Byte := p.node sk pk { layer := p.d - 1 } p.hp 0

/-- The public key of a triple of seeds: PK.seed and PK.root. -/
def SlhParams.publicKey (p : SlhParams) (seeds : List Byte) : List Byte :=
  slice seeds (2 * p.n) p.n ++ p.root (slice seeds 0 p.n) (slice seeds (2 * p.n) p.n)

/-- The FORS message, the tree and the leaf that a message digest selects. -/
def SlhParams.select (p : SlhParams) (digest : List Byte) : List Byte × Nat × Nat :=
  let m1 := ceilDiv (p.k * p.a) 8
  let m2 := ceilDiv (p.h - p.hp) 8
  (digest.take m1, beNat (slice digest m1 m2) % 2 ^ (p.h - p.hp), beNat (slice digest (m1 + m2) (ceilDiv p.hp 8)) % 2 ^ p.hp)

/-- A message of pure mode with an empty context string. -/
def pureMessage (m : List Byte) : List Byte := [0#8, 0#8] ++ m

/-- A signature under a triple of seeds; `opt` is opt_rand. -/
def SlhParams.sign (p : SlhParams) (seeds opt msg : List Byte) : List Byte :=
  let sk := slice seeds 0 p.n
  let pk := slice seeds (2 * p.n) p.n
  let m := pureMessage msg
  let r := p.prfMsg (slice seeds p.n p.n) opt m
  let x := p.select (p.hMsg r pk (p.root sk pk) m)
  let a : SlhAdrs := { tree := x.2.1, w1 := x.2.2 }
  let fors := p.forsSign sk pk a x.1
  r ++ fors ++ p.htSign sk pk x.2.1 x.2.2 (p.forsFromSig pk a x.1 fors)

/-- Bytes of a signature. -/
def SlhParams.sigLen (p : SlhParams) : Nat := p.n * (1 + p.k * (p.a + 1)) + p.d * p.xmssLen

/-- Whether a signature over a message verifies under a public key. -/
def SlhParams.verify (p : SlhParams) (pub msg sig : List Byte) : Bool :=
  let pk := slice pub 0 p.n
  let root := slice pub p.n p.n
  let x := p.select (p.hMsg (sig.take p.n) pk root (pureMessage msg))
  let a : SlhAdrs := { tree := x.2.1, w1 := x.2.2 }
  let forsLen := p.n * p.k * (p.a + 1)
  pub.length == 2 * p.n && sig.length == p.sigLen
    && p.htFromSig pk x.2.1 x.2.2 (p.forsFromSig pk a x.1 (slice sig p.n forsLen)) (sig.drop (p.n + forsLen)) == root

end Sys2Proof.Machine
end

