-- ==== Sys2Proof/Machine/Drbg.lean ====
section
/-!
DEFINITION. CTR_DRBG with AES-256 and a derivation function (SP 800-90A), and AES key wrap (RFC 3394)
(13_trust_keys_attestation.md, R315, R318).
-/
namespace Sys2Proof.Machine

/-! CTR_DRBG. -/

/-- The working state: key, V, and the generate requests served since the last seeding. -/
structure CtrDrbg where
  key : List Byte := []
  v : List Byte := []
  served : Nat := 0
  deriving DecidableEq, Repr

/-- The block cipher in chained mode from a zero block. -/
def bcc (key : List Byte) (m : List Byte) : List Byte :=
  (blocks16 (m.length / 16) m).foldl (fun x b => aesEncrypt key (xorBytes x b)) (List.replicate 16 0#8)

/-- The blocks that encrypt a block in turn, `n` of them. -/
def encryptRun (key : List Byte) : Nat → List Byte → List Byte
  | 0, _ => []
  | n + 1, x => aesEncrypt key x ++ encryptRun key n (aesEncrypt key x)

/-- The derivation function to 48 bytes. -/
def blockDf (input : List Byte) : List Byte :=
  let s := beBytes 4 input.length ++ beBytes 4 48 ++ input ++ [0x80#8]
  let padded := s ++ List.replicate ((16 - s.length % 16) % 16) 0#8
  let k0 := (List.range 32).map (BitVec.ofNat 8)
  let t := (List.range 3).flatMap (fun i => bcc k0 (beBytes 4 i ++ List.replicate 12 0#8 ++ padded))
  encryptRun (t.take 32) 3 (slice t 32 16)

/-- `n` blocks of keystream, V counted up before each. -/
def CtrDrbg.blocks (d : CtrDrbg) (n : Nat) : List Byte :=
  (List.range n).flatMap (fun i => aesEncrypt d.key (beBytes 16 (beNat d.v + i + 1)))

/-- V counted up by `n`. -/
def CtrDrbg.count (d : CtrDrbg) (n : Nat) : CtrDrbg := { d with v := beBytes 16 (beNat d.v + n) }

def CtrDrbg.update (d : CtrDrbg) (data : List Byte) : CtrDrbg :=
  let t := xorBytes (d.blocks 3) data
  { d with key := t.take 32, v := t.drop 32 }

/-- Instantiation with entropy and a nonce. -/
def CtrDrbg.init (entropy : List Byte) : CtrDrbg :=
  ({ key := List.replicate 32 0#8, v := List.replicate 16 0#8 } : CtrDrbg).update (blockDf entropy)

/-- A reseed. -/
def CtrDrbg.reseed (d : CtrDrbg) (entropy : List Byte) : CtrDrbg := { d.update (blockDf entropy) with served := 0 }

/-- A generate request of `n` bytes. -/
def CtrDrbg.generate (d : CtrDrbg) (n : Nat) : CtrDrbg × List Byte :=
  let k := ceilDiv n 16
  ({ (d.count k).update (List.replicate 48 0#8) with served := d.served + 1 }, (d.blocks k).take n)

/-! AES key wrap. -/

/-- The initial value. -/
def wrapIv : List Byte := List.replicate 8 0xA6#8

/-- One step of wrapping: register `i` of `n` (from 0) in pass `j`. -/
def wrapStep (key : List Byte) (n : Nat) (x : List Byte × List (List Byte)) (ji : Nat × Nat) : List Byte × List (List Byte) :=
  let b := aesEncrypt key (x.1 ++ x.2.getD ji.2 [])
  (xorBytes (b.take 8) (beBytes 8 (n * ji.1 + ji.2 + 1)), x.2.set ji.2 (b.drop 8))

def unwrapStep (key : List Byte) (n : Nat) (x : List Byte × List (List Byte)) (ji : Nat × Nat) : List Byte × List (List Byte) :=
  let b := aesDecrypt key (xorBytes x.1 (beBytes 8 (n * ji.1 + ji.2 + 1)) ++ x.2.getD ji.2 [])
  (b.take 8, x.2.set ji.2 (b.drop 8))

/-- The order of the steps for `n` registers: six passes. -/
def wrapOrder (n : Nat) : List (Nat × Nat) := (List.range 6).flatMap (fun j => (List.range n).map (fun i => (j, i)))

/-- A string of whole 8-byte blocks wrapped. -/
def keyWrap (key m : List Byte) : List Byte :=
  let n := m.length / 8
  let r := (wrapOrder n).foldl (wrapStep key n) (wrapIv, (List.range n).map (fun i => slice m (8 * i) 8))
  r.1 ++ r.2.flatten

/-- A wrapped string opened, if it is right. -/
def keyUnwrap (key c : List Byte) : Option (List Byte) :=
  let n := c.length / 8 - 1
  let r := (wrapOrder n).reverse.foldl (unwrapStep key n) (c.take 8, (List.range n).map (fun i => slice c (8 + 8 * i) 8))
  if r.1 = wrapIv then some r.2.flatten else none

end Sys2Proof.Machine
end

