-- ==== Sys2Proof/Machine/Map.lean ====
section
/-!
DEFINITION. Sparse plain-data maps in one canonical form (strictly rising keys, no entry equal to what an unlisted
key reads as), and the byte memories built from them. Register files, memories and tables of State are these.
-/
namespace Sys2Proof.Machine

/-- A sparse table: pairs of a key and a value, in the canonical form `SMap.wf`. -/
abbrev SMap (α : Type) := List (Nat × α)

/-- The value at key `k`; `d` is what an unlisted key reads as. -/
def SMap.get {α : Type} (d : α) : SMap α → Nat → α
  | [], _ => d
  | (j, w) :: m, k => if k = j then w else if k < j then d else SMap.get d m k

/-- The table with `v` at key `k`; a value equal to the default leaves no entry. -/
def SMap.set {α : Type} [DecidableEq α] (d : α) : SMap α → Nat → α → SMap α
  | [], k, v => if v = d then [] else [(k, v)]
  | (j, w) :: m, k, v =>
    if k < j then (if v = d then (j, w) :: m else (k, v) :: (j, w) :: m)
    else if k = j then (if v = d then m else (k, v) :: m)
    else (j, w) :: SMap.set d m k v

/-- Every key of the table is at least `b`, the keys rise strictly and no value is the default. -/
def SMap.wfFrom {α : Type} [DecidableEq α] (d : α) : Nat → SMap α → Bool
  | _, [] => true
  | b, (j, w) :: m => decide (b ≤ j) && decide (w ≠ d) && SMap.wfFrom d (j + 1) m

/-- The canonical form. -/
def SMap.wf {α : Type} [DecidableEq α] (d : α) (m : SMap α) : Bool := SMap.wfFrom d 0 m

/-- The entry at key `k` changed by `f`. -/
def SMap.modify {α : Type} [DecidableEq α] (d : α) (m : SMap α) (k : Nat) (f : α → α) : SMap α :=
  SMap.set d m k (f (SMap.get d m k))

/-- A byte memory: what no write has reached reads as 0 (log entry 2). -/
abbrev Mem := List Host.Cell

/-- One byte of a memory. -/
def Mem.byte (m : Mem) (a : Nat) : Byte := SMap.get 0#8 m a

/-- One byte written. -/
def Mem.putByte (m : Mem) (a : Nat) (b : Byte) : Mem := SMap.set 0#8 m a b

/-- The `n` bytes from `a`. -/
def Mem.read (m : Mem) (a : Nat) : Nat → List Byte
  | 0 => []
  | n + 1 => Mem.byte m a :: Mem.read m (a + 1) n

/-- A list of bytes written from `a` on. -/
def Mem.write (m : Mem) (a : Nat) : List Byte → Mem
  | [] => m
  | b :: bs => Mem.write (Mem.putByte m a b) (a + 1) bs

/-- The `n`-byte little-endian number at `a`. -/
def Mem.readLe (m : Mem) (a n : Nat) : Nat := leNat (Mem.read m a n)

/-- An `n`-byte little-endian number written at `a`. -/
def Mem.writeLe (m : Mem) (a n v : Nat) : Mem := Mem.write m a (leBytes n v)

/-- Every byte of `[lo, lo + n)` cleared. -/
def Mem.clear (m : Mem) (lo n : Nat) : Mem := m.filter (fun c => decide (c.1 < lo) || decide (lo + n ≤ c.1))

/-- The canonical form of a byte memory. -/
def Mem.wf (m : Mem) : Bool := SMap.wf 0#8 m

/-- A list read with a default past its end. -/
def nth {α : Type} (d : α) (l : List α) (i : Nat) : α := l.getD i d

/-- A list with its element `i` changed by `f` (unchanged where there is none). -/
def upd {α : Type} (l : List α) (i : Nat) (f : α → α) : List α := l.modify i f

end Sys2Proof.Machine
end

