-- ==== Sys2Proof/Machine/Num.lean ====
section
/-!
DEFINITION. Number formats, conversion, rounding, block scales, the random-bit generator and W96 words
(02_number_formats.md, R29 to R57; 03 R66).
-/
namespace Sys2Proof.Machine

/-- The element formats of R29, in the order of their codes. -/
inductive Fmt where
  | fp32 | bf16 | fp16 | fp64 | e4m3 | e5m2 | e3m2 | e2m3 | e2m1 | int8 | bx16 | w96 | slice
  deriving DecidableEq, Repr

/-- The format a 4-bit code names; the codes 0xD to 0xF are reserved (R29). -/
def Fmt.ofCode (c : Nat) : Option Fmt :=
  [Fmt.fp32, .bf16, .fp16, .fp64, .e4m3, .e5m2, .e3m2, .e2m3, .e2m1, .int8, .bx16, .w96, .slice][c]?

/-- The code of a format (R29). -/
def Fmt.code : Fmt → Nat
  | .fp32 => 0 | .bf16 => 1 | .fp16 => 2 | .fp64 => 3 | .e4m3 => 4 | .e5m2 => 5 | .e3m2 => 6 | .e2m3 => 7
  | .e2m1 => 8 | .int8 => 9 | .bx16 => 10 | .w96 => 11 | .slice => 12

/-- Element width in bits (R29). -/
def Fmt.width : Fmt → Nat
  | .fp32 => 32 | .bf16 => 16 | .fp16 => 16 | .fp64 => 64 | .e4m3 => 8 | .e5m2 => 8 | .e3m2 => 6 | .e2m3 => 6
  | .e2m1 => 4 | .int8 => 8 | .bx16 => 16 | .w96 => 96 | .slice => 8

/-- The formats with a 32-element block and an E8M0 scale (R29). -/
def Fmt.isBlock : Fmt → Bool
  | .e4m3 | .e5m2 | .e3m2 | .e2m3 | .e2m1 | .int8 | .bx16 => true
  | _ => false

/-- The plain floating-point formats (R29, codes 0x0 to 0x3). -/
def Fmt.isPlain : Fmt → Bool
  | .fp32 | .bf16 | .fp16 | .fp64 => true
  | _ => false

/-- Bytes of a 32-element block (R34, and 64 B or 32 B for BF16, FP16 and slice operands, R71). -/
def Fmt.blockBytes (f : Fmt) : Nat := f.width * 4

/-- Mantissa bits of a floating format (R30). -/
def Fmt.mant : Fmt → Nat
  | .fp32 => 23 | .bf16 => 7 | .fp16 => 10 | .fp64 => 52 | .e4m3 => 3 | .e5m2 => 2 | .e3m2 => 2 | .e2m3 => 3
  | .e2m1 => 1 | _ => 0

/-- Exponent bias of a floating format (R30). -/
def Fmt.bias : Fmt → Nat
  | .fp32 => 127 | .bf16 => 127 | .fp16 => 15 | .fp64 => 1023 | .e4m3 => 7 | .e5m2 => 15 | .e3m2 => 3
  | .e2m3 => 1 | .e2m1 => 1 | _ => 0

/-- The code of the largest finite magnitude (R30, R31). -/
def Fmt.maxCode : Fmt → Nat
  | .fp32 => 0x7F7FFFFF | .bf16 => 0x7F7F | .fp16 => 0x7BFF | .fp64 => 0x7FEFFFFFFFFFFFFF | .e4m3 => 0x7E
  | .e5m2 => 0x7B | .e3m2 => 0x1F | .e2m3 => 0x1F | .e2m1 => 0x7 | .int8 => 0x7F | .bx16 => 0x7FFF | _ => 0

/-- The code of +infinity, where the format has one (R30). -/
def Fmt.infCode : Fmt → Option Nat
  | .fp32 => some 0x7F800000 | .bf16 => some 0x7F80 | .fp16 => some 0x7C00 | .fp64 => some 0x7FF0000000000000
  | .e5m2 => some 0x7C | _ => none

/-- The canonical NaN, where the format has one (R32). -/
def Fmt.nanCode : Fmt → Option Nat
  | .fp32 => some 0x7FC00000 | .bf16 => some 0x7FC0 | .fp16 => some 0x7E00 | .fp64 => some 0x7FF8000000000000
  | .e4m3 => some 0x7F | .e5m2 => some 0x7E | _ => none

/-- The integer formats with an implicit fixed point, with the number of fraction bits (R31; a slice has none). -/
def Fmt.fixed : Fmt → Option Nat
  | .int8 => some 6 | .bx16 => some 14 | .slice => some 0 | _ => none

/-- The exact value of an element. -/
inductive Val where
  | nan
  | inf (neg : Bool)
  | fin (neg : Bool) (m : Nat) (e : Int)     -- (-1)^neg × m × 2^e
  deriving DecidableEq, Repr

/-- The exact result of an operation before its one conversion: a NaN (`made`: from sources that are not NaN), an
infinity, or a magnitude x with m·2^e ≤ x < (m + 1)·2^e, equal to m·2^e exactly when `sticky` is false. -/
inductive Res where
  | nan (made : Bool)
  | inf (neg : Bool)
  | fin (neg : Bool) (m : Nat) (e : Int) (sticky : Bool)
  deriving DecidableEq, Repr

/-- A value as the result of an operation that moves it. -/
def Val.res : Val → Res
  | .nan => .nan false
  | .inf n => .inf n
  | .fin n m e => .fin n m e false

/-- Whether a value is NaN. -/
def Val.isNan : Val → Bool
  | .nan => true
  | _ => false

/-- Whether a value is NaN or infinite. -/
def Val.nonFinite : Val → Bool
  | .fin _ _ _ => false
  | _ => true

/-- The value times 2^k. -/
def Val.scale (v : Val) (k : Int) : Val :=
  match v with
  | .fin n m e => .fin n m (e + k)
  | v => v

/-- A finite value as an integer times 2^e, with a zero of either sign as 0. -/
def Val.asInt (v : Val) : Int × Int :=
  match v with
  | .fin n m e => (if n then -(m : Int) else (m : Int), e)
  | _ => (0, 0)

/-- The value `i × 2^e`. -/
def Val.ofInt (i : Int) (e : Int) : Val := .fin (decide (i < 0)) i.natAbs e

/-- The value of an element code (R30, R31, R33 without the scale). -/
def decodeElem (f : Fmt) (c : Nat) : Val :=
  match f.fixed with
  | some fr =>
    let i := signed f.width c
    .fin (decide (i < 0)) i.natAbs (-(fr : Int))
  | none =>
    let neg := c.testBit (f.width - 1)
    let mag := c % 2 ^ (f.width - 1)
    let ef := mag >>> f.mant
    let mf := mag % 2 ^ f.mant
    let topE := 2 ^ (f.width - 1 - f.mant) - 1
    let special : Bool := match f with
      | .e4m3 => mag == 0x7F
      | .e5m2 | .fp32 | .bf16 | .fp16 | .fp64 => ef == topE
      | _ => false
    if special then
      (if f == .e4m3 || mf != 0 then .nan else .inf neg)
    else if ef = 0 then .fin neg mf (1 - (f.bias : Int) - f.mant)
    else .fin neg (mf + 2 ^ f.mant) ((ef : Int) - f.bias - f.mant)

/-- floor(log2 n) of a positive number. -/
def log2 (n : Nat) : Nat := Nat.log2 n

/-- Comparison of m1·2^e1 with m2·2^e2. -/
def cmpMag (m1 : Nat) (e1 : Int) (m2 : Nat) (e2 : Int) : Ordering :=
  if m1 = 0 then (if m2 = 0 then .eq else .lt)
  else if m2 = 0 then .gt
  else
    let t1 := (log2 m1 : Int) + e1
    let t2 := (log2 m2 : Int) + e2
    if t1 < t2 then .lt
    else if t2 < t1 then .gt
    else if e1 ≤ e2 then compare m1 (m2 <<< (e2 - e1).toNat)
    else compare (m1 <<< (e1 - e2).toNat) m2

/-- Comparison of two finite values as numbers, so that +0 and −0 are equal. -/
def cmpFin (n1 : Bool) (m1 : Nat) (e1 : Int) (n2 : Bool) (m2 : Nat) (e2 : Int) : Ordering :=
  match (n1 && m1 != 0), (n2 && m2 != 0) with
  | false, false => cmpMag m1 e1 m2 e2
  | true, true => cmpMag m2 e2 m1 e1
  | true, false => .lt
  | false, true => .gt

/-- Comparison of two values that are not NaN. -/
def Val.cmp : Val → Val → Ordering
  | .inf a, .inf b => if a = b then .eq else if a then .lt else .gt
  | .inf a, _ => if a then .lt else .gt
  | _, .inf b => if b then .gt else .lt
  | .fin n1 m1 e1, .fin n2 m2 e2 => cmpFin n1 m1 e1 n2 m2 e2
  | _, _ => .eq

/-- The random-bit generator (R48). Its bits are a function of seed, stream and index alone, so that a recomputation rounds as
the original did (R186). -/
def generate (seed : BitVec 64) (stream : BitVec 32) (index : Nat) : BitVec 32 :=
  let lo := BitVec.ofNat 32 index
  let hi := BitVec.ofNat 32 (index >>> 32 % 2 ^ 16)
  let quarter (x : BitVec 32 × BitVec 32 × BitVec 32 × BitVec 32) :=
    let (x0, x1, x2, x3) := x
    let x0 := x0 + x1
    let x3 := (x3 ^^^ x0).rotateLeft 16
    let x2 := x2 + x3
    let x1 := (x1 ^^^ x2).rotateLeft 12
    let x0 := x0 + x1
    let x3 := (x3 ^^^ x0).rotateLeft 8
    let x2 := x2 + x3
    let x1 := (x1 ^^^ x2).rotateLeft 7
    (x0, x1, x2, x3)
  let x0 := seed.truncate 32 ^^^ 0x6D6F7373#32
  let x1 := (seed >>> 32).truncate 32 ^^^ 0x6665726E#32
  let x2 := stream ^^^ 0x6C696368#32
  let x3 := lo ^^^ 0x7468616C#32
  let (x0, x1, x2, x3) := quarter (x0, x1, x2, x3)
  let x0 := x0 + 0x9E3779B9#32
  let x2 := x2 + hi
  let (x0, x1, x2, x3) := quarter (x0, x1, x2, x3)
  let x0 := x0 + 0x3C6EF372#32
  x0 ^^^ x1 ^^^ x2 ^^^ x3

/-- A rounding mode: to nearest even (R45), or stochastic under a step seed and a stream (R46, R47), with the
eight-bit decision of the KT512 where Prothallus mode is on. -/
inductive Rnd where
  | rne
  | stoch (seed : BitVec 64) (stream : BitVec 32) (kt512 : Bool)
  deriving DecidableEq, Repr

/-- Whether a magnitude with `rem / 2^w` (and `sticky`) left below its lower neighbour rounds to the upper one.
`odd` is the last bit of the lower neighbour (R45, R46). -/
def roundsUp (r : Rnd) (index : Nat) (rem w : Nat) (sticky odd : Bool) : Bool :=
  match r with
  | .rne =>
    let twice := 2 * rem
    let one := 2 ^ w
    decide (one < twice) || (decide (twice = one) && (sticky || odd))
  | .stoch seed stream kt512 =>
    let g := (generate seed stream index).toNat
    if kt512 then decide (2 ^ 8 ≤ (rem <<< 8) >>> w + g >>> 24)
    else decide (2 ^ 16 ≤ (rem <<< 16) >>> w + g >>> 16)

/-- How an element is counted (R54, R55). -/
inductive Kind where
  | exact
  | nan (made : Bool)
  /-- counted as NaN although the format keeps the infinity (R42, R43), so that no NaN event applies -/
  | nanKept
  | saturated
  | flushed
  | inexact
  deriving DecidableEq, Repr

/-- The sign bit applied to the code of a magnitude: two's complement in the integer formats, whose zero has no sign
(R31). -/
def Fmt.withSign (f : Fmt) (neg : Bool) (c : Nat) : Nat :=
  match f.fixed with
  | some _ => if neg then ofSigned f.width (-(c : Int)) else c
  | none => if neg then c + 2 ^ (f.width - 1) else c

/-- The code of the magnitude n·2^g on the grid of the format. -/
def Fmt.magCode (f : Fmt) (n : Nat) (g : Int) : Nat :=
  match f.fixed with
  | some _ => n
  | none => if n < 2 ^ f.mant then n else ((g + f.mant + f.bias).toNat <<< f.mant) + (n - 2 ^ f.mant)

/-- The grid exponent at a magnitude whose floor(log2) is `E`. -/
def Fmt.grid (f : Fmt) (E : Int) : Int :=
  match f.fixed with
  | some fr => -(fr : Int)
  | none => max E (1 - (f.bias : Int)) - f.mant

/-- The smallest non-zero magnitude is 2 to this power (R30, R31). -/
def Fmt.minExp (f : Fmt) : Int :=
  match f.fixed with
  | some fr => -(fr : Int)
  | none => 1 - (f.bias : Int) - f.mant

/-- Conversion of one exact result into a format (R38 to R40), with how the element is counted. `ovfInf` is the
overflow-to-infinity of E5M2 (step 4). -/
def convert (f : Fmt) (ovfInf : Bool) (r : Rnd) (index : Nat) (x : Res) : Nat × Kind :=
  match x with
  | .nan made => (f.nanCode.getD 0, .nan made)
  | .inf neg =>
    match f.infCode with
    | some c => (f.withSign neg c, .exact)
    | none => (f.nanCode.getD 0, .nan true)
  | .fin neg m e sticky =>
    if m = 0 ∧ sticky = false then (f.withSign neg 0, .exact)
    else
      match decodeElem f f.maxCode with
      | .fin _ mm me =>
        let c := cmpMag m e mm me
        if c = .gt ∨ (c = .eq ∧ sticky = true) then
          (f.withSign neg (if f == .e5m2 && ovfInf then 0x7C else f.maxCode), .saturated)
        else if cmpMag m e 1 f.minExp = .lt then (f.withSign neg 0, .flushed)
        else
          let g := f.grid ((log2 m : Int) + e)
          if g ≤ e then (f.withSign neg (f.magCode (m <<< (e - g).toNat) g), if sticky then .inexact else .exact)
          else
            let w := (g - e).toNat
            let lo := m >>> w
            let rem := m % 2 ^ w
            if rem = 0 ∧ sticky = false then (f.withSign neg (f.magCode lo g), .exact)
            else
              let up := roundsUp r index rem w sticky (lo % 2 == 1)
              (f.withSign neg (f.magCode (if up then lo + 1 else lo) g), .inexact)
      | _ => (0, .exact)

/-- The five counts of R54 and the numeric events met on the way, each with its two arguments, first occurrence
first (R57). -/
structure Tally where
  nan : Nat := 0
  saturated : Nat := 0
  flushed : Nat := 0
  inexact : Nat := 0
  zero : Nat := 0
  events : List (Nat × Nat × Nat) := []
  /-- what was counted, newest first: the count's place in R54, the format code and the index -/
  marks : List (Nat × Nat × Nat) := []
  deriving DecidableEq, Repr

/-- No count and no event. -/
def Tally.none : Tally := {}

/-- The tally with an event, unless it already holds one of that code (R57). -/
def Tally.event (t : Tally) (code fmt index : Nat) : Tally :=
  if t.events.any (fun e => e.1 == code) then t
  else { t with events := t.events ++ [(code, fmt, index % 2 ^ 32)] }

/-- The count at place `i` of R54. -/
def Tally.get (t : Tally) (i : Nat) : Nat :=
  match i with
  | 0 => t.nan | 1 => t.saturated | 2 => t.flushed | 3 => t.inexact | _ => t.zero

/-- One more in the count at place `i`, for an element of format code `fmt` with an index. -/
def Tally.add1 (t : Tally) (i fmt index : Nat) : Tally :=
  let t := { t with marks := (i, fmt, index) :: t.marks }
  match i with
  | 0 => { t with nan := t.nan + 1 }
  | 1 => { t with saturated := t.saturated + 1 }
  | 2 => { t with flushed := t.flushed + 1 }
  | 3 => { t with inexact := t.inexact + 1 }
  | _ => { t with zero := t.zero + 1 }

/-- The tally after one more element (R55, R57). -/
def Tally.count (t : Tally) (k : Kind) (fmt index : Nat) : Tally :=
  match k with
  | .exact => t
  | .nan made => (t.add1 0 fmt index).event (if made then 0x1001 else 0x1003) fmt index
  | .nanKept => t.add1 0 fmt index
  | .saturated => t.add1 1 fmt index
  | .flushed => t.add1 2 fmt index
  | .inexact => t.add1 3 fmt index

/-- The counts of two tallies together, with the events of the first. -/
def Tally.plus (a b : Tally) : Tally :=
  { a with nan := a.nan + b.nan, saturated := a.saturated + b.saturated, flushed := a.flushed + b.flushed,
           inexact := a.inexact + b.inexact, zero := a.zero + b.zero, marks := b.marks ++ a.marks }

/-- Two tallies one after the other. -/
def Tally.join (a b : Tally) : Tally := b.events.foldl (fun t e => t.event e.1 e.2.1 e.2.2) (a.plus b)

/-- A 32-bit count that does not wrap (R54). -/
def sat32 (n : Nat) : Nat := min n 0xFFFFFFFF

/-- The counts as they are kept: capped (R54), without the marks. -/
def Tally.capped (t : Tally) : Tally :=
  { t with nan := sat32 t.nan, saturated := sat32 t.saturated, flushed := sat32 t.flushed, inexact := sat32 t.inexact,
           zero := sat32 t.zero, marks := [] }

/-- The first element of `t` whose count reaches the cap when the counts stood at `base` before. -/
def Tally.capMark (base t : Tally) : Option (Nat × Nat) :=
  (t.marks.foldr (fun m (r : Tally × Option (Nat × Nat)) =>
    let b := r.1.add1 m.1 0 0
    (b, r.2 <|> if b.get m.1 = 0xFFFFFFFF then some m.2 else .none)) (base.capped, .none)).2

/-- The tally with 0x1004 where a count reaches the cap from the counts `base` (R57). -/
def Tally.withCap (base t : Tally) : Tally :=
  match base.capMark t with
  | some x => t.event 0x1004 x.1 x.2
  | .none => t

/-- The scale rule of R44. -/
inductive ScaleRule where
  | fit
  | ocp
  deriving DecidableEq, Repr

/-- The exponent emax of R44. -/
def Fmt.emax : Fmt → Int
  | .e4m3 => 8 | .e5m2 => 15 | .e3m2 => 4 | .e2m3 => 2 | .e2m1 => 2 | _ => 0

/-- The largest absolute value among the finite elements, as m·2^e (R42). -/
def maxAbs (vs : List Val) : Nat × Int :=
  vs.foldl (fun a v => match v with
    | .fin _ m e => if cmpMag a.1 a.2 m e = .lt then (m, e) else a
    | _ => a) (0, 0)

/-- A scale code from the largest absolute value a > 0 of a block, with whether it was clamped (R44). -/
def scaleOf (f : Fmt) (rule : ScaleRule) (m : Nat) (e : Int) : Nat × Bool :=
  let E := (log2 m : Int) + e
  -- m·2^e / 2^E compared with mmax, that is with the largest magnitude over 2^emax
  let exceeds : Bool := match decodeElem f f.maxCode with
    | .fin _ mm me => cmpMag m (e - E) mm (me - f.emax) == .gt
    | _ => false
  let s := E - f.emax + (if rule == .fit && exceeds then 1 else 0) + 127
  if s < 0 then (0, true) else if 254 < s then (254, true) else (s.toNat, false)

/-- One block written in a block format: its scale code, its 32 element codes, how each is counted, and the tally. -/
structure Block where
  scale : Nat
  elems : List Nat
  kinds : List Kind
  tally : Tally
  deriving DecidableEq, Repr

/-- A block from its element codes, each with how it is counted and its index. -/
def Block.of (f : Fmt) (scale : Nat) (cs : List ((Nat × Kind) × Nat)) : Block :=
  { scale := scale, elems := cs.map (fun c => c.1.1), kinds := cs.map (fun c => c.1.2),
    tally := cs.foldl (fun t c => t.count c.1.2 f.code c.2) {} }

/-- Every element of a block counted as NaN and written as 0 under the scale 0xFF (R40). A NaN raises 0x1003, and an
element that was not NaN raises 0x1001 (R57). -/
def nanBlock (f : Fmt) (xs : List (Val × Nat)) : Block := Block.of f 0xFF (xs.map (fun x => ((0, .nan (!x.1.isNan)), x.2)))

/-- How a non-finite element of a block without `a`, or of a zero block, is counted (R40, R42, R43). -/
def Fmt.lostKind (f : Fmt) (v : Val) : Kind := if v.isNan then .nan false else if f.infCode.isSome then .nanKept else .nan true

/-- The elements of a block converted under a given scale code (R38, R44). -/
def convertBlock (f : Fmt) (ovfInf : Bool) (r : Rnd) (code : Nat) (xs : List (Val × Nat)) : Block :=
  if f.nanCode = none ∧ xs.any (fun x => x.1.nonFinite) then nanBlock f xs
  else Block.of f code (xs.map (fun x => (convert f ovfInf r x.2 (x.1.scale (127 - (code : Int))).res, x.2)))

/-- A block written with a scale computed from its data (R40, R42, R43, R44). Each element comes with its index. -/
def quantizeBlock (f : Fmt) (rule : ScaleRule) (ovfInf : Bool) (r : Rnd) (xs : List (Val × Nat)) : Block :=
  if f.nanCode = none ∧ xs.any (fun x => x.1.nonFinite) then nanBlock f xs
  else if xs.all (fun x => x.1.nonFinite) then
    -- no finite element (R42): the scale is 1, every element counted as NaN
    Block.of f 0x7F (xs.map (fun x =>
      (((convert f ovfInf r x.2 x.1.res).1, f.lostKind x.1), x.2)))
  else
    let a := maxAbs (xs.map Prod.fst)
    if a.1 = 0 then
      -- a zero block (R43): finite elements are written as positive zero and are not counted
      let b := Block.of f 0 (xs.map (fun x => match x.1 with
        | .fin _ _ _ => ((0, Kind.exact), x.2)
        | v => (((convert f ovfInf r x.2 v.res).1, f.lostKind v), x.2)))
      { b with tally := b.tally.add1 4 f.code ((xs.head?.map Prod.snd).getD 0) }
    else
      let (code, clamped) := scaleOf f rule a.1 a.2
      let b := convertBlock f ovfInf r code xs
      if clamped then { b with tally := b.tally.event 0x1006 f.code ((xs.head?.map Prod.snd).getD 0) } else b

/-- The value of element code `c` of a block with scale code `s` (R33). -/
def decodeScaled (f : Fmt) (s c : Nat) : Val :=
  if s = 0xFF then .nan else (decodeElem f c).scale ((s : Int) - 127)

/-- Element codes packed without gaps, little-endian, `w` bits each (R34). -/
def packElems (w : Nat) (cs : List Nat) : Nat := cs.foldr (fun c acc => c % 2 ^ w + acc <<< w) 0

/-- Element `i` of a packed block (R34). -/
def unpackElem (w n i : Nat) : Nat := (n >>> (w * i)) % 2 ^ w

/-- The 64 bytes of a scale line: up to 60 scale codes, the tag and the first field (R51). -/
def scaleLine (scales : List Nat) (tag first : Nat) : List Byte :=
  (List.range 60).map (fun j => BitVec.ofNat 8 (nth 0 scales j)) ++ leBytes 2 tag ++ leBytes 2 first

/-- The comparison of R53: the line's tag and first fields against the expected tag and the index of the first block
it must serve. A tag of 0 never passes (R52). -/
def scaleLineOk (line : List Byte) (tag firstBlock : Nat) : Bool :=
  let t := leNat (slice line 60 2)
  t == tag % 2 ^ 16 && t != 0 && leNat (slice line 62 2) == 60 * (firstBlock / 60) % 65536

/-! W96 words (R36, R37, R66). -/

/-- A word of the accumulator file. -/
abbrev W96 := BitVec 96

/-- The exponent field. -/
def W96.exp (w : W96) : Nat := w.toNat >>> 80

/-- The significand field as a two's-complement integer. -/
def W96.sig (w : W96) : Int := signed 80 w.toNat

/-- A word that the device does not produce: exponent 0 with a non-zero significand, read as zero and counted as flushed
(R36). -/
def W96.denormal (w : W96) : Bool := W96.exp w == 0 && W96.sig w != 0

/-- The word with a given exponent and significand. -/
def W96.mk (exp : Nat) (sig : Int) : W96 := BitVec.ofNat 96 (exp * 2 ^ 80 + ofSigned 80 sig)

/-- The canonical NaN word (R36). -/
def W96.nan : W96 := W96.mk 0xFFFF 0

/-- Whether a word is NaN (R36). -/
def W96.isNan (w : W96) : Bool := W96.exp w == 0xFFFF

/-- The exact value of a word; exponent 0 with a non-zero significand is taken as zero (R36). -/
def W96.val (w : W96) : Val :=
  if W96.exp w = 0xFFFF then .nan
  else if W96.exp w = 0 ∨ W96.sig w = 0 then .fin false 0 0
  else Val.ofInt (W96.sig w) ((W96.exp w : Int) - 32846)

/-- What an addition into a W96 element did. -/
structure W96Add where
  word : W96
  /-- the element's inexact flag was set by this addition (R67) -/
  lost : Bool := false
  /-- the element became NaN from a word and an addend that were not NaN, or from an infinite factor -/
  nanMade : Bool := false
  /-- the result left the exponent range (R37, 0x1005) -/
  range : Bool := false
  /-- the result was flushed to zero (R37) -/
  flushed : Bool := false
  deriving DecidableEq, Repr

/-- The number of bits of `n`. -/
def bitLen (n : Nat) : Nat := if n = 0 then 0 else log2 n + 1

/-- How far the 80-bit window must move up to hold `v` (the loop of R66 in closed form). -/
def windowShift (v : Int) : Nat := if v < 0 then bitLen (v.natAbs - 1) - 79 else bitLen v.natAbs - 79

/-- The word for `v × 2^u` after the window rule of R66 and the range rule of R37. -/
def w96Fit (v : Int) (u : Int) : W96Add :=
  if v = 0 then { word := 0#96 }
  else
    let k := windowShift v
    let sig := v / (2 ^ k : Nat)
    let lost := sig * (2 ^ k : Nat) != v
    let e := u + k + 32846
    if 0xFFFE < e then { word := W96.nan, lost := lost, nanMade := true, range := true }
    else if e < 1 then { word := 0#96, lost := lost, range := true, flushed := true }
    else { word := W96.mk e.toNat sig, lost := lost }

/-- Addition of the exact addend `s × 2^us` into a word (R66); `none` is a NaN addend, with whether it comes from an
infinity (R68). -/
def w96Add (w : W96) (s : Option (Int × Int)) : W96Add :=
  match s with
  | none => { word := W96.nan, nanMade := !W96.isNan w }
  | some (s, us) =>
    if W96.isNan w then { word := W96.nan }
    else if s = 0 then { word := w }
    else
      let wz := decide (W96.exp w = 0) || decide (W96.sig w = 0)
      let uw := (W96.exp w : Int) - 32846
      let u := if wz then us else min uw us
      let wi : Int := if wz then 0 else W96.sig w * (2 ^ (uw - u).toNat : Nat)
      w96Fit (wi + s * (2 ^ (us - u).toNat : Nat)) u

/-- Addition of a value with its own unit (R65, R66): an infinity or a NaN makes the element NaN. -/
def w96AddVal (w : W96) (v : Val) : W96Add :=
  match v with
  | .fin n m e => w96Add w (some ((if n then -(m : Int) else m), e))
  | _ => w96Add w none

/-- A value converted exactly to W96 with the element's own unit (R74); infinity and NaN become NaN. -/
def w96OfVal (v : Val) : W96 :=
  match v with
  | .fin n m e => if m = 0 then 0#96 else W96.mk (e + 32846).toNat (if n then -(m : Int) else m)
  | _ => W96.nan

end Sys2Proof.Machine
end

