-- ==== Sys2Proof/Machine/RegTable.lean ====
section
/-!
DEFINITION. The register tables of the spec as data: for every page, the words its tables define with each field's
bits, access code, reset value and reset kind (00 R7 to R13; 15 R389; the register sections of every chapter).
A reset value that the table gives as strap, fuse or constant stands as 0 here and is read from its own place.
-/
namespace Sys2Proof.Machine

/-- The access codes of R7. -/
inductive Acc where
  | rw | ro | w1c | w1s | wl | sr
  deriving DecidableEq, Repr

/-- The narrowest reset that returns a field to its reset value (R10); `scope` is the scope reset of its page (R388). -/
inductive ResetBy where
  | none | cold | module | partition | context | link | scope
  deriving DecidableEq, Repr

/-- One field of a 32-bit register word. -/
structure RField where
  hi : Nat
  lo : Nat
  acc : Acc
  reset : Nat
  resetBy : ResetBy
  deriving DecidableEq, Repr

/-- A register, or `count` of them `stride` bytes apart, with the fields of each of its words. -/
structure RegRow where
  base : Nat
  stride : Nat
  count : Nat
  words : List (List RField)
  deriving DecidableEq, Repr

/-- The kinds of register page (R392); `mbx` is THL 1 and 2, `rgn` is MPE 12, `fabric` is LML 16, and `est` and
`ledger` are the PRT pages of kinds 1 and 2. `window` stands for windows, which hold no registers of their own. -/
inductive PageKind where
  | top | hif | fnc | thl | mbx | lch | clk | tmb | pwr | mgt | prt | est | ledger | rhz | mpe | rgn | lml | fabric | frd | pna | ctx | window
  deriving DecidableEq, Repr

/-- The page header (R389). -/
def headerRows : List RegRow := [
  ⟨0x000, 4, 1, [[⟨7, 0, .ro, 1, .none⟩, ⟨15, 8, .ro, 0, .none⟩, ⟨23, 16, .ro, 0, .none⟩, ⟨31, 24, .ro, 0, .none⟩]]⟩,
  ⟨0x004, 4, 1, [[⟨0, 0, .ro, 0, .none⟩, ⟨1, 1, .ro, 0, .none⟩, ⟨2, 2, .ro, 0, .none⟩]]⟩,
  ⟨0x008, 4, 1, [[⟨0, 0, .rw, 0, .scope⟩, ⟨1, 1, .wl, 0, .scope⟩]]⟩,
  ⟨0x00C, 4, 1, [[⟨0, 0, .ro, 0, .scope⟩, ⟨1, 1, .ro, 0, .scope⟩, ⟨2, 2, .ro, 0, .scope⟩, ⟨3, 3, .ro, 0, .scope⟩]]⟩,
  ⟨0x010, 4, 1, [[⟨14, 1, .w1c, 0, .scope⟩, ⟨16, 16, .w1c, 0, .scope⟩]]⟩,
  ⟨0x014, 4, 1, [[⟨16, 0, .rw, 0, .scope⟩]]⟩,
  ⟨0x018, 4, 1, [[⟨15, 0, .ro, 0, .scope⟩]]⟩,
  ⟨0x01C, 4, 1, [[⟨30, 0, .rw, 0, .scope⟩, ⟨31, 31, .w1c, 0, .scope⟩]]⟩,
  ⟨0x020, 4, 1, [[⟨27, 0, .ro, 0, .scope⟩, ⟨30, 28, .ro, 0, .scope⟩, ⟨31, 31, .ro, 0, .scope⟩]]⟩,
  ⟨0x024, 4, 1, [[⟨31, 0, .ro, 0, .scope⟩]]⟩,
  ⟨0x028, 4, 1, [[⟨4, 0, .ro, 0, .scope⟩, ⟨5, 5, .ro, 0, .scope⟩, ⟨6, 6, .ro, 0, .none⟩, ⟨7, 7, .ro, 0, .scope⟩]]⟩,
  ⟨0x02C, 4, 1, [[⟨10, 0, .rw, 0, .scope⟩]]⟩
]

/-- The block registers of TOP pages: TOP_ID, TOP_RESET, TOP_PORT, TOP_PAGE_PEND. -/
def topRows : List RegRow := [
  ⟨0x040, 4, 1, [[⟨15, 0, .ro, 0x1536, .none⟩, ⟨23, 16, .ro, 0xa0, .none⟩]]⟩,
  ⟨0x044, 4, 1, [[⟨0, 0, .w1s, 0, .module⟩]]⟩,
  ⟨0x048, 4, 1, [[⟨0, 0, .ro, 0, .cold⟩, ⟨1, 1, .ro, 0, .none⟩]]⟩,
  ⟨0x04C, 4, 1, [[⟨16, 1, .ro, 0, .module⟩]]⟩
]

/-- The block registers of HIF pages: HIF_LINK_STS, HIF_DMA_STS, HIF_DMA_FAULT, HIF_DMA_DONE, HIF_IDE_STS, the port counters. -/
def hifRows : List RegRow := [
  ⟨0x040, 4, 1, [[⟨3, 0, .ro, 0, .module⟩, ⟨8, 4, .ro, 0, .module⟩, ⟨9, 9, .ro, 0, .module⟩]]⟩,
  ⟨0x044, 4, 1, [[⟨23, 0, .ro, 0, .module⟩, ⟨27, 24, .ro, 0, .module⟩]]⟩,
  ⟨0x048, 4, 1, [[⟨15, 0, .ro, 0, .module⟩, ⟨17, 16, .ro, 0, .module⟩, ⟨22, 18, .ro, 0, .module⟩]]⟩,
  ⟨0x04C, 4, 1, [[⟨31, 0, .rw, 0, .module⟩]]⟩,
  ⟨0x050, 4, 1, [[⟨5, 0, .ro, 0, .module⟩]]⟩,
  ⟨0x060, 4, 6, [[⟨31, 0, .rw, 0, .module⟩]]⟩
]

/-- The block registers of FNC pages: FNC_SRIOV_STS, FNC_VF_v. -/
def fncRows : List RegRow := [
  ⟨0x040, 4, 1, [[⟨5, 0, .ro, 0, .module⟩, ⟨6, 6, .ro, 0, .module⟩]]⟩,
  ⟨0x120, 32, 32, [[⟨31, 12, .rw, 0, .partition⟩], [⟨31, 0, .rw, 0, .partition⟩], [⟨5, 0, .rw, 0, .partition⟩, ⟨6, 6, .rw, 0, .partition⟩, ⟨9, 8, .ro, 0, .context⟩, ⟨10, 10, .ro, 0, .module⟩]]⟩
]

/-- The block registers of THL 0 pages: THL_STS, THL_FW_STS, THL_SVN, THL_SLOT_CTR_LO/THL_SLOT_CTR_HI, Thallus counters, instance 0, THL_BOOTNONCE, THL_IDDIG_k. -/
def thlRows : List RegRow := [
  ⟨0x040, 4, 1, [[⟨1, 0, .ro, 0, .module⟩, ⟨2, 2, .ro, 0, .module⟩, ⟨9, 3, .ro, 0, .module⟩, ⟨17, 10, .ro, 0, .module⟩]]⟩,
  ⟨0x044, 4, 1, [[⟨2, 0, .ro, 0, .module⟩, ⟨3, 3, .ro, 0, .module⟩, ⟨6, 4, .ro, 0, .module⟩, ⟨11, 8, .ro, 0, .module⟩, ⟨15, 12, .ro, 0, .module⟩]]⟩,
  ⟨0x048, 4, 1, [[⟨31, 0, .ro, 0, .module⟩]]⟩,
  ⟨0x04C, 4, 2, [[⟨31, 0, .ro, 0, .module⟩]]⟩,
  ⟨0x054, 4, 3, [[⟨31, 0, .rw, 0, .module⟩]]⟩,
  ⟨0x060, 4, 2, [[⟨31, 0, .ro, 0, .module⟩]]⟩,
  ⟨0x080, 4, 12, [[⟨31, 0, .ro, 0, .module⟩]]⟩
]

/-- The block registers of THL 1 and 2 pages: THL_MBX_ADDR_LO/THL_MBX_ADDR_HI, THL_MBX_LEN, THL_MBX_CTL, THL_MBX_RES, THL_MBX_RLEN. -/
def mbxRows : List RegRow := [
  ⟨0x040, 4, 2, [[⟨31, 0, .rw, 0, .module⟩]]⟩,
  ⟨0x048, 4, 1, [[⟨23, 0, .rw, 0, .module⟩]]⟩,
  ⟨0x04C, 4, 1, [[⟨0, 0, .w1s, 0, .module⟩, ⟨1, 1, .w1s, 0, .module⟩, ⟨2, 2, .w1c, 0, .module⟩]]⟩,
  ⟨0x050, 4, 1, [[⟨15, 0, .ro, 0, .module⟩, ⟨27, 16, .ro, 0, .module⟩]]⟩,
  ⟨0x054, 4, 1, [[⟨23, 0, .ro, 0, .module⟩]]⟩
]

/-- The block registers of LCH pages: LCH_STS, LCH_SEAL_k, LCH_EVCNT_LO/LCH_EVCNT_HI/LCH_LOG_SEQ/LCH_LOG_ACK, LCH_PUB_k, LCH_E_i, LCH_E_CTX_c. -/
def lchRows : List RegRow := [
  ⟨0x040, 4, 1, [[⟨0, 0, .ro, 0, .module⟩, ⟨1, 1, .ro, 0, .module⟩, ⟨2, 2, .ro, 0, .module⟩, ⟨3, 3, .ro, 0, .module⟩, ⟨5, 4, .ro, 0, .module⟩, ⟨11, 6, .ro, 0xf, .module⟩, ⟨12, 12, .ro, 0, .module⟩]]⟩,
  ⟨0x044, 4, 12, [[⟨31, 0, .ro, 0, .module⟩]]⟩,
  ⟨0x080, 4, 4, [[⟨31, 0, .ro, 0, .module⟩]]⟩,
  ⟨0x090, 4, 8, [[⟨31, 0, .ro, 0, .module⟩]]⟩,
  ⟨0x100, 8, 13, [[⟨31, 0, .ro, 0, .module⟩], [⟨31, 0, .ro, 0, .module⟩]]⟩,
  ⟨0x200, 8, 32, [[⟨31, 0, .ro, 0, .module⟩], [⟨31, 0, .ro, 0, .module⟩]]⟩
]

/-- The block registers of CLK pages: CLK_STS, CLK_DOM_i, the clock counters. -/
def clkRows : List RegRow := [
  ⟨0x040, 4, 1, [[⟨0, 0, .ro, 0, .cold⟩, ⟨3, 1, .ro, 0, .cold⟩, ⟨11, 4, .ro, 0, .cold⟩]]⟩,
  ⟨0x044, 4, 4, [[⟨0, 0, .rw, 0, .module⟩, ⟨1, 1, .ro, 0, .module⟩, ⟨2, 2, .ro, 0, .module⟩]]⟩,
  ⟨0x060, 4, 3, [[⟨31, 0, .rw, 0, .module⟩]]⟩
]

/-- The block registers of TMB pages: TMB_NS_LO/TMB_NS_HI, TMB_FRAC, TMB_STS, TMB_SET_LO/TMB_SET_HI, TMB_SET_CTL, TMB_RATE, TMB_SLEW, TMB_SLEW_CTL, TMB_SLEW_LEFT, TMB_OUT_CTL, TMB_ANS_LAT. -/
def tmbRows : List RegRow := [
  ⟨0x040, 4, 2, [[⟨31, 0, .ro, 0, .module⟩]]⟩,
  ⟨0x048, 4, 1, [[⟨15, 0, .ro, 0, .module⟩]]⟩,
  ⟨0x04C, 4, 1, [[⟨0, 0, .ro, 0, .module⟩, ⟨1, 1, .ro, 0, .module⟩, ⟨2, 2, .ro, 0, .module⟩, ⟨3, 3, .ro, 0, .module⟩]]⟩,
  ⟨0x050, 4, 2, [[⟨31, 0, .rw, 0, .module⟩]]⟩,
  ⟨0x058, 4, 1, [[⟨15, 0, .rw, 0, .module⟩, ⟨16, 16, .w1s, 0, .module⟩]]⟩,
  ⟨0x05C, 4, 1, [[⟨31, 0, .rw, 0, .module⟩]]⟩,
  ⟨0x060, 4, 1, [[⟨31, 0, .rw, 0, .module⟩]]⟩,
  ⟨0x064, 4, 1, [[⟨15, 0, .rw, 0x1000, .module⟩]]⟩,
  ⟨0x068, 4, 1, [[⟨31, 0, .ro, 0, .module⟩]]⟩,
  ⟨0x06C, 4, 1, [[⟨0, 0, .rw, 0, .module⟩, ⟨1, 1, .rw, 0, .module⟩, ⟨12, 4, .rw, 0x64, .module⟩]]⟩,
  ⟨0x070, 4, 1, [[⟨7, 0, .ro, 0x28, .none⟩]]⟩
]

/-- The block registers of PWR pages: PWR_STS, PWR_CAP, PWR_THERM, PWR_EXT, PWR_TEMP, the throttle counters. -/
def pwrRows : List RegRow := [
  ⟨0x040, 4, 1, [[⟨5, 0, .ro, 0, .module⟩, ⟨11, 6, .ro, 0, .module⟩, ⟨17, 12, .ro, 0, .module⟩, ⟨23, 18, .ro, 0, .module⟩, ⟨24, 24, .ro, 0, .module⟩]]⟩,
  ⟨0x044, 4, 1, [[⟨12, 0, .rw, 0xfa0, .module⟩]]⟩,
  ⟨0x048, 4, 1, [[⟨6, 0, .rw, 0x69, .module⟩, ⟨14, 8, .rw, 0x5f, .module⟩]]⟩,
  ⟨0x04C, 4, 1, [[⟨5, 0, .rw, 0x20, .module⟩]]⟩,
  ⟨0x050, 4, 1, [[⟨7, 0, .ro, 0, .module⟩, ⟨13, 8, .ro, 0, .module⟩, ⟨23, 16, .ro, 0, .module⟩, ⟨27, 24, .ro, 0, .module⟩]]⟩,
  ⟨0x060, 4, 4, [[⟨31, 0, .rw, 0, .module⟩]]⟩
]

/-- The block registers of MGT pages: MGT_STS, MGT_TIME_CTL, MGT_TIME_OFS, log registers, MGT_LOG_SEL, MGT_LOG_ENT_k. -/
def mgtRows : List RegRow := [
  ⟨0x040, 4, 1, [[⟨0, 0, .ro, 0, .module⟩, ⟨1, 1, .ro, 0, .module⟩, ⟨2, 2, .ro, 0, .module⟩, ⟨3, 3, .ro, 0, .module⟩, ⟨31, 16, .ro, 0, .module⟩]]⟩,
  ⟨0x044, 4, 1, [[⟨1, 0, .rw, 0, .module⟩, ⟨5, 2, .rw, 0, .module⟩, ⟨6, 6, .rw, 0, .module⟩, ⟨7, 7, .rw, 0, .module⟩, ⟨15, 8, .rw, 0, .module⟩, ⟨23, 16, .rw, 0xf8, .module⟩, ⟨31, 24, .rw, 0x80, .module⟩]]⟩,
  ⟨0x048, 4, 1, [[⟨31, 0, .ro, 0, .module⟩]]⟩,
  ⟨0x04C, 4, 3, [[⟨31, 0, .ro, 0, .module⟩]]⟩,
  ⟨0x058, 4, 1, [[⟨31, 0, .rw, 0, .module⟩]]⟩,
  ⟨0x060, 4, 8, [[⟨31, 0, .ro, 0, .module⟩]]⟩
]

/-- The block registers of PRT pages: PRT_LAYOUT, PRT_RESET, PRT_REQ_ADDR_LO/PRT_REQ_ADDR_HI, PRT_REQ_CTL, PRT_REQ_RES, PRT_CTX_STS. -/
def prtRows : List RegRow := [
  ⟨0x040, 4, 1, [[⟨2, 0, .ro, 1, .module⟩, ⟨4, 3, .ro, 0, .module⟩, ⟨5, 5, .ro, 0, .module⟩]]⟩,
  ⟨0x044, 4, 1, [[⟨0, 0, .w1s, 0, .partition⟩]]⟩,
  ⟨0x048, 4, 2, [[⟨31, 0, .rw, 0, .partition⟩]]⟩,
  ⟨0x050, 4, 1, [[⟨0, 0, .w1s, 0, .partition⟩, ⟨1, 1, .w1c, 0, .partition⟩]]⟩,
  ⟨0x054, 4, 1, [[⟨15, 0, .ro, 0, .partition⟩, ⟨23, 16, .ro, 0, .partition⟩]]⟩,
  ⟨0x058, 4, 1, [[⟨31, 0, .ro, 0, .module⟩]]⟩
]

/-- The block registers of the estimator page pages: PRT_EST_FOLDS, PRT_EST_n. -/
def estRows : List RegRow := [
  ⟨0x040, 4, 1, [[⟨31, 0, .rw, 0, .partition⟩]]⟩,
  ⟨0x820, 32, 63, [[⟨0, 0, .rw, 0, .context⟩, ⟨4, 1, .rw, 4, .context⟩, ⟨7, 5, .rw, 0, .context⟩, ⟨8, 8, .rw, 0, .context⟩, ⟨23, 16, .rw, 0, .context⟩, ⟨31, 24, .rw, 0x7f, .context⟩], [⟨7, 0, .rw, 0, .context⟩, ⟨15, 8, .rw, 0xfe, .context⟩, ⟨23, 16, .ro, 0x7f, .context⟩, ⟨24, 24, .ro, 0, .context⟩, ⟨25, 25, .ro, 0, .context⟩, ⟨30, 26, .rw, 0, .context⟩], [⟨23, 0, .ro, 0, .context⟩], [⟨23, 0, .ro, 0, .context⟩, ⟨24, 24, .ro, 0, .context⟩], [⟨31, 0, .ro, 0, .context⟩], [⟨31, 0, .ro, 0, .context⟩], [⟨31, 0, .ro, 0, .context⟩], [⟨31, 0, .ro, 0, .context⟩]]⟩
]

/-- The block registers of the ledger page pages: PRT_LEDGER_c_f. -/
def ledgerRows : List RegRow := [
  ⟨0x100, 32, 104, [[⟨31, 0, .rw, 0, .context⟩], [⟨31, 0, .rw, 0, .context⟩], [⟨31, 0, .rw, 0, .context⟩], [⟨31, 0, .rw, 0, .context⟩], [⟨31, 0, .rw, 0, .context⟩], [⟨31, 0, .rw, 0, .context⟩], [⟨31, 0, .rw, 0, .context⟩], [⟨31, 0, .rw, 0, .context⟩]]⟩
]

/-- The block registers of RHZ pages: RHZ_STAGE_SPLIT, RHZ_STS, RHZ_ECC_CORR, RHZ_ECC_UNCORR, RHZ_ECC_LAST, RHZ_CSE_DONE, RHZ_CSE_POS, RHZ_STALL_CTL, RHZ_RATIO_BAND, RHZ_STALL_COUNT, RHZ_WATCH_DONE, RHZ_RED_CTL, RHZ_RED_STS, RHZ_RED_SEL, RHZ_RED_ENTRY, RHZ_DEADLINE_LO, RHZ_DEADLINE_HI, RHZ_RED_STEP, the reduction counters, RHZ_CHECK_KEY_n, RHZ_UPD_STS, RHZ_UPD_CUR, the update counters, RHZ_PROG_s, RHZ_JPOL_c. -/
def rhzRows : List RegRow := [
  ⟨0x040, 4, 1, [[⟨4, 0, .rw, 0x10, .partition⟩, ⟨12, 8, .rw, 4, .partition⟩, ⟨20, 16, .rw, 4, .partition⟩]]⟩,
  ⟨0x044, 4, 1, [[⟨4, 0, .ro, 0, .partition⟩, ⟨5, 5, .ro, 0, .partition⟩, ⟨6, 6, .ro, 0, .partition⟩]]⟩,
  ⟨0x048, 4, 1, [[⟨31, 0, .rw, 0, .cold⟩]]⟩,
  ⟨0x04C, 4, 1, [[⟨31, 0, .rw, 0, .cold⟩]]⟩,
  ⟨0x050, 4, 1, [[⟨30, 0, .ro, 0, .cold⟩, ⟨31, 31, .ro, 0, .cold⟩]]⟩,
  ⟨0x054, 4, 1, [[⟨31, 0, .rw, 0, .partition⟩]]⟩,
  ⟨0x058, 4, 1, [[⟨31, 0, .rw, 0, .partition⟩]]⟩,
  ⟨0x080, 4, 1, [[⟨15, 0, .rw, 0x40, .partition⟩]]⟩,
  ⟨0x084, 4, 1, [[⟨15, 0, .rw, 0x8000, .partition⟩, ⟨31, 16, .rw, 0x7fff, .partition⟩]]⟩,
  ⟨0x088, 4, 1, [[⟨31, 0, .rw, 0, .partition⟩]]⟩,
  ⟨0x08C, 4, 1, [[⟨31, 0, .rw, 0, .partition⟩]]⟩,
  ⟨0x100, 4, 1, [[⟨4, 0, .rw, 0xc, .partition⟩]]⟩,
  ⟨0x104, 4, 1, [[⟨6, 0, .ro, 0, .partition⟩, ⟨18, 7, .ro, 0, .partition⟩]]⟩,
  ⟨0x108, 4, 1, [[⟨5, 0, .rw, 0, .partition⟩]]⟩,
  ⟨0x10C, 4, 1, [[⟨1, 0, .ro, 0, .partition⟩, ⟨3, 2, .ro, 0, .partition⟩, ⟨5, 4, .ro, 0, .partition⟩, ⟨10, 6, .ro, 0, .partition⟩, ⟨31, 16, .ro, 0, .partition⟩]]⟩,
  ⟨0x110, 4, 1, [[⟨31, 0, .ro, 0, .partition⟩]]⟩,
  ⟨0x114, 4, 1, [[⟨31, 0, .ro, 0, .partition⟩]]⟩,
  ⟨0x118, 4, 1, [[⟨31, 0, .ro, 0, .partition⟩]]⟩,
  ⟨0x120, 4, 6, [[⟨31, 0, .rw, 0, .partition⟩]]⟩,
  ⟨0x140, 4, 8, [[⟨31, 0, .sr, 0, .partition⟩]]⟩,
  ⟨0x180, 4, 1, [[⟨0, 0, .ro, 0, .partition⟩, ⟨1, 1, .ro, 0, .partition⟩, ⟨8, 2, .ro, 0, .partition⟩]]⟩,
  ⟨0x184, 4, 1, [[⟨30, 0, .ro, 0, .partition⟩, ⟨31, 31, .ro, 0, .partition⟩]]⟩,
  ⟨0x188, 4, 4, [[⟨31, 0, .rw, 0, .partition⟩]]⟩,
  ⟨0x1C0, 4, 8, [[⟨0, 0, .ro, 0, .context⟩, ⟨5, 1, .ro, 0, .context⟩, ⟨12, 6, .ro, 0, .context⟩]]⟩,
  ⟨0x200, 64, 8, [[⟨7, 0, .sr, 0, .module⟩, ⟨8, 8, .sr, 0, .module⟩], [⟨31, 0, .sr, 0, .module⟩], [⟨31, 0, .sr, 0, .module⟩], [⟨31, 0, .sr, 0, .module⟩], [⟨31, 0, .sr, 0, .module⟩], [⟨31, 0, .sr, 0, .module⟩], [⟨31, 0, .sr, 0, .module⟩], [⟨31, 0, .sr, 0, .module⟩], [⟨31, 0, .sr, 0, .module⟩], [⟨31, 0, .sr, 0, .module⟩]]⟩
]

/-- The block registers of MPE pages: MPE_STS, MPE_SWEEP_POS, the MPE counters. -/
def mpeRows : List RegRow := [
  ⟨0x040, 4, 1, [[⟨0, 0, .ro, 0, .module⟩, ⟨6, 1, .ro, 0, .module⟩, ⟨8, 7, .ro, 0, .module⟩, ⟨9, 9, .ro, 0, .module⟩]]⟩,
  ⟨0x044, 4, 1, [[⟨30, 0, .ro, 0, .module⟩, ⟨31, 31, .ro, 0, .module⟩]]⟩,
  ⟨0x048, 4, 8, [[⟨31, 0, .rw, 0, .module⟩]]⟩
]

/-- The block registers of MPE 12 pages: MPE_ESC, MPE_EPOCH_NEXT, MPE_RGN_r. -/
def rgnRows : List RegRow := [
  ⟨0x040, 4, 1, [[⟨1, 0, .wl, 2, .module⟩]]⟩,
  ⟨0x044, 4, 1, [[⟨31, 0, .ro, 1, .module⟩]]⟩,
  ⟨0x100, 16, 64, [[⟨2, 0, .ro, 0, .module⟩, ⟨3, 3, .ro, 0, .module⟩, ⟨4, 4, .ro, 0, .module⟩, ⟨9, 5, .ro, 0, .module⟩, ⟨21, 10, .ro, 0, .module⟩, ⟨31, 22, .ro, 0, .module⟩], [⟨15, 0, .ro, 0, .module⟩, ⟨31, 16, .ro, 0, .module⟩], [⟨15, 0, .ro, 0, .module⟩, ⟨31, 16, .ro, 0, .module⟩], [⟨31, 0, .ro, 0, .module⟩]]⟩
]

/-- The block registers of LML pages: LML_LINK_STS, LML_LINK_CTL, LML_LANE_CTL, LML_REKEY_CTL, LML_TIME_CTL, LML_TIME_ASYM, LML_TIME_OFS, LML_TIME_DLY, LML_SLOT_SEL, LML_SLOT_STS, LML_SLOT_FSID/LML_SLOT_EPOCH_TX/LML_SLOT_EPOCH_RX/LML_SLOT_CNT, the link counters, LML_VC_v, LML_VC_v. -/
def lmlRows : List RegRow := [
  ⟨0x040, 4, 1, [[⟨2, 0, .ro, 0, .link⟩, ⟨11, 3, .ro, 0, .link⟩, ⟨12, 12, .ro, 0, .link⟩, ⟨31, 16, .ro, 0xffff, .link⟩]]⟩,
  ⟨0x044, 4, 1, [[⟨0, 0, .w1s, 0, .link⟩, ⟨1, 1, .rw, 0, .partition⟩]]⟩,
  ⟨0x048, 4, 1, [[⟨15, 0, .rw, 0x400, .partition⟩]]⟩,
  ⟨0x04C, 4, 1, [[⟨5, 0, .rw, 0x2f, .partition⟩, ⟨8, 8, .w1s, 0, .link⟩]]⟩,
  ⟨0x050, 4, 1, [[⟨1, 0, .rw, 0, .module⟩, ⟨5, 2, .rw, 4, .module⟩]]⟩,
  ⟨0x054, 4, 1, [[⟨31, 0, .rw, 0, .module⟩]]⟩,
  ⟨0x058, 4, 1, [[⟨31, 0, .ro, 0, .link⟩]]⟩,
  ⟨0x05C, 4, 1, [[⟨31, 0, .ro, 0, .link⟩]]⟩,
  ⟨0x060, 4, 1, [[⟨3, 0, .rw, 0, .partition⟩]]⟩,
  ⟨0x064, 4, 1, [[⟨0, 0, .ro, 0, .link⟩, ⟨5, 1, .ro, 0, .link⟩]]⟩,
  ⟨0x068, 4, 4, [[⟨31, 0, .ro, 0, .link⟩]]⟩,
  ⟨0x080, 4, 8, [[⟨31, 0, .rw, 0, .partition⟩]]⟩,
  ⟨0x100, 4, 4, [[⟨15, 0, .ro, 0, .partition⟩, ⟨19, 16, .ro, 0, .partition⟩, ⟨26, 20, .ro, 0xf, .partition⟩, ⟨31, 31, .ro, 1, .partition⟩]]⟩,
  ⟨0x110, 4, 28, [[⟨15, 0, .ro, 0, .partition⟩, ⟨19, 16, .ro, 0, .partition⟩, ⟨26, 20, .ro, 0, .partition⟩, ⟨31, 31, .ro, 0, .partition⟩]]⟩
]

/-- The block registers of LML 16 pages: LML_NODE, LML_FNONCE, LML_ROUTE_i, LML_MIRROR_c. -/
def fabricRows : List RegRow := [
  ⟨0x040, 4, 1, [[⟨15, 0, .ro, 0xffff, .module⟩, ⟨17, 16, .ro, 0, .module⟩]]⟩,
  ⟨0x044, 4, 2, [[⟨31, 0, .ro, 0, .module⟩]]⟩,
  ⟨0x100, 4, 64, [[⟨15, 0, .ro, 0, .module⟩, ⟨19, 16, .ro, 0, .module⟩, ⟨23, 20, .ro, 0, .module⟩, ⟨24, 24, .ro, 0, .module⟩, ⟨25, 25, .ro, 0, .module⟩, ⟨31, 31, .ro, 0, .module⟩]]⟩,
  ⟨0x400, 16, 32, [[⟨0, 0, .rw, 0, .context⟩, ⟨31, 16, .rw, 1, .context⟩], [⟨15, 0, .rw, 0, .context⟩], [⟨31, 0, .rw, 0, .context⟩], [⟨4, 0, .rw, 0, .context⟩]]⟩
]

/-- The block registers of FRD pages: FRD_DMA_STS, FRD_DMA_FAULT, FRD_DMA_DONE, FRD_STAT_CHAN, FRD_FLAG_f, FRD_STAT_n. -/
def frdRows : List RegRow := [
  ⟨0x040, 4, 1, [[⟨23, 0, .ro, 0, .partition⟩, ⟨27, 24, .ro, 0, .partition⟩]]⟩,
  ⟨0x044, 4, 1, [[⟨15, 0, .ro, 0, .context⟩, ⟨17, 16, .ro, 0, .context⟩, ⟨22, 18, .ro, 0, .context⟩]]⟩,
  ⟨0x048, 4, 1, [[⟨31, 0, .rw, 0, .partition⟩]]⟩,
  ⟨0x04C, 4, 1, [[⟨5, 0, .rw, 0, .partition⟩, ⟨22, 10, .rw, 0, .partition⟩]]⟩,
  ⟨0x100, 4, 64, [[⟨31, 0, .rw, 0, .context⟩]]⟩,
  ⟨0x820, 32, 63, [[⟨31, 0, .rw, 0, .context⟩], [⟨31, 0, .rw, 0, .context⟩], [⟨31, 0, .rw, 0, .context⟩], [⟨31, 0, .rw, 0, .context⟩], [⟨31, 0, .rw, 0, .context⟩], [⟨4, 0, .ro, 0, .context⟩, ⟨5, 5, .ro, 0, .context⟩], [⟨31, 0, .rw, 0, .context⟩], [⟨31, 0, .rw, 0, .context⟩]]⟩
]

/-- The block registers of PNA pages: PNA_SEQ_STS, PNA_GROUP_STS, PNA_GROUP_ATTR, PNA_MMA_CTL, PNA_TREE_TIMEOUT, PNA_MMA_DONE, PNA_BAND_EXTRA, PNA_FAULT_INFO, PNA_VEC_CTL, PNA_VEC_STS, PNA_VEC_DONE, PNA_BANK_STALL. -/
def pnaRows : List RegRow := [
  ⟨0x040, 4, 1, [[⟨12, 0, .ro, 0, .context⟩, ⟨17, 16, .ro, 0, .context⟩, ⟨21, 18, .ro, 0, .context⟩]]⟩,
  ⟨0x044, 4, 1, [[⟨31, 0, .ro, 0, .context⟩]]⟩,
  ⟨0x048, 4, 1, [[⟨15, 0, .ro, 0, .context⟩, ⟨31, 16, .ro, 0, .context⟩]]⟩,
  ⟨0x04C, 4, 1, [[⟨0, 0, .rw, 0, .partition⟩]]⟩,
  ⟨0x050, 4, 1, [[⟨23, 0, .rw, 0x4000, .partition⟩]]⟩,
  ⟨0x054, 4, 1, [[⟨31, 0, .rw, 0, .partition⟩]]⟩,
  ⟨0x058, 4, 1, [[⟨31, 0, .rw, 0, .partition⟩]]⟩,
  ⟨0x05C, 4, 1, [[⟨12, 0, .ro, 0, .context⟩, ⟨31, 16, .ro, 0, .context⟩]]⟩,
  ⟨0x060, 4, 1, [[⟨0, 0, .rw, 0, .partition⟩]]⟩,
  ⟨0x064, 4, 1, [[⟨2, 0, .ro, 0, .context⟩, ⟨3, 3, .ro, 0, .context⟩, ⟨10, 4, .ro, 0, .context⟩]]⟩,
  ⟨0x068, 4, 1, [[⟨31, 0, .rw, 0, .partition⟩]]⟩,
  ⟨0x06C, 4, 1, [[⟨31, 0, .rw, 0, .partition⟩]]⟩
]

/-- The block registers of CTX pages: CTX_STS, CTX_RESET, CTX_SQ_q/CTX_CQ, CTX_SQ_q/CTX_CQ, CTX_CQ_OVERRUN, CTX_CAP_CTL, CTX_CAP_ADDR, capture counters, capture counters. -/
def ctxRows : List RegRow := [
  ⟨0x040, 4, 1, [[⟨1, 0, .ro, 0, .module⟩, ⟨3, 2, .ro, 0, .context⟩, ⟨11, 4, .ro, 0, .module⟩, ⟨12, 12, .ro, 0, .module⟩, ⟨13, 13, .ro, 0, .module⟩]]⟩,
  ⟨0x044, 4, 1, [[⟨0, 0, .w1s, 0, .context⟩]]⟩,
  ⟨0x080, 16, 4, [[⟨31, 0, .rw, 0, .context⟩], [⟨11, 0, .rw, 0, .context⟩, ⟨14, 12, .rw, 0, .context⟩, ⟨15, 15, .rw, 0, .context⟩, ⟨19, 16, .rw, 4, .context⟩], [⟨11, 0, .ro, 0, .context⟩], [⟨11, 0, .ro, 0, .context⟩]]⟩,
  ⟨0x0C0, 16, 1, [[⟨31, 0, .rw, 0, .context⟩], [⟨11, 0, .rw, 0, .context⟩, ⟨14, 12, .rw, 0, .context⟩, ⟨15, 15, .rw, 0, .context⟩, ⟨19, 16, .rw, 4, .context⟩], [⟨11, 0, .rw, 0, .context⟩], [⟨11, 0, .ro, 0, .context⟩, ⟨12, 12, .ro, 1, .context⟩]]⟩,
  ⟨0x0D0, 4, 1, [[⟨31, 0, .rw, 0, .context⟩]]⟩,
  ⟨0x100, 4, 1, [[⟨1, 0, .rw, 0, .context⟩, ⟨2, 2, .ro, 0, .context⟩, ⟨3, 3, .rw, 0, .context⟩]]⟩,
  ⟨0x108, 8, 1, [[⟨31, 0, .rw, 0, .context⟩], [⟨11, 0, .rw, 0, .context⟩, ⟨14, 12, .rw, 0, .context⟩]]⟩,
  ⟨0x110, 4, 1, [[⟨31, 0, .rw, 0, .context⟩]]⟩,
  ⟨0x114, 4, 2, [[⟨31, 0, .ro, 0, .context⟩]]⟩
]

/-- The block registers of a page. -/
def PageKind.rows : PageKind → List RegRow
  | .top => topRows
  | .hif => hifRows
  | .fnc => fncRows
  | .thl => thlRows
  | .mbx => mbxRows
  | .lch => lchRows
  | .clk => clkRows
  | .tmb => tmbRows
  | .pwr => pwrRows
  | .mgt => mgtRows
  | .prt => prtRows
  | .est => estRows
  | .ledger => ledgerRows
  | .rhz => rhzRows
  | .mpe => mpeRows
  | .rgn => rgnRows
  | .lml => lmlRows
  | .fabric => fabricRows
  | .frd => frdRows
  | .pna => pnaRows
  | .ctx => ctxRows
  | .window => []

/-! Byte offsets of the registers on their pages, by name (an array's first element). -/

def Reg.TOP_ID : Nat := 0x040
def Reg.TOP_RESET : Nat := 0x044
def Reg.TOP_PORT : Nat := 0x048
def Reg.TOP_PAGE_PEND : Nat := 0x04C
def Reg.HIF_LINK_STS : Nat := 0x040
def Reg.HIF_DMA_STS : Nat := 0x044
def Reg.HIF_DMA_FAULT : Nat := 0x048
def Reg.HIF_DMA_DONE : Nat := 0x04C
def Reg.HIF_IDE_STS : Nat := 0x050
def Reg.FNC_SRIOV_STS : Nat := 0x040
def Reg.FNC_VF : Nat := 0x120
def Reg.THL_STS : Nat := 0x040
def Reg.THL_FW_STS : Nat := 0x044
def Reg.THL_SVN : Nat := 0x048
def Reg.THL_SLOT_CTR_LO : Nat := 0x04C
def Reg.THL_SLOT_CTR_HI : Nat := 0x050
def Reg.THL_BOOTNONCE : Nat := 0x060
def Reg.THL_IDDIG : Nat := 0x080
def Reg.THL_MBX_ADDR_LO : Nat := 0x040
def Reg.THL_MBX_ADDR_HI : Nat := 0x044
def Reg.THL_MBX_LEN : Nat := 0x048
def Reg.THL_MBX_CTL : Nat := 0x04C
def Reg.THL_MBX_RES : Nat := 0x050
def Reg.THL_MBX_RLEN : Nat := 0x054
def Reg.LCH_STS : Nat := 0x040
def Reg.LCH_SEAL : Nat := 0x044
def Reg.LCH_EVCNT_LO : Nat := 0x080
def Reg.LCH_EVCNT_HI : Nat := 0x084
def Reg.LCH_LOG_SEQ : Nat := 0x088
def Reg.LCH_LOG_ACK : Nat := 0x08C
def Reg.LCH_PUB : Nat := 0x090
def Reg.LCH_E : Nat := 0x100
def Reg.LCH_E_CTX : Nat := 0x200
def Reg.CLK_STS : Nat := 0x040
def Reg.CLK_DOM : Nat := 0x044
def Reg.TMB_NS_LO : Nat := 0x040
def Reg.TMB_NS_HI : Nat := 0x044
def Reg.TMB_FRAC : Nat := 0x048
def Reg.TMB_STS : Nat := 0x04C
def Reg.TMB_SET_LO : Nat := 0x050
def Reg.TMB_SET_HI : Nat := 0x054
def Reg.TMB_SET_CTL : Nat := 0x058
def Reg.TMB_RATE : Nat := 0x05C
def Reg.TMB_SLEW : Nat := 0x060
def Reg.TMB_SLEW_CTL : Nat := 0x064
def Reg.TMB_SLEW_LEFT : Nat := 0x068
def Reg.TMB_OUT_CTL : Nat := 0x06C
def Reg.TMB_ANS_LAT : Nat := 0x070
def Reg.PWR_STS : Nat := 0x040
def Reg.PWR_CAP : Nat := 0x044
def Reg.PWR_THERM : Nat := 0x048
def Reg.PWR_EXT : Nat := 0x04C
def Reg.PWR_TEMP : Nat := 0x050
def Reg.MGT_STS : Nat := 0x040
def Reg.MGT_TIME_CTL : Nat := 0x044
def Reg.MGT_TIME_OFS : Nat := 0x048
def Reg.MGT_LOG_SEL : Nat := 0x058
def Reg.MGT_LOG_ENT : Nat := 0x060
def Reg.PRT_LAYOUT : Nat := 0x040
def Reg.PRT_RESET : Nat := 0x044
def Reg.PRT_REQ_ADDR_LO : Nat := 0x048
def Reg.PRT_REQ_ADDR_HI : Nat := 0x04C
def Reg.PRT_REQ_CTL : Nat := 0x050
def Reg.PRT_REQ_RES : Nat := 0x054
def Reg.PRT_CTX_STS : Nat := 0x058
def Reg.PRT_EST_FOLDS : Nat := 0x040
def Reg.PRT_EST : Nat := 0x820
def Reg.PRT_LEDGER : Nat := 0x100
def Reg.RHZ_STAGE_SPLIT : Nat := 0x040
def Reg.RHZ_STS : Nat := 0x044
def Reg.RHZ_ECC_CORR : Nat := 0x048
def Reg.RHZ_ECC_UNCORR : Nat := 0x04C
def Reg.RHZ_ECC_LAST : Nat := 0x050
def Reg.RHZ_CSE_DONE : Nat := 0x054
def Reg.RHZ_CSE_POS : Nat := 0x058
def Reg.RHZ_STALL_CTL : Nat := 0x080
def Reg.RHZ_RATIO_BAND : Nat := 0x084
def Reg.RHZ_STALL_COUNT : Nat := 0x088
def Reg.RHZ_WATCH_DONE : Nat := 0x08C
def Reg.RHZ_RED_CTL : Nat := 0x100
def Reg.RHZ_RED_STS : Nat := 0x104
def Reg.RHZ_RED_SEL : Nat := 0x108
def Reg.RHZ_RED_ENTRY : Nat := 0x10C
def Reg.RHZ_DEADLINE_LO : Nat := 0x110
def Reg.RHZ_DEADLINE_HI : Nat := 0x114
def Reg.RHZ_RED_STEP : Nat := 0x118
def Reg.RHZ_CHECK_KEY : Nat := 0x140
def Reg.RHZ_UPD_STS : Nat := 0x180
def Reg.RHZ_UPD_CUR : Nat := 0x184
def Reg.RHZ_PROG : Nat := 0x1C0
def Reg.RHZ_JPOL : Nat := 0x200
def Reg.MPE_STS : Nat := 0x040
def Reg.MPE_SWEEP_POS : Nat := 0x044
def Reg.MPE_ESC : Nat := 0x040
def Reg.MPE_EPOCH_NEXT : Nat := 0x044
def Reg.MPE_RGN : Nat := 0x100
def Reg.LML_LINK_STS : Nat := 0x040
def Reg.LML_LINK_CTL : Nat := 0x044
def Reg.LML_LANE_CTL : Nat := 0x048
def Reg.LML_REKEY_CTL : Nat := 0x04C
def Reg.LML_TIME_CTL : Nat := 0x050
def Reg.LML_TIME_ASYM : Nat := 0x054
def Reg.LML_TIME_OFS : Nat := 0x058
def Reg.LML_TIME_DLY : Nat := 0x05C
def Reg.LML_SLOT_SEL : Nat := 0x060
def Reg.LML_SLOT_STS : Nat := 0x064
def Reg.LML_SLOT_FSID : Nat := 0x068
def Reg.LML_SLOT_EPOCH_TX : Nat := 0x06C
def Reg.LML_SLOT_EPOCH_RX : Nat := 0x070
def Reg.LML_SLOT_CNT : Nat := 0x074
def Reg.LML_VC : Nat := 0x100
def Reg.LML_NODE : Nat := 0x040
def Reg.LML_FNONCE : Nat := 0x044
def Reg.LML_ROUTE : Nat := 0x100
def Reg.LML_MIRROR : Nat := 0x400
def Reg.FRD_DMA_STS : Nat := 0x040
def Reg.FRD_DMA_FAULT : Nat := 0x044
def Reg.FRD_DMA_DONE : Nat := 0x048
def Reg.FRD_STAT_CHAN : Nat := 0x04C
def Reg.FRD_FLAG : Nat := 0x100
def Reg.FRD_STAT : Nat := 0x820
def Reg.PNA_SEQ_STS : Nat := 0x040
def Reg.PNA_GROUP_STS : Nat := 0x044
def Reg.PNA_GROUP_ATTR : Nat := 0x048
def Reg.PNA_MMA_CTL : Nat := 0x04C
def Reg.PNA_TREE_TIMEOUT : Nat := 0x050
def Reg.PNA_MMA_DONE : Nat := 0x054
def Reg.PNA_BAND_EXTRA : Nat := 0x058
def Reg.PNA_FAULT_INFO : Nat := 0x05C
def Reg.PNA_VEC_CTL : Nat := 0x060
def Reg.PNA_VEC_STS : Nat := 0x064
def Reg.PNA_VEC_DONE : Nat := 0x068
def Reg.PNA_BANK_STALL : Nat := 0x06C
def Reg.CTX_STS : Nat := 0x040
def Reg.CTX_RESET : Nat := 0x044
def Reg.CTX_SQ : Nat := 0x080
def Reg.CTX_CQ : Nat := 0x0C0
def Reg.CTX_CQ_OVERRUN : Nat := 0x0D0
def Reg.CTX_CAP_CTL : Nat := 0x100
def Reg.CTX_CAP_ADDR : Nat := 0x108

/-- The fields of the word at byte offset `o` among some rows; empty where no table defines the offset. -/
def findWord : List RegRow → Nat → List RField
  | [], _ => []
  | r :: rs, o =>
    if r.base ≤ o ∧ o < r.base + r.stride * r.count then
      (r.words.getD ((o - r.base) % r.stride / 4) [])
    else findWord rs o

/-- The fields of the word at byte offset `o` of a page. -/
def PageKind.word (k : PageKind) (o : Nat) : List RField :=
  if o < 0x40 then findWord headerRows o else findWord k.rows o

end Sys2Proof.Machine
end

