-- ==== Sys2Proof/Machine/Types.lean ====
section
/-!
DEFINITION. The records of which State is made: pinnae, fronds, DMA engines, contexts and their commands. Plain data
throughout. The records of the memory stacks, links, Thallus and the boards follow in the later Types files.
-/
namespace Sys2Proof.Machine

/-! Pinnae (03_matrix_and_accumulation.md, 05_vector_engine.md). -/

/-- An active hardware loop (R60, R61): its counter, its body [start, stop) and the trips still to begin. -/
structure LoopRec where
  counter : Nat
  start : Nat
  stop : Nat
  left : Nat
  deriving DecidableEq, Repr

/-- State of an accumulation group (R73), in the coding of `PNA_GROUP_STS`. -/
inductive GroupState where
  | closed | opened | invalid | inTree
  deriving DecidableEq, Repr

/-- Slice attribute of a group (R73). -/
inductive SliceAttr where
  | none | slice | nonSlice
  deriving DecidableEq, Repr

/-- An accumulation group: 1,024 W96 words keyed 64m + n, and the inexact flags as a 1,024-bit number (R67, R78). -/
structure Group where
  state : GroupState := .closed
  attr : SliceAttr := .none
  words : SMap W96 := []
  flags : Nat := 0
  deriving DecidableEq, Repr

/-- State of the sequencer, in the coding of `PNA_SEQ_STS` (R88). A running sequencer is shown as waiting while a `GREDUCE`
of its pinna waits in a tree (log entry 46). -/
inductive SeqState where
  | idle | running | waitTree | stopped
  deriving DecidableEq, Repr

/-- A matrix, group or vector instruction that has issued and has not been performed (R59, R116): its word, the
immediate slot, its index, and the registers as they stood at issue. -/
structure QEntry where
  word : BitVec 64
  ext : BitVec 64
  pc : Nat
  sregs : SMap (BitVec 32)
  aregs : SMap (BitVec 24)
  deriving DecidableEq, Repr

/-- The LAUNCH a pinna runs: its command, context, step seed and Prothallus bit (R47, R187, R355). -/
structure Launch where
  job : Nat
  ctx : Nat
  seed : BitVec 64
  proth : Bool
  deriving DecidableEq, Repr

/-- A partial tile on its way to a partner's tree port (R81, R83). -/
structure Tile where
  src : Nat
  dst : Nat
  spec : BitVec 32
  words : SMap W96
  flags : Nat
  /-- elements whose flag an addition of the tree set below this tile -/
  lost : Nat
  /-- the command of the sender, and the index and group of its `GREDUCE` -/
  job : Nat
  pc : Nat := 0
  group : Nat := 0
  deriving DecidableEq, Repr

/-- A running `GREDUCE` (R81): its description, its group, the stage (`across` fronds or within one), the level or chain
position reached, and the elements whose flags the tree's additions set. -/
structure TreeRun where
  spec : BitVec 32
  group : Nat
  pc : Nat
  cross : Bool
  level : Nat
  lost : Nat
  /-- the tick at which its present wait began (R82) -/
  since : Nat := 0
  deriving DecidableEq, Repr

/-- What a stalled pinna waits for (R139). -/
inductive Stall where
  | ticket | fence | flag | queue
  deriving DecidableEq, Repr

/-- The expected and found tag and first fields of a failed scale line (R133, R134). -/
structure ScaleMiss where
  expected : Nat
  found : Nat
  deriving DecidableEq, Repr

/-- A pinna (01 R14; 03; 05; 06 R120). -/
structure Pinna where
  imem : SMap (BitVec 64) := []
  spad : Mem := []
  sregs : SMap (BitVec 32) := []
  aregs : SMap (BitVec 24) := []
  pc : Nat := 0
  seq : SeqState := .idle
  loops : List LoopRec := []
  groups : SMap Group := []
  queue : List QEntry := []
  masks : SMap Nat := []
  launch : Option Launch := none
  halted : Bool := true
  zeroing : Bool := false
  treeRun : Option TreeRun := none
  treePort : Option Tile := none
  stall : Option Stall := none
  /-- the tick at which a `FLAGWAIT` began to wait (R139) -/
  waitedFrom : Nat := 0
  submitted : SMap Nat := []
  /-- descriptors of this LAUNCH that have ended, by engine (R139) -/
  done : SMap Nat := []
  tally : Tally := {}
  miss : Option ScaleMiss := none
  faultPc : Nat := 0
  faultCode : Nat := 0
  deriving DecidableEq, Repr

/-! Fronds and DMA engines (06_data_movement.md). -/

/-- Who submitted a descriptor: a pinna by the `DSUB` at an index, with a ticket, or a command with the descriptor's index in it (R138). -/
inductive Submitter where
  | pinna (n : Nat) (job : Nat) (ticket : Nat) (pc : Nat)
  | job (id : Nat) (index : Nat)
  deriving DecidableEq, Repr

/-- Seal mode of a DMA command's descriptor (R368): none, or seal/unseal with key, object, chunk index and count. -/
structure SealArg where
  opening : Bool
  key : Nat
  obj : Nat
  chunk : Nat
  count : Nat
  deriving DecidableEq, Repr

/-- A queued descriptor: its 64 bytes, the address it was submitted from, the submitter, its context, step seed and
seal argument. -/
structure QDesc where
  bytes : List Byte
  addr : Nat
  submitter : Submitter
  ctx : Nat
  seed : BitVec 64
  proth : Bool
  sealArg : Option SealArg
  deriving DecidableEq, Repr

/-- A DMA engine: its queue of 32, the descriptor it runs (R138), the source scale lines that passed the check of R133, by
line number, and what the descriptor holds of its estimator slot. -/
structure Engine where
  queue : List QDesc := []
  running : Option QDesc := none
  lines : SMap (List Byte) := []
  /-- the code and the strict field that the running descriptor took from its estimator slot (R173, R176) -/
  held : Option (Nat × Bool) := none
  deriving DecidableEq, Repr

/-- A CSE command at a frond's engine (R157 to R164): its request list and the request it stands at; once that is sent,
the queries, the stacks that still owe a part, the parts that arrived (FP32 words m, l, o of each query) and the parts
that were aborted (stack, code and the event's two arguments). -/
structure CseRun where
  job : Nat
  ctx : Nat
  engine : Nat
  addr : Nat
  reqs : List (List Byte)
  index : Nat := 0
  sent : Bool := false
  queries : List Byte := []
  waiting : List Nat := []
  parts : List (Nat × List (List Nat)) := []
  faults : List (Nat × Nat × Nat × Nat) := []
  deriving DecidableEq, Repr

/-- A frond: shared memory, four engines and the CSE commands they run (06 R122, R138; 07 R157). -/
structure Frond where
  mem : Mem := []
  engines : SMap Engine := []
  cse : List CseRun := []
  deriving DecidableEq, Repr

/-! Contexts and commands (14_tenancy.md). -/

/-- State of a context, in the coding of `PRT_CTX_STS` (R352, R371). -/
inductive CtxState where
  | free | active | faulted | teardown
  deriving DecidableEq, Repr

/-- A started command (R355, R356): its queue, entry index and 64-byte entry; what it has counted; how it ended. -/
structure Job where
  id : Nat
  ctx : Nat
  queue : Nat
  index : Nat
  entry : List Byte
  /-- commands started before it that a FENCE or a SIGNAL waits for -/
  waitFor : List Nat := []
  /-- pinnae a LAUNCH still runs -/
  pinnae : List Nat := []
  /-- every pinna a LAUNCH named -/
  named : List Nat := []
  /-- descriptors still to end, or requests still to end -/
  left : Nat := 0
  /-- a DMA command's descriptors, the address of the first, and the number that its engine's queue has taken -/
  descs : List (List Byte) := []
  descAddr : Nat := 0
  nextDesc : Nat := 0
  /-- 1 µs polls or other waits begun, and the tick at which they began -/
  waits : Bool := false
  since : Nat := 0
  /-- whether its engine work has been handed over -/
  begun : Bool := false
  tally : Tally := {}
  /-- the pinnae that stopped: number, code and the two arguments of the stopping event -/
  stops : List (Nat × Nat × Nat × Nat) := []
  /-- the failed scale line of an MMA of the lowest-numbered pinna that had one (R134) -/
  miss : Option (Nat × ScaleMiss) := none
  /-- numeric events already raised, by engine page (R57) -/
  noted : List (Nat × Nat) := []
  /-- the code that ended or ends the command, with the detail field of R358 -/
  result : Option (Nat × Nat) := none
  deriving DecidableEq, Repr

/-- An owner of a context: digest and import key (R352, R366). -/
structure Owner where
  digest : List Byte
  key : Option (List Byte)
  deriving DecidableEq, Repr

/-- What a joint context holds of its policy (R363). -/
structure Policy where
  digest : List Byte
  rule : Nat
  hyper : List Byte
  period : Nat
  window : Nat
  members : List (List Byte)
  programs : List (List Byte)
  deriving DecidableEq, Repr

/-- The capture writer or the replay reader of a context (R456 to R459). -/
structure Capture where
  seq : Nat := 0
  macInput : List Byte := []
  key : List Byte := []
  /-- ring positions (in 64-byte units) of records already matched in replay -/
  used : List Nat := []
  deriving DecidableEq, Repr

/-- Progress of a teardown (R362). -/
inductive TeardownPhase where
  | none | stopping | destroyed
  deriving DecidableEq, Repr

/-- A context (R352 to R372). Queue heads and tails, the completion queue and the capture registers live on its `CTX`
page. -/
structure Context where
  state : CtxState := .free
  reason : Nat := 0
  joint : Bool := false
  proth : Bool := false
  owners : List Owner := []
  policy : Option Policy := none
  policyKey : Option (List Byte) := none
  grant : Option (List Byte × List Byte) := none
  t0 : Nat := 0
  jobs : List Job := []
  /-- records of sources 4 to 7 waiting for room (R359), with their 32 bytes -/
  waiting : List (List Byte) := []
  resetting : Bool := false
  teardown : TeardownPhase := .none
  /-- the teardown zeroes the regions it destroys, and how many it has destroyed -/
  zero : Bool := false
  destroyed : Nat := 0
  /-- the queue from which the rotation of R356 goes on -/
  turn : Nat := 0
  capture : Capture := {}
  deriving DecidableEq, Repr

/-- A partition: the context from which the rotation of its scheduler goes on (R356), the request block in service, and a reset in progress. -/
structure Partition where
  port : Nat := 0
  turn : Nat := 0
  resetting : Bool := false
  reqBusy : Bool := false
  /-- ports and causes are on the page; this is the request's 64 bytes once Thallus has taken it -/
  request : Option (List Byte) := none
  deriving DecidableEq, Repr

end Sys2Proof.Machine
end

