-- ==== Sys2Proof/Machine/MemTypes.lean ====
section
/-!
DEFINITION. The records of the memory stacks: metadata cache, sweeps, regions, reduction entries, lane commands and
releases (07, 09, 10, 12), and those of the event log, clocks and timebase (16, 18).
-/
namespace Sys2Proof.Machine

/-! Memory protection (12_memory_protection.md). -/

/-- State of a region, in the coding of `MPE_RGN_r` (R290). -/
inductive RegionState where
  | free | init | active | rekey | fenced | zeroing
  deriving DecidableEq, Repr

/-- The subkeys of a region as an MPE holds them, with the epoch they were derived for (R292). -/
structure KeySet where
  epoch : Nat := 0
  xd : List Byte := []
  xt : List Byte := []
  km : List Byte := []
  kc : List Byte := []
  kt : List Byte := []
  kn : List Byte := []
  deriving DecidableEq, Repr

/-- The key slot of a region in one MPE (R292, R307): the current keys, and during a re-key the old ones with the boundary
b, the line below which the current keys apply. -/
structure RegionKeys where
  cur : KeySet := {}
  old : Option KeySet := none
  bound : Nat := 0
  deriving DecidableEq, Repr

/-- A region (R286, R287, R313). `swept` counts the lines that its latest sweep has swept in all its stacks, and `prog` is
that in per-mille of the lines to sweep (R305). Its keys stand in the key slots of the MPEs alone (R292). -/
structure Region where
  state : RegionState := .free
  tree : Bool := false
  sealedBit : Bool := false
  owner : Nat := 0
  inStacks : Nat := 0
  prog : Nat := 0
  swept : Nat := 0
  base : Nat := 0
  limit : Nat := 0
  mbase : Nat := 0
  mlimit : Nat := 0
  epoch : Nat := 0
  deriving DecidableEq, Repr

/-- Kind of a sweep, in the coding of `MPE_STS` (R312). -/
inductive SweepKind where
  | init | rekey | zero
  deriving DecidableEq, Repr

/-- A sweep of a region in one stack, and the lines it has swept there (R305). -/
structure Sweep where
  region : Nat
  kind : SweepKind
  pos : Nat := 0
  deriving DecidableEq, Repr

/-- A line of the metadata cache: its line number (stack offset / 64), whether it is dirty (R301), and the symbols in
which the cached contents differ from what the MPE wrote (only tag lines can, since no digest covers them). -/
structure CacheLine where
  line : Nat
  dirty : Bool
  dev : List (Nat × Nat) := []
  deriving DecidableEq, Repr

/-! Reduction (09_gradient_reduction.md). -/

/-- State of a buffer entry, in the coding of `RHZ_RED_ENTRY`. -/
inductive RedState where
  | free | opened | closing | closed
  deriving DecidableEq, Repr

/-- A span of a reduction buffer (R205, R207): its table fields and, while it is resident, its sums by element. `last`
orders acceptances, for residency; `picks` are the checked blocks of a sampled span, buffer-wide (R214). -/
structure Span where
  acc : Nat := 0
  weight : Nat := 0
  sat : Nat := 0
  maxabs : Nat := 0
  next : Nat := 0
  flags : Nat := 0
  nonfin : Nat := 0
  nacc : Nat := 0
  resident : Bool := false
  last : Nat := 0
  sums : SMap Int := []
  picks : List Nat := []
  deriving DecidableEq, Repr

/-- A buffer entry of a Rhizoid (R203, R204), with the fields of its arm descriptor by the names of R203. -/
structure RedEntry where
  state : RedState := .free
  ctx : Nat := 0
  group : Nat := 0
  buffer : Nat := 0
  buf : Nat := 0
  tbl : Nat := 0
  typ : Nat := 0
  kind : Nat := 0
  nranks : Nat := 1
  step : Nat := 0
  deadline : Nat := 0
  /-- the deadline cycle D (R208) -/
  cycle : Nat := 0
  nel : Nat := 0
  cmin : Nat := 0
  cmax : Nat := 0
  quorum : Nat := 0
  thr : Nat := 0
  lowerEn : Bool := false
  capture : Bool := false
  replay : Bool := false
  divide : Bool := false
  chkPinna : Nat := 0
  chkEn : Bool := false
  recAt : Nat := 0
  target : Nat := 0
  fwdBuffer : Nat := 0
  fwdRank : Nat := 0
  fwdNode : Nat := 0
  fwdStack : Nat := 0
  checkK : Nat := 0
  proth : Bool := false
  /-- a level-2 buffer of a type-0 gradient: it has taken a partial of kind 0x12 (R216; log entry 112) -/
  level2 : Bool := false
  /-- the agreed code of each span -/
  codes : List Byte := []
  /-- ranks recorded for the spans that the decision record lists, in replay (R222) -/
  recorded : List (Nat × Nat) := []
  spans : SMap Span := []
  /-- codes whose event was raised for this buffer and step (R206) -/
  raised : List Nat := []
  /-- the close has taken steps 1 to 4 and waits for the sampled check -/
  checking : Bool := false
  /-- a bus error met so far, as the line concerned -/
  busError : Option Nat := none
  /-- what the close has counted -/
  tally : Tally := {}
  /-- the spans that step 3 of R210 clamped -/
  clamped : Nat := 0
  deriving DecidableEq, Repr

/-! Lane commands and releases (07 R157, 10). -/

/-- What a lane command does (R157, R231). -/
inductive LaneKind where
  | init | apply | clear | loadprog
  | update | skip | fault (code : Nat)
  | csePart
  deriving DecidableEq, Repr

/-- What an update, skip or fault write that a close queues carries of its buffer: identity, step, sums and table, type,
elements, and the next codes (R211, R248); `level2` as in the entry. -/
structure Closed where
  group : Nat
  buffer : Nat
  step : Nat
  buf : Nat
  tbl : Nat
  typ : Nat
  nranks : Nat
  nel : Nat
  codes : List Byte
  level2 : Bool := false
  deriving DecidableEq, Repr

/-- A command of the lane queue: its context, the command that issued it, the buffer whose close queued it, the layer
header's offset, the 64 B descriptor or request, any image bytes or query bytes, the step seed, and for a stack part
the frond and the request's index. -/
structure LaneCmd where
  kind : LaneKind
  ctx : Nat
  job : Option Nat := none
  closed : Option Closed := none
  hdr : Nat := 0
  desc : List Byte := []
  image : List Byte := []
  seed : BitVec 64 := 0#64
  proth : Bool := false
  frond : Nat := 0
  index : Nat := 0
  deriving DecidableEq, Repr

/-- A release: of the layer at `hdr`, for the buffer whose close queued the update or skip (none for an APPLY), with the
finished step and the status (R248). -/
structure Release where
  hdr : Nat
  ctx : Nat
  closed : Option Closed
  step : Nat
  status : Nat
  /-- stack offsets of the release list and the weights, and the elements -/
  listAt : Nat
  w : Nat
  nel : Nat
  /-- whether the buffer has been OPEN at the new step, or freed, since the release was queued (R248) -/
  ready : Bool := false
  /-- whether the data has been sent -/
  begun : Bool := false
  /-- data writes not yet acknowledged: list position, write identifier and link -/
  unacked : List (Nat × Nat × Nat) := []
  /-- destinations that still owe their stamp: list position, node, space and address of the stamp -/
  stamps : List (Nat × Nat × Nat × Nat) := []
  stamp : List Byte := []
  group : Nat := 0
  /-- the code that its record carries -/
  code : Nat := 0
  deriving DecidableEq, Repr

/-- A program slot of the update engine (R230, R241, R252). -/
structure ProgSlot where
  valid : Bool := false
  owner : Nat := 0
  ni : Nat := 0
  image : List Byte := []
  deriving DecidableEq, Repr

/-- The requester that sends a remote accumulate to a stack (R17): a DMA engine of a frond, a Lumur link, or the Rhizoid
of a stack. -/
inductive AccFrom where
  | engine (f k : Nat)
  | link (l : Nat)
  | stack (k : Nat)
  deriving DecidableEq, Repr

/-- A contribution or partial on its way to the receive buffer of a stack: the context it belongs to, who sent it, and the
queue of the context whose command issued it. -/
structure Inbound where
  ctx : Nat
  sender : AccFrom
  queue : Option Nat := none
  bytes : List Byte
  deriving DecidableEq, Repr

/-- A memory stack with its base die. What its DRAM holds is a function of these fields (`State.storedLine`): `mem` has the
plaintext that the MPE last wrote to each line (unlisted bytes are 0), `ctrs` the write counters of lines in tree mode,
`keys` the MPE's key slots, from which the ciphertext, MAC, tags, digests and check symbols of a line follow (R149, R150,
R294 to R299); `err` has the symbols in which a stored line differs from that (position, XOR mask), by line. -/
structure Stack where
  mem : Mem := []
  ctrs : SMap Nat := []
  err : SMap (List (Nat × Nat)) := []
  /-- corrected lines due to be written back, with the error pattern that their corrected contents carry -/
  writeback : List (Nat × List (Nat × Nat)) := []
  cache : SMap (List CacheLine) := []
  /-- the key slots, by region -/
  keys : SMap RegionKeys := []
  sweeps : List Sweep := []
  sweep : Option Sweep := none
  zeroing : Bool := false
  entries : SMap RedEntry := []
  /-- contributions and partials on their way to the receive buffer, in the order in which they were issued -/
  inbox : List Inbound := []
  acceptSeq : Nat := 0
  /-- context, group, buffer and step for which 0x5003 was raised without an entry (R206) -/
  unarmed : List (Nat × Nat × Nat × Nat) := []
  lanes : List LaneCmd := []
  progs : SMap ProgSlot := []
  releases : List Release := []
  /-- layers whose mirror copy is due: header, context (R280) -/
  mirrors : List (Nat × Nat) := []
  checkKey : BitVec 256 := 0#256
  deriving DecidableEq, Repr

/-! Log, clocks and timebase. -/

/-- An entry of the event log without its sequence number (R452). -/
structure LogEntry where
  time : Nat
  code : Nat
  ptype : Nat
  inst : Nat
  grp : Nat
  flags : Nat
  owner : Nat
  arg1 : Nat
  arg2 : Nat
  boot : Nat
  deriving DecidableEq, Repr

/-- An item of the intake queue: an entry, or a run of entries that found it full (R453). -/
inductive Intake where
  | entry (e : LogEntry)
  | gap (n : Nat)
  deriving DecidableEq, Repr

/-- The event log (R453 to R455): intake queue; RAM ring (sequence number and entry, oldest first); entries not yet
programmed, with the tick at which each entered the ring; the pages of the flash ring, by position, of at most 8 entries
each; the position of the next page; the boot count; whether the log has resumed since the Module reset; and the next
sequence number. -/
structure EventLog where
  intake : List Intake := []
  ring : List (Nat × LogEntry) := []
  unsaved : List (Nat × Nat × LogEntry) := []
  flash : SMap (List (Nat × LogEntry)) := []
  page : Nat := 0
  boot : Nat := 0
  started : Bool := false
  seq : Nat := 0
  deriving DecidableEq, Repr

/-- Where the clock start of R404 stands. -/
inductive ClockPhase where
  | waitEdge | settling | pllStarting | running
  | failed (code : Nat)
  deriving DecidableEq, Repr

/-- Step of a domain switch (R409). -/
inductive SwitchPhase where
  | none | stopping | restarting
  deriving DecidableEq, Repr

/-- A switchable clock domain (R407): the source in use, and of a switch its target, its phase and the tick at which that
phase began (R409). -/
structure Domain where
  cur : Bool := false
  target : Bool := false
  phase : SwitchPhase := .none
  since : Nat := 0
  deriving DecidableEq, Repr

/-- The master timebase (R416 to R420): nanoseconds, the 40-bit fraction, the slew remainder in 2^−24 ns, cycles until
a requested set takes effect, and the outputs with the cycles left of a pulse. -/
structure Timebase where
  ns : Nat := 0
  frac : Nat := 0
  valid : Bool := false
  left : Int := 0
  setIn : Option Nat := none
  ppsHigh : Nat := 0
  refHigh : Nat := 0
  ppsDue : Bool := false
  refDue : Bool := false
  /-- latched high word and fraction of each reader (R424), keyed by reader -/
  latchHi : SMap (Option Nat) := []
  latchFrac : SMap (Option Nat) := []
  deriving DecidableEq, Repr

end Sys2Proof.Machine
end

