-- ==== Sys2Proof/Machine/PortTypes.lean ====
section
/-!
DEFINITION. The records of the host ports (15_host_interface.md) and the messages that leave the module.
-/
namespace Sys2Proof.Machine

/-- An entry of an MSI-X table with its pending bit. Every vector is masked after reset, as PCIe has it (log entry 6). -/
structure MsixVec where
  addr : Nat := 0
  data : Nat := 0
  masked : Bool := true
  pend : Bool := false
  deriving DecidableEq, Repr

/-- The configuration state of a function (R374): MSI-X enable and function mask, power state, and its table. -/
structure Func where
  msixEn : Bool := false
  fnMask : Bool := false
  d3hot : Bool := false
  vecs : SMap MsixVec := []
  deriving DecidableEq, Repr

/-- State of a TDI, in the coding of `FNC_VF_v.tdi` (R399). -/
inductive TdiState where
  | unlocked | locked | run | error
  deriving DecidableEq, Repr

/-- A TDI (R383): its state, the session that locked it, what the lock asked for, the nonce that it
answered, and the offset by which the report's addresses are moved. -/
structure Tdi where
  state : TdiState := .unlocked
  session : Nat := 0
  noFwUpdate : Bool := false
  lockMsix : Bool := false
  nonce : List Byte := []
  shift : Nat := 0
  deriving DecidableEq, Repr

/-- A selective IDE stream (R382): whether it is Secure, and its keys by key slot. -/
structure IdeStream where
  secure : Bool := false
  insecure : Bool := false
  keys : SMap (List Byte) := []
  deriving DecidableEq, Repr

/-- An SPDM session of a responder (R384): whether the handshake is complete; its transcript, and then the hash of the
transcript; the handshake secret, and then the export master secret; the requester's authenticated keys (modulus, exponent,
SLH-DSA key; none without mutual authentication); how far the hybrid steps of R266 and R366 have come (1 the signatures, 2
the encapsulation) with the secret they give; and the updates of its keys. -/
structure Session where
  established : Bool := false
  transcript : List Byte := []
  secret : List Byte := []
  keys : List Byte := []
  hybrid : Nat := 0
  hybridSecret : List Byte := []
  updates : Nat := 0
  deriving DecidableEq, Repr

/-- A large message in transfer: its handle, the number of the next chunk, the bytes (received, or still to be sent), and
the length of the whole. -/
structure Chunks where
  handle : Nat
  seq : Nat
  bytes : List Byte
  total : Nat
  deriving DecidableEq, Repr

/-- The connection of an SPDM responder (R384): 1 after GET_VERSION, 2 after GET_CAPABILITIES, 3 after
NEGOTIATE_ALGORITHMS; the requester's transfer size; the transcripts of the negotiation, of the certificate requests and of
the measurement requests; sessions by session identifier; large messages in transfer; and the next handle and session. -/
structure Spdm where
  stage : Nat := 0
  transfer : Nat := 0
  vca : List Byte := []
  certs : List Byte := []
  meas : List Byte := []
  sessions : SMap (Option Session) := []
  chunkIn : Option Chunks := none
  chunkOut : Option Chunks := none
  nextHandle : Nat := 0
  nextSession : Nat := 0
  deriving DecidableEq, Repr

/-- A host port (R374, R375): link, PERST#, configuration state, SR-IOV, IDE, TDIs and SPDM. -/
structure Port where
  perst : Bool := true
  training : Bool := false
  linkUp : Bool := false
  fns : SMap Func := []
  numVfs : Nat := 0
  vfEn : Bool := false
  /-- bases of PF0's BAR0 and of the VFs' BAR0 and BAR2 (R376) -/
  bar0 : Nat := 0
  vfBar0 : Nat := 0
  vfBar2 : Nat := 0
  ide : SMap IdeStream := []
  tdis : SMap Tdi := []
  spdm : Spdm := {}
  engines : SMap Engine := []
  hostMem : Mem := []
  deriving DecidableEq, Repr

/-- What the module sends out, latest last: the answers to requesters, messages and frames. -/
inductive Out where
  | msix (port fn addr data : Nat)
  | readData (r : Requester) (value : Nat)
  | unsupported (r : Requester)
  | retryStatus (port : Nat)
  | config (port fn off value : Nat)
  | spdm (port : Nat) (bytes : List Byte)
  | mailbox (port : Nat) (bytes : List Byte)
  | superblock (link : Nat) (lanes : List (Nat × List Nat))
  | session (link : Nat) (bytes : List Byte)
  | orderedSet (link : Nat) (bytes : List Byte)
  | ptm (port : Nat) (bytes : List Byte)
  | ethernet (bytes : List Byte)
  | mctp (bytes : List Byte)
  | meter (bytes : List Byte)
  | readLine (bytes : List Byte)
  | faultPattern (pulses : Nat)
  | busError
  deriving DecidableEq, Repr

end Sys2Proof.Machine
end

