-- ==== Sys2Proof/Machine/SysTypes.lean ====
section
/-!
DEFINITION. The records of clocks and resets, links and fabric, Thallus, power, metering and management
(11, 13, 16, 17, 18, 19).
-/
namespace Sys2Proof.Machine

/-- Clocks and resets of the module (R404 to R415), with the straps as they were sampled (R474). -/
structure Clocks where
  phase : ClockPhase := .waitEdge
  settle : Nat := 7
  mgmtPort : Nat := 1
  lockUs : Nat := 0
  doms : SMap Domain := []
  /-- a Module reset is in force (R415) -/
  inReset : Bool := true
  /-- the tick at which the last Module reset was raised, and that at which it was released (R338, R415) -/
  resetAt : Nat := 0
  releasedAt : Nat := 0
  /-- frames of the coded pattern shown on `FAULT_N` (R405) -/
  patternFrames : Nat := 0
  /-- the levels of `RST_N` and `THROTTLE_N` as last sampled (R411, R415, R427) -/
  rstN : Bool := true
  throttleN : Bool := true
  /-- `FAULT_N` is held low by a halt under policy 2 or a stopped boot (R475) -/
  faultHeld : Bool := false
  deriving DecidableEq, Repr

/-! Lumur (11_lumur_fabric.md). -/

/-- A message waiting for, or in, transmission on a virtual channel (R260): its bytes, and the bytes sent so far. -/
structure Msg where
  bytes : List Byte
  sent : Nat := 0
  deriving DecidableEq, Repr

/-- A key slot of a link (R265 to R270). In slot 0 before the session, both epochs are 0. -/
structure KeySlot where
  bound : Bool := false
  ctx : Nat := 0
  fsid : Nat := 0
  txEpoch : Nat := 0
  txCount : Nat := 0
  rxEpoch : Nat := 0
  rxCount : Nat := 0
  /-- the last epoch has run out (R269) -/
  ended : Bool := false
  /-- the epoch under which the receiver was retired (R270) -/
  retired : Option Nat := none
  /-- a stale-epoch event was raised for the retired epoch (R268) -/
  staleSaid : Option Nat := none
  deriving DecidableEq, Repr

/-- A binding that Thallus has asked the peer to confirm (R265): the partition whose page requested it (none for a
fabric ROUTE), the context, the fabric session identifier, and the channel map entries to write: channel and entry. -/
structure SlotWait where
  page : Option Nat
  ctx : Nat
  fsid : Nat
  maps : List (Nat × Nat)
  deriving DecidableEq, Repr

/-- Phase of a link (R283): bootstrap is a link that is up and has no link session. -/
inductive LinkPhase where
  | down | training | bootstrap | up
  deriving DecidableEq, Repr

/-- A link (R254 to R275). `spareFor` is the lane that lane 8 replaces; `half` the half kept at 4 lanes. -/
structure Link where
  phase : LinkPhase := .down
  failed : Nat := 0
  half : Option Bool := none
  spareFor : Option Nat := none
  /-- lanes whose failure both ends are about to remap, and how far the remap stands (R272) -/
  remapping : Option Nat := none
  remapStage : Nat := 0
  peer : Nat := 0xFFFF
  /-- the peer's device identity digest, once the link session stands -/
  peerId : List Byte := []
  slots : SMap KeySlot := []
  waits : SMap (Option SlotWait) := []
  /-- LM of R266, and whether this module was the session's requester -/
  lm : Option (List Byte) := none
  requester : Bool := false
  tx : SMap (List Msg) := []
  /-- flits sent on each channel, and freed by the peer as it last reported, modulo 256 -/
  sent : SMap Nat := []
  freed : SMap Nat := []
  /-- flits received and freed on each channel since the link came up -/
  got : SMap Nat := []
  /-- messages being assembled, by channel -/
  rx : SMap (List Byte) := []
  /-- messages that have arrived and wait for Thallus or the I/O die, with channel and slot -/
  inbox : List (Nat × Nat × List Byte) := []
  seqOut : Nat := 0
  seqIn : Nat := 0
  naked : Bool := false
  replay : List (Nat × List Byte) := []
  rotate : Nat := 0
  /-- the channel that the last control word reported without a change (R263) -/
  reported : Nat := 0
  /-- the number of the next time request, and the outstanding requests, oldest first: number and t1 in 2^−16 ns (R274) -/
  timeNum : Nat := 0
  timeAsked : List (Nat × Nat) := []
  /-- requests from the peer that await their answers: number and t2 -/
  timeDue : List (Nat × Nat) := []
  /-- answers that have arrived: number, t2, t3 and t4 -/
  timeGot : List (Nat × Nat × Nat × Nat) := []
  /-- symbols corrected on each lane in the running window (R257, R271) -/
  laneErrs : SMap Nat := []
  deriving DecidableEq, Repr

/-! Thallus (13_trust_keys_attestation.md). -/

/-- The one-time programmable array (R318). A blank field is the empty list; a counter is its 64 bits, by its OTP byte. -/
structure Otp where
  /-- the root secret, wrapped under the PUF key -/
  secret : List Byte := []
  first : Bool := false
  digest : List Byte := []
  counters : SMap (BitVec 64) := []
  helper : List Byte := []
  deriving DecidableEq, Repr

/-- The outputs of the key ladder that Thallus has taken (R319). -/
structure LadderKeys where
  slh : List Byte := []
  cache : List Byte := []
  records : SMap (List Byte) := []
  dir : List Byte := []
  sealing : List Byte := []
  capture : List Byte := []
  deriving DecidableEq, Repr

/-- The flash directory (R339). -/
structure Directory where
  /-- image states by 2·(image − 1) + copy (R334) -/
  states : SMap Nat := []
  /-- slot records by 2·slot + copy (R327): 512 bytes and 48 of MAC; slot 3's stand in the meter's partition -/
  records : SMap (List Byte) := []
  certs : List (List Byte) := []
  /-- the RSA private key encrypted: 12 bytes of IV, the ciphertext, 16 of tag (R321) -/
  cache : List Byte := []
  /-- policy keys, wrapped under the seal key, by policy digest (R363) -/
  policyKeys : List (List Byte × List Byte) := []
  /-- the partition layout and the owning ports (R350) -/
  layout : Nat := 1
  ports : Nat := 0
  deriving DecidableEq, Repr

/-- A copy of an image in the flash (R334, R339): 0 empty, 1 running, 2 staged, 3 inactive, 4 rejected; and its bytes. -/
structure Img where
  state : Nat := 0
  bytes : List Byte := []
  deriving DecidableEq, Repr

/-- A firmware transfer (R343): the image, its path (none is PLDM, otherwise the mailbox of a port), its length and the
bytes received. -/
structure Xfer where
  image : Nat
  path : Option Nat
  len : Nat
  got : List Byte := []
  deriving DecidableEq, Repr

/-- A request in Thallus's queue (R316): of a mailbox; of a partition's page; of the management controller, with the
message or with what a PLDM command says; of VC2 and VC3 of a link; for a link session; and for the check keys that end a
Partition reset. -/
inductive ThlReq where
  | mailbox (port : Nat)
  | tenancy (p : Nat)
  | mc (msg : List Byte)
  | pldm (cmd image len : Nat) (data : List Byte)
  | fabric (l : Nat)
  | slotRetire (l slot : Nat)
  | slotBind (l slot fsid : Nat)
  | policyKey (l ctx : Nat)
  | session (l : Nat)
  | checkKeys (p : Nat)
  deriving DecidableEq, Repr

/-- A Calyptra that is being signed (R332): who asked, its header and sections, and the tick at which signing began. -/
structure Signing where
  src : MsgSource
  doc : List Byte
  start : Nat := 0
  deriving DecidableEq, Repr

/-- Thallus: its OTP (R318), what it keeps in flash (R339), and its own state (R315, R316). -/
structure Thallus where
  otp : Otp := {}
  dir : Directory := {}
  /-- the HMAC over the directory (R339) -/
  dirMac : List Byte := []
  /-- the image areas of the flash, by the address at which an image begins (R339) -/
  flash : SMap (List Byte) := []
  /-- the root secret RS that the ladder holds, and whether the ROM has locked it (R319) -/
  rs : List Byte := []
  locked : Bool := false
  keys : LadderKeys := {}
  /-- the primes of the RSA identity key -/
  idKey : Nat × Nat := (0, 0)
  drbg : CtrDrbg := {}
  /-- counters, by their OTP byte, of which a programmed bit read back wrong since the last Module reset (R318) -/
  fuseBad : List Nat := []
  /-- the reset that ended last was a Cold reset (R321) -/
  cold : Bool := false
  /-- 0 ROM, 1 runtime ready, 2 boot stopped -/
  stage : Nat := 0
  /-- the ROM has verified the runtime and started it -/
  started : Bool := false
  /-- images whose new copy has not yet reported ready -/
  awaiting : List Nat := []
  /-- the tick at which the start of an image began (R342) -/
  startedAt : SMap Nat := []
  /-- the image whose new copy the ROM's watchdog marked before this boot (R342) -/
  marked : Option Nat := none
  bootB : Nat := 0
  fallback : Nat := 0
  live : Bool := false
  liveDone : Bool := false
  signStopped : Bool := false
  mismatch : Bool := false
  trngOk : Bool := false
  queue : List ThlReq := []
  xfer : Option Xfer := none
  signing : Option Signing := none
  deriving DecidableEq, Repr

/-! Power, the Lichenometer and the management controller (17, 18). Levels, hottest readings and counters stand in the words of their
pages. -/

/-- The power stage and what the throttle loops remember (R426 to R431). -/
structure Power where
  /-- `PWR_OK` is high; the stage is on -/
  ok : Bool := true
  stage : Bool := true
  /-- off after a thermal trip, until the input has been below 5 V for 1 s -/
  tripped : Bool := false
  /-- input power of the last samples of 1 µs, latest first, at most 1,000 -/
  samples : List Nat := []
  /-- consecutive samples in which no condition of the current limiter held -/
  quiet : Nat := 0
  /-- consecutive readings at or above the trip level, by sensor (64 + stack for stacks) -/
  hot : SMap Nat := []
  /-- consecutive readings with every sensor 3 °C below its threshold -/
  cool : Nat := 0
  /-- consecutive milliseconds at τ_cap = 63 above the cap -/
  pressed : Nat := 0
  deriving DecidableEq, Repr

/-- The Lichenometer (R432 to R442). Images and log stand in its flash partition. -/
structure Meter where
  ready : Bool := false
  /-- samples taken since the meter started (R439) -/
  samples : Nat := 0
  /-- totals of the five channels since the meter started, in units of 2^−24 µJ -/
  chan : SMap Int := []
  /-- totals restored at power-up, in µJ, by register of `LCH_E_i` -/
  base : SMap Int := []
  /-- µJ attributed to partitions (0 to 3), idle accounts (4 to 7) and contexts (8 + c) -/
  acct : SMap Int := []
  /-- the whole-µJ totals of the channels at the last millisecond's boundary -/
  mark : SMap Int := []
  unclean : Bool := false
  logFull : Bool := false
  /-- the channel of the first sample out of class in the current second; seconds out of class in the interval; events
  said in it -/
  outChan : Option Nat := none
  outSecs : Nat := 0
  saidClass : Bool := false
  saidNegative : Bool := false
  /-- milliseconds of the interval that have been allocated -/
  intervalMs : Nat := 0
  evcnt : Nat := 0
  /-- the outputs of the key ladder that are delivered to the meter alone: its own key, and the key of slot 3's records -/
  key : List Byte := []
  recKey : List Byte := []
  /-- the records of slot 3 in the meter's flash partition, by copy (R327, R437) -/
  records : SMap (List Byte) := []
  params : List Byte := []
  images : SMap (List Byte) := []
  running : Nat := 0
  staged : Bool := false
  xfer : Option (Nat × List Byte) := none
  /-- log entries kept, by sequence number; the next number; and the number up to which all are acknowledged -/
  log : SMap (List Byte) := []
  seq : Nat := 0
  acked : Nat := 0
  sigs : SMap (List Byte) := []
  deriving DecidableEq, Repr

/-- The management controller (R448 to R455). -/
structure Mgmt where
  /-- last readings, by sensor ID (R450) -/
  readings : SMap Nat := []
  eid : Nat := 0
  good : Nat := 0
  dropped : Nat := 0
  /-- a live activation of image 2 is in progress -/
  restarting : Bool := false
  /-- the PTP exchange of a receiver: t2 of a Sync, t1 of its Follow_Up, t3 of a Delay_Req, and its sequence (R451) -/
  t1 : Option Nat := none
  t2 : Option Nat := none
  t3 : Option Nat := none
  ptpSeq : Nat := 0
  /-- the offset that the source's last exchange measured, in 2^−16 ns, until a sample takes it -/
  sample : Option Int := none
  /-- the tick of the last sample and its period in ns (R451) -/
  sampleAt : Nat := 0
  period : Nat := 0
  /-- the connection of Thallus's responder over MCTP, which the controller passes on unopened (R449) -/
  spdm : Spdm := {}
  deriving DecidableEq, Repr

end Sys2Proof.Machine
end

