-- ==== Sys2Proof/Machine/Shipped.lean ====
section
/-!
DEFINITION. The OTP array, the key ladder as a function of the root secret, the directory's bytes, and what a module holds
when it is shipped (13_trust_keys_attestation.md, R318, R319, R321, R322, R326, R339; log entries 27 and 117).
-/
namespace Sys2Proof.Machine

/-! OTP (R318). -/

/-- The value of a thermometer: the number of its bits that are set. -/
def thermometer (w : BitVec 64) : Nat := ((List.range 64).filter (fun k => w.getLsbD k)).length

/-- The OTP bytes of the counters of authority slot `s` and of image `i`. -/
def slotFuses (slot : Nat) : Nat := 96 + 8 * (slot - 1)
def svnFuses (i : Nat) : Nat := 160 + 8 * (i - 1)

/-- The 2,048 bytes of the array. -/
def Otp.bytes (o : Otp) : List Byte :=
  slice o.secret 0 40 ++ leBytes 8 (if o.first then 1 else 0) ++ slice o.digest 0 48
    ++ (List.range 12).flatMap (fun j => leBytes 8 (SMap.get 0 o.counters (96 + 8 * j)).toNat)
    ++ slice o.helper 0 1024 ++ leBytes 832 0

/-- The key of the PUF with the array's helper data (R319). -/
def Otp.pufKey (o : Otp) : List Byte := slice (Config.pufKey o.helper) 0 32

/-! The key ladder (R319). -/

/-- The labels of the ladder's outputs. -/
inductive LadderLabel where
  | identityRsa | identityCache | identitySlh | slotRecord (slot : Nat) | directory | sealing | capture | lichenometer
  deriving DecidableEq, Repr

def LadderLabel.name : LadderLabel → String
  | .identityRsa => "identity rsa" | .identityCache => "identity cache" | .identitySlh => "identity slh"
  | .slotRecord _ => "slot record" | .directory => "directory" | .sealing => "seal" | .capture => "capture"
  | .lichenometer => "lichenometer"

/-- The byte that follows the label, and the length of the output. -/
def LadderLabel.byte : LadderLabel → Nat
  | .slotRecord slot => slot
  | _ => 0
def LadderLabel.len : LadderLabel → Nat
  | .identityRsa | .slotRecord _ | .directory => 48
  | .identitySlh => 72
  | _ => 32

/-- Whether the output goes to the Lichenometer; every other one goes to Thallus. -/
def LadderLabel.toMeter : LadderLabel → Bool
  | .slotRecord 3 | .lichenometer => true
  | _ => false

/-- An output of the ladder for a root secret. -/
def ladderOut (rs : List Byte) (l : LadderLabel) : List Byte :=
  hkdfExpand (hkdfExtract (ascii "karfort ladder") rs) (ascii l.name ++ [BitVec.ofNat 8 l.byte]) l.len

/-- The outputs that Thallus takes and keeps, and `ask` how it gets one. -/
def LadderKeys.take (ask : LadderLabel → List Byte) : LadderKeys :=
  { slh := ask .identitySlh, cache := ask .identityCache,
    records := [1, 2, 4, 5].map (fun k => (k, ask (.slotRecord k))),
    dir := ask .directory, sealing := ask .sealing, capture := ask .capture }

/-! Identity (R322). -/

/-- The digest of a pair of public keys: RSA modulus, exponent, SLH-DSA key. -/
def keyDigest (n : List Byte) (e : Nat) (slh : List Byte) : List Byte := sha384 (n ++ leBytes 4 e ++ slh)

/-- The identity digest of a pair of primes and the seeds of the SLH-DSA key. -/
def identityDigest (pq : Nat × Nat) (slh : List Byte) : List Byte := keyDigest (rsaModulus pq) rsaE (slh192f.publicKey slh)

/-- The RSA private key encrypted for the flash: IV, ciphertext and tag over n, p and q (R321; log entry 117). -/
def cacheSeal (key iv : List Byte) (pq : Nat × Nat) : List Byte :=
  let r := gcmEncrypt key iv [] (rsaModulus pq ++ beBytes 192 pq.1 ++ beBytes 192 pq.2)
  iv ++ r.1 ++ r.2

/-- The primes of an encrypted private key, where it opens and n = p × q. -/
def cacheOpen (key c : List Byte) : Option (Nat × Nat) :=
  match gcmDecrypt key (slice c 0 12) [] ((c.drop 12).take 768) (c.drop 780) with
  | none => none
  | some m =>
    let pq := (beNat (slice m 384 192), beNat (slice m 576 192))
    if beNat (slice m 0 384) = pq.1 * pq.2 then some pq else none

/-! The directory (R339). -/

/-- The bytes over which the directory's HMAC is taken (log entry 117). -/
def Directory.bytes (d : Directory) : List Byte :=
  let field (bs : List Byte) : List Byte := leBytes 4 bs.length ++ bs
  (List.range 8).flatMap (fun k => leBytes 1 (SMap.get 0 d.states k))
    ++ [2, 3, 4, 5, 8, 9, 10, 11].flatMap (fun k => field (SMap.get [] d.records k))
    ++ leBytes 4 d.certs.length ++ d.certs.flatMap field ++ field d.cache
    ++ leBytes 4 d.policyKeys.length ++ d.policyKeys.flatMap (fun k => field k.1 ++ field k.2)
    ++ leBytes 1 d.layout ++ leBytes 1 d.ports

/-- Where copy `c` of image `i` begins in the flash. -/
def imageBase (i c : Nat) : Nat := 0x0100000 + c * 0x1800000 + (i - 1) * 0x600000

/-! As shipped. -/

/-- A slot record: the body of a key update with its MAC (R327). -/
def recordOf (key body : List Byte) : List Byte := slice body 0 512 ++ hmac384 key (slice body 0 512)

/-- The root secret of a shipped module. -/
def shippedRs : List Byte := slice Config.shippedSecret 0 32

/-- The directory as shipped: copy A of every image runs. -/
def Directory.shipped : Directory :=
  { states := [(0, 1), (2, 1), (4, 1), (6, 1)],
    records := [(3, recordOf (ladderOut shippedRs (.slotRecord 1)) (Config.shippedRecord 1))],
    certs := [Config.shippedCert 0, Config.shippedCert 1],
    cache := Config.shippedCache }

/-- Thallus as shipped: the first start done at manufacture, slots 1 and 3 at counter 1. Its digest and cache are those of
its own keys, which nothing here says: a claim that needs it takes it as a premise (log entry 27). -/
def Thallus.shipped : Thallus :=
  { otp := { secret := keyWrap (({ helper := Config.shippedHelper } : Otp).pufKey) shippedRs, first := true,
             digest := slice Config.shippedDigest 0 48, counters := [(96, 1), (112, 1)], helper := Config.shippedHelper },
    dir := Directory.shipped, dirMac := hmac384 (ladderOut shippedRs .directory) Directory.shipped.bytes,
    flash := (List.range 4).map (fun j => (imageBase (j + 1) 0, Config.shippedImage (j + 1))), cold := true }

/-- The Lichenometer as shipped: its image, its parameter block and the record of slot 3 (R326, R437, R442). -/
def Meter.shipped : Meter :=
  { params := Config.shippedParams, images := [(0, Config.shippedMeterImage)],
    records := [(1, recordOf (ladderOut shippedRs (.slotRecord 3)) (Config.shippedRecord 3))] }

end Sys2Proof.Machine
end

