-- ==== Sys2Proof/Machine/State.lean ====
section
/-!
DEFINITION. The state of the module, its reset value, and the reasons a step can stop.
-/
namespace Sys2Proof.Machine

/-- Reasons for a fault. -/
inductive Fault where
  /-- Raised by every meaning whose operand names a unit that the module does not have (a pinna, stack, link, page, port
  or context outside the ranges of R6, R352 and R392). Safe: no such unit exists, so no such event can occur. -/
  | noSuchUnit
  deriving DecidableEq, Repr

/-- Reasons for a refusal. -/
inductive Refusal where
  /-- A command whose arm of `exec` is not written yet. Safe. -/
  | notModelled (mnemonic : String)
  /-- Raised by every meaning whose event cannot occur in the state: its unit is in reset, the operation it ends has not
  begun, or the message it answers was never sent. Safe: the spec gives no effect to an event that does not occur. -/
  | notEnabled (why : String)
  deriving DecidableEq, Repr

/-- The state of the module. -/
structure State where
  /-- the commands that are waiting, first in, first out -/
  pending : List Instr := []
  /-- 200 MHz timebase cycles since PWR_OK rose (log entry 4) -/
  ticks : Nat := 0
  /-- register words that registers hold, each XORed with its reset value, under the key of `regKey` -/
  regs : SMap (BitVec 32) := []
  /-- pages whose `PAGE_CTL.lock` has been written (WL, R7), by page key -/
  wlDone : List Nat := []
  /-- the least Rhizoid cycle in which the present moment can lie: the cycles D that have been seen to pass within the
  present timebase cycle (R208; log entry 4) -/
  rhzNow : Nat := 0
  pinnae : SMap Pinna := []
  fronds : SMap Frond := []
  ctxs : SMap Context := []
  parts : SMap Partition := []
  stackTab : SMap Stack := []
  regions : SMap Region := []
  treeNet : List Tile := []
  links : SMap Link := []
  /-- the identifier that the next remote or mirror write takes (R261) -/
  nextWrite : Nat := 0
  /-- the stored partition layout and the owning port of each partition (R349, R350) -/
  layout : Nat := 1
  portOf : SMap Nat := []
  clk : Clocks := {}
  thl : Thallus := {}
  tmb : Timebase := {}
  pwr : Power := {}
  met : Meter := Meter.shipped
  mgt : Mgmt := {}
  ports : SMap Port := []
  log : EventLog := {}
  out : List Out := []
  /-- free values taken so far (log entry 5): a plain counter of the model's own -/
  freeCtr : Nat := 0
  nextJob : Nat := 0
  /-- halted by R310: the device, or partitions -/
  haltDev : Bool := false
  haltPart : SMap Bool := []
  /-- held writes of estimator slots (R176), keyed 64·p + slot: word 0 and word 1 -/
  estHeld : SMap (Option Nat × Option Nat) := []
  /-- slots whose fold has found conversions of the old step in progress (R173) -/
  estWait : SMap Bool := []
  /-- the tick at which an event limited to once in a time was last raised, by limit key, plus one -/
  rate : SMap Nat := []
  deriving DecidableEq, Repr

/-- The machine right after reset: PWR_OK has risen and the Cold reset is in force (R404, R10; log entry 3). The staging
SRAM of every stack is being zeroed (R167). -/
def State.reset : State :=
  { thl := Thallus.shipped, stackTab := (List.range 12).map (fun k => (k, { zeroing := true })) }

end Sys2Proof.Machine
end

