-- ==== Sys2Proof/Machine/Ops.lean ====
section
/-!
DEFINITION. The named operations over registers, events, messages and the event log (15_host_interface.md, R386 to
R396; 18_management_and_replay.md, R452, R453).
-/
namespace Sys2Proof.Machine

/-! Pages (R392). -/

def Page.kind : Page → PageKind
  | .top => .top | .hif _ => .hif | .fnc _ => .fnc | .thl => .thl | .mbx _ => .mbx | .lch => .lch | .clk => .clk
  | .tmb => .tmb | .pwr => .pwr | .mgt => .mgt | .prt _ => .prt | .est _ => .est | .ledger _ => .ledger
  | .rhz _ => .rhz | .mpe _ => .mpe | .rgn => .rgn | .lml _ => .lml | .fabric => .fabric | .frd _ => .frd
  | .pna _ => .pna | .ctx _ => .ctx | .mirror _ | .bell _ | .msix _ _ | .pba _ _ => .window

/-- The number under which a page's words are held. -/
def Page.id : Page → Nat
  | .top => 0 | .hif x => 1 + x | .fnc x => 3 + x | .thl => 5 | .mbx x => 6 + x | .lch => 8 | .clk => 9 | .tmb => 10
  | .pwr => 11 | .mgt => 12 | .prt p => 13 + 3 * p | .est p => 14 + 3 * p | .ledger p => 15 + 3 * p
  | .rhz s => 25 + s | .mpe s => 37 + s | .rgn => 49 | .lml l => 50 + l | .fabric => 66 | .frd f => 67 + f
  | .ctx c => 99 + c | .pna n => 131 + n
  | .mirror c => 899 + c | .bell c => 931 + c | .msix x fn => 963 + 33 * x + fn | .pba x fn => 1029 + 33 * x + fn

/-- Whether the page's instance exists. -/
def Page.exists : Page → Bool
  | .hif x | .fnc x | .mbx x => decide (x < 2)
  | .prt p | .est p | .ledger p => decide (p < 4)
  | .rhz s | .mpe s => decide (s < 12)
  | .lml l => decide (l < 16)
  | .frd f => decide (f < 32)
  | .ctx c | .mirror c | .bell c => decide (c < 32)
  | .msix x fn | .pba x fn => decide (x < 2) && decide (fn ≤ 32)
  | .pna n => decide (n < 768)
  | _ => true

/-- The type code of a page (R392). -/
def Page.type : Page → Nat
  | .top => 0x01 | .hif _ => 0x02 | .fnc _ => 0x03 | .prt _ | .est _ | .ledger _ => 0x04 | .ctx _ => 0x05
  | .frd _ => 0x06 | .pna _ => 0x07 | .rhz _ => 0x08 | .mpe _ | .rgn => 0x09 | .lml _ | .fabric => 0x0A
  | .mirror _ | .bell _ | .msix _ _ | .pba _ _ => 0
  | .thl | .mbx _ => 0x0B | .lch => 0x0C | .clk => 0x0D | .tmb => 0x0E | .pwr => 0x0F | .mgt => 0x10

/-- The instance and the group of a page (R389, R392). -/
def Page.inst : Page → Nat × Nat
  | .hif x | .fnc x => (x, 0)
  | .mbx x => (1 + x, 0)
  | .prt p => (p, 0) | .est p => (p, 1) | .ledger p => (p, 2)
  | .rhz s | .mpe s => (s, 0) | .rgn => (12, 0)
  | .lml l => (l, 0) | .fabric => (16, 0)
  | .frd f => (f, 0)
  | .ctx c => (c, 0)
  | .pna n => (n % 24, n / 24)
  | _ => (0, 0)

/-- The shared pages (R388, R391). -/
def Page.shared : Page → Bool
  | .top | .thl | .lch | .clk | .tmb | .pwr | .mgt | .rgn | .fabric => true
  | _ => false

/-- The partition that holds a quarter (R14, R349). -/
def State.partOfQuarter (s : State) (q : Nat) : Nat := q * s.layout / 4

/-- The quarter of a stack, frond, link or pinna (R14). -/
def quarterOfStack (k : Nat) : Nat := k / 3
def quarterOfFrond (f : Nat) : Nat := f / 8
def quarterOfLink (l : Nat) : Nat := l / 4
def quarterOfPinna (n : Nat) : Nat := n / 192
def frondOfPinna (n : Nat) : Nat := n / 24

/-- The partition a page belongs to, for partition pages and context pages (R388, R391, R392). -/
def Page.part (s : State) : Page → Option Nat
  | .prt p | .est p | .ledger p => some p
  | .rhz k | .mpe k => some (s.partOfQuarter (quarterOfStack k))
  | .lml l => some (s.partOfQuarter (quarterOfLink l))
  | .frd f => some (s.partOfQuarter (quarterOfFrond f))
  | .pna n => some (s.partOfQuarter (quarterOfPinna n))
  | .ctx c | .mirror c | .bell c => some (c / 8)
  | _ => none

/-- The owning port of a partition (R350). -/
def State.portOfPart (s : State) (p : Nat) : Nat := SMap.get 0 s.portOf p

/-- The owning port of a context's partition (R351). -/
def State.portOfCtx (s : State) (c : Nat) : Nat := s.portOfPart (c / 8)

/-- The header copies of a page, each with the port and the function through which it is reached (R389, R391, R394). -/
def Page.copies (s : State) (pg : Page) : List (Nat × Nat × Nat) :=
  if pg.shared then [(0, 0, 0), (1, 1, 0)]
  else match pg with
    | .hif x | .fnc x | .mbx x => [(0, x, 0)]
    | .ctx c => [(0, s.portOfCtx c, c + 1)]
    | pg => [(0, s.portOfPart ((pg.part s).getD 0), 0)]

/-! Register words. -/

/-- The key of the word at byte offset `off` of copy `cp` of a page. -/
def regKey (pg : Page) (cp off : Nat) : Nat := pg.id * 2048 + cp * 1024 + off / 4

/-- The reset value of a word (R13, and the `PAGE_VEC` of `CTX` pages, R389). -/
def Page.resetWord (pg : Page) (off : Nat) : Nat :=
  match pg, off with
  | .ctx _, 0x02C => 1
  | _, _ => (pg.kind.word off).foldl (fun n f => n + f.reset * 2 ^ f.lo) 0

/-- The header offsets held once per port on a shared page (R389). `PAGE_CTL.lock` stands in copy 0. -/
def perPort (off : Nat) : Bool := off == 0x008 || off == 0x010 || off == 0x014 || off == 0x018 || off == 0x02C

/-- The value held in a register word. -/
def State.wordAt (s : State) (pg : Page) (cp off : Nat) : Nat :=
  ((SMap.get 0#32 s.regs (regKey pg cp off)) ^^^ BitVec.ofNat 32 (pg.resetWord off)).toNat

/-- A register word set to a value. -/
def State.setWordAt (s : State) (pg : Page) (cp off v : Nat) : State :=
  { s with regs := SMap.set 0#32 s.regs (regKey pg cp off) (BitVec.ofNat 32 v ^^^ BitVec.ofNat 32 (pg.resetWord off)) }

/-- Word `off` of copy 0. -/
def State.word (s : State) (pg : Page) (off : Nat) : Nat := s.wordAt pg 0 off
def State.setWord (s : State) (pg : Page) (off v : Nat) : State := s.setWordAt pg 0 off v

/-- The `n` words from `off` on as one little-endian number. -/
def State.words (s : State) (pg : Page) (off : Nat) : Nat → Nat
  | 0 => 0
  | n + 1 => s.word pg off + 2 ^ 32 * State.words s pg (off + 4) n

/-- Bits `[hi:lo]` of a register of one or more words (00 R4). -/
def State.fld (s : State) (pg : Page) (off hi lo : Nat) : Nat := bits (s.words pg off (hi / 32 + 1)) hi lo

/-- `n` words from `off` on set from one number. -/
def State.setWords (s : State) (pg : Page) (off : Nat) : Nat → Nat → State
  | 0, _ => s
  | n + 1, v => State.setWords (s.setWord pg off (v % 2 ^ 32)) pg (off + 4) n (v / 2 ^ 32)

/-- Bits `[hi:lo]` of a register of one or more words set. -/
def State.setFld (s : State) (pg : Page) (off hi lo v : Nat) : State :=
  s.setWords pg off (hi / 32 + 1) (setBits (s.words pg off (hi / 32 + 1)) hi lo v)

/-- A 32-bit counter that saturates at 0xFFFF_FFFF (R389, and every counter of the register sections). -/
def State.bump (s : State) (pg : Page) (off : Nat) (n : Nat := 1) : State :=
  s.setWord pg off (min (s.word pg off + n) 0xFFFFFFFF)

/-! Bits that hardware sets (R8). -/

/-- The key of what hardware has lately set in a word, among the noted moments. -/
def setKey (pg : Page) (cp off : Nat) : Nat := 2 ^ 61 + regKey pg cp off

/-- The note after hardware sets the bits of `mask` in a tick: the tick, plus one, above the bits set in it. -/
def setMark (ticks old mask : Nat) : Nat :=
  (ticks + 1) * 2 ^ 32 + ((if old / 2 ^ 32 = ticks + 1 then old % 2 ^ 32 else 0) ||| mask % 2 ^ 32)

/-- Hardware has set W1C bits of a word. -/
def State.noteSet (s : State) (pg : Page) (cp off mask : Nat) : State :=
  { s with rate := SMap.set 0 s.rate (setKey pg cp off) (setMark s.ticks (SMap.get 0 s.rate (setKey pg cp off)) mask) }

/-- The bits of a word that hardware sets in the cycle of a write that comes now: of those it has set in the present tick,
which ones is open (log entry 113). -/
def State.setNow (s : State) (pg : Page) (cp off : Nat) : Nat :=
  let m := SMap.get 0 s.rate (setKey pg cp off)
  if m / 2 ^ 32 = s.ticks + 1 then (m % 2 ^ 32) &&& Config.sameCycle (regKey pg cp off) s.ticks s.freeCtr else 0

/-! Output and free values. -/

/-- One message leaves the module. -/
def State.emit (s : State) (o : Out) : State := { s with out := s.out ++ [o] }

/-- The state with `n` more free values taken. -/
def State.tookFree (s : State) (n : Nat) : State := { s with freeCtr := s.freeCtr + n }

/-- A 32-bit value that the spec leaves open (log entry 5). -/
def State.drawWord (s : State) : State × Nat := (s.tookFree 1, (Config.freeWord s.freeCtr).toNat % 2 ^ 32)

def State.port (s : State) (x : Nat) : Port := SMap.get {} s.ports x
def State.setPort (s : State) (x : Nat) (p : Port) : State := { s with ports := SMap.set {} s.ports x p }
def Port.func (p : Port) (fn : Nat) : Func := SMap.get {} p.fns fn
def Port.setFunc (p : Port) (fn : Nat) (f : Func) : Port := { p with fns := SMap.set {} p.fns fn f }
def Func.vec (f : Func) (v : Nat) : MsixVec := SMap.get {} f.vecs v
def Func.setVec (f : Func) (v : Nat) (m : MsixVec) : Func := { f with vecs := SMap.set {} f.vecs v m }

/-- An MSI-X message of a function on a vector: sent, or held in the pending bit while a mask is set (R379). -/
def State.sendMsix (s : State) (x fn v : Nat) : State :=
  let p := s.port x
  let f := p.func fn
  let m := f.vec v
  if f.msixEn = false then s
  else if f.fnMask || m.masked then s.setPort x (p.setFunc fn (f.setVec v { m with pend := true }))
  else s.emit (.msix x fn m.addr m.data)

/-! Events (R394, R395). -/

/-- Security alarms (R314; 11 R268; 15 R401). -/
def securityAlarm (code : Nat) : Bool :=
  code == 0x7003 || code == 0x7004 || code == 0x7005 || code == 0x700D || code == 0x8007 || code == 0xD006

/-- Alarms that are not security alarms (R314). -/
def plainAlarm (code : Nat) : Bool := code == 0x7002 || code == 0x7006

/-- The class of an event code (R394, R396). -/
def eventClass (code : Nat) : Nat := code / 4096

/-- Whether a header copy is pending (R395). -/
def State.pendingAt (s : State) (pg : Page) (cp : Nat) : Bool :=
  (s.wordAt pg cp 0x010) &&& (0x1FFFF ^^^ s.wordAt pg cp 0x014) != 0

/-- The page's message on `PAGE_VEC`, if PAGE_CTL.en is 1 (R395). -/
def State.pageMessage (s : State) (pg : Page) (cp x fn : Nat) : State :=
  if bit (s.wordAt pg cp 0x008) 0 then s.sendMsix x fn (s.wordAt pg cp 0x02C % 2048) else s

/-- Steps 1 and 2 of R394 on one copy, and the message of R395. -/
def State.markCopy (s : State) (pg : Page) (code : Nat) (c : Nat × Nat × Nat) : State :=
  let cp := c.1
  let old := s.wordAt pg cp 0x010
  let was := s.pendingAt pg cp
  let alarm := if securityAlarm code || plainAlarm code then 2 ^ 16 else 0
  let s1 := s.setWordAt pg cp 0x010 (old ||| 2 ^ eventClass code ||| alarm)
  let s2 := if old = 0 then s1.setWordAt pg cp 0x018 code else s1
  let s3 := s2.noteSet pg cp 0x010 (2 ^ eventClass code ||| alarm)
  if !was && s3.pendingAt pg cp then s3.pageMessage pg cp c.2.1 c.2.2 else s3

/-- The word `OWNER` of a page (R389). Only pages of pinnae and contexts name a context (DEDUCED, log entry 7). -/
def State.ownerWord (s : State) (pg : Page) : Nat :=
  let launchCtx := match pg with
    | .pna n => (SMap.get {} s.pinnae n).launch.map (fun l => l.ctx)
    | .ctx c => some c
    | _ => none
  let part := (pg.part s).getD 0
  let ctx := match launchCtx with
    | some c => c + 32
    | none => part * 8
  let x := match pg with
    | .hif x | .fnc x | .mbx x => x
    | pg => if pg.shared then 0 else s.portOfPart part
  ctx + (if pg.shared then 64 else 0) + x * 128

/-- Number of entries in the intake queue (R453). -/
def EventLog.waiting (l : EventLog) : Nat :=
  (l.intake.filter (fun i => match i with | .entry _ => true | .gap _ => false)).length

/-- One more item for the intake queue: an entry, or an addition to the gap at its end when it is full (R453). -/
def EventLog.enter (l : EventLog) (e : LogEntry) : EventLog × Bool :=
  if l.waiting < 256 then ({ l with intake := l.intake ++ [.entry e] }, true)
  else match l.intake.getLast? with
    | some (.gap n) => ({ l with intake := l.intake.dropLast ++ [.gap (n + 1)] }, false)
    | _ => ({ l with intake := l.intake ++ [.gap 1] }, false)

/-- `MGT_LOG_LOST`. -/
def regLogLost : Nat := 0x054

/-- The log's part of an event (R452, R453). -/
def State.logEvent (s : State) (pg : Page) (code a1 a2 : Nat) (missed : Bool := false) : State :=
  let flags := (if plainAlarm code then 1 else 0) + (if securityAlarm code then 2 else 0)
    + (if s.tmb.valid then 4 else 0) + (if missed then 8 else 0)
  let e : LogEntry := { time := s.tmb.ns, code := code, ptype := pg.type, inst := pg.inst.1, grp := pg.inst.2,
                        flags := flags, owner := s.ownerWord pg % 256, arg1 := a1 % 2 ^ 32, arg2 := a2 % 2 ^ 32,
                        boot := s.log.boot }
  let r := s.log.enter e
  let s1 := { s with log := r.1 }
  if r.2 then s1 else s1.bump .mgt regLogLost

/-- The key of a page's latest event among the noted moments. -/
def evtKey (pg : Page) : Nat := 2 ^ 60 + pg.id

/-- The mark of an event: its tick above, and a number that tells the events of one tick apart. -/
def evtMark (ticks last : Nat) : Nat := (ticks + 1) * 2 ^ 32 + (last + 1) % 2 ^ 32

/-- The ticks of a mark, plus one. -/
def evtTick (mark : Nat) : Nat := mark / 2 ^ 32

/-- What becomes of the count of an event: 0, it is counted; 1, the page took another event in the same 800 MHz cycle
(R394); 2, the event's crossing was not ready (R412). An event within the 5 ns of the page's latest one may meet either,
one within 2 + 2 cycles of the slowest clock (32 ticks) the crossing alone; which, is open (log entry 102). -/
def State.evtFate (s : State) (pg : Page) : Nat :=
  let last := SMap.get 0 s.rate (evtKey pg)
  if last = 0 ∨ evtTick last + 32 ≤ s.ticks then 0
  else
    let f := Config.evtFate pg.id s.ticks last % 3
    if f = 1 ∧ evtTick last ≠ s.ticks + 1 then 0 else f

/-- The count of an event on its page, or the overrun bit instead (R394, R412). -/
def State.countEvent (s : State) (pg : Page) : State :=
  let f := s.evtFate pg
  let mark := evtMark s.ticks (SMap.get 0 s.rate (evtKey pg))
  let s1 : State := { s with rate := SMap.set 0 s.rate (evtKey pg) mark }
  if f = 0 then s1.setFld pg 0x01C 30 0 (min (bits (s1.word pg 0x01C) 30 0 + 1) 0x7FFFFFFF)
  else
    let s2 := (s1.setFld pg 0x01C 31 31 1).noteSet pg 0 0x01C (2 ^ 31)
    if f = 1 then s2 else s2.bump .clk 0x064

/-- An event raised on a page (R394): class, alarm and first code on every copy, the count, and the log. -/
def State.raise (s : State) (pg : Page) (code : Nat) (a1 a2 : Nat) : State :=
  let s1 := (pg.copies s).foldl (fun s c => s.markCopy pg code c) s
  (s1.countEvent pg).logEvent pg code a1 a2 (s.evtFate pg != 0)

/-- 200 MHz cycles of a millisecond and of a second. -/
def msTicks : Nat := 200000
def secTicks : Nat := 200000000

/-- Whether an event limited to once in `span` ticks may be raised now. -/
def State.rateOpen (s : State) (key span : Nat) : Bool :=
  let t := SMap.get 0 s.rate key
  t == 0 || decide (t - 1 + span ≤ s.ticks)

/-- The moment of a limited event noted. -/
def State.rateNote (s : State) (key : Nat) : State := { s with rate := SMap.set 0 s.rate key (s.ticks + 1) }

/-- The key of a periodic task of the module among the noted moments. -/
def periodKey (task : Nat) : Nat := 0x8200 * 2 ^ 40 + task

/-- A periodic task that begins, its moment noted. -/
def State.periodNote (s : State) (task : Nat) : State := s.rateNote (periodKey task)

/-- Whether a periodic task may begin: it has not run yet, or its period in ticks has passed. -/
def State.periodOpen (s : State) (task span : Nat) : Bool := s.rateOpen (periodKey task) span

/-- An event raised at most once in `span` ticks for each `who`. -/
def State.raiseLimited (s : State) (span : Nat) (who : Nat) (pg : Page) (code a1 a2 : Nat) : State :=
  let key := code * 2 ^ 40 + pg.id * 2 ^ 20 + who
  if s.rateOpen key span then (s.rateNote key).raise pg code a1 a2 else s

/-- A FIFO cleared by handshake, by the page code of its block and the entries it discarded (R413). -/
def State.fifoCleared (s : State) (unit n : Nat) : State :=
  if n = 0 then s else (s.bump .clk 0x060 n).raise .clk 0xB003 unit n

/-- The handshakes that a Partition, Context or Link reset starts. How many FIFOs hold entries, and how many, is open
(R413; log entry 103). Only registers, messages and the log see them. -/
def State.resync (s : State) : State :=
  let t := (List.range (Config.fifos s.freeCtr)).foldl (fun u i =>
    u.fifoCleared (Config.fifoPage s.freeCtr i % 65536) (Config.fifoDropped s.freeCtr i)) s
  { s with regs := t.regs, ports := t.ports, out := t.out, log := t.log, rate := t.rate, freeCtr := s.freeCtr + 1 }

/-- Accessors of the units. -/
def State.pinna (s : State) (n : Nat) : Pinna := SMap.get {} s.pinnae n
def State.setPinna (s : State) (n : Nat) (p : Pinna) : State := { s with pinnae := SMap.set {} s.pinnae n p }
def State.frond (s : State) (f : Nat) : Frond := SMap.get {} s.fronds f
def State.setFrond (s : State) (f : Nat) (x : Frond) : State := { s with fronds := SMap.set {} s.fronds f x }
def State.ctx (s : State) (c : Nat) : Context := SMap.get {} s.ctxs c
def State.setCtx (s : State) (c : Nat) (x : Context) : State := { s with ctxs := SMap.set {} s.ctxs c x }
def State.part (s : State) (p : Nat) : Partition := SMap.get {} s.parts p
def State.setPart (s : State) (p : Nat) (x : Partition) : State := { s with parts := SMap.set {} s.parts p x }
def State.stack (s : State) (k : Nat) : Stack := SMap.get {} s.stackTab k
def State.setStack (s : State) (k : Nat) (x : Stack) : State := { s with stackTab := SMap.set {} s.stackTab k x }
def State.link (s : State) (l : Nat) : Link := SMap.get {} s.links l
def State.setLink (s : State) (l : Nat) (x : Link) : State := { s with links := SMap.set {} s.links l x }
def State.region (s : State) (r : Nat) : Region := SMap.get {} s.regions r
def State.setRegion (s : State) (r : Nat) (x : Region) : State := { s with regions := SMap.set {} s.regions r x }

/-- A refusal of an event that cannot occur. -/
def notEnabled {α φ : Type} (why : String) : Host.Outcome α φ Refusal := .refused (.notEnabled why)

end Sys2Proof.Machine
end

