-- ==== Sys2Proof/Machine/Access.lean ====
section
/-!
DEFINITION. Reachability, locks and refusals of register accesses (15_host_interface.md, R386 to R391, R401).
-/
namespace Sys2Proof.Machine

/-- The offset of a page in PF0's BAR0 (R392), or of a VF's page or window in its BAR (R376). -/
def Page.base : Page → Nat
  | .top => 0 | .hif x => 0x1000 + 0x1000 * x | .fnc x => 0x3000 + 0x1000 * x | .thl => 0x8000
  | .mbx x => 0x9000 + 0x1000 * x | .lch => 0x10000 | .clk => 0x11000 | .tmb => 0x12000 | .pwr => 0x13000
  | .mgt => 0x14000 | .prt p => 0x20000 + 0x4000 * p | .est p => 0x21000 + 0x4000 * p
  | .ledger p => 0x22000 + 0x4000 * p | .rhz s => 0x80000 + 0x1000 * s | .mpe s => 0x90000 + 0x1000 * s
  | .rgn => 0x9C000 | .lml l => 0xA0000 + 0x1000 * l | .fabric => 0xB0000 | .frd f => 0x100000 + 0x1000 * f
  | .pna n => 0x1000000 + 0x1000 * n | .ctx _ => 0
  | .mirror _ => 0x1000 | .bell _ => 0
  | .msix _ fn => if fn = 0 then 0x3F00000 else 0x2000
  | .pba _ fn => if fn = 0 then 0x3F80000 else 0x3000

/-- Whether a VF is enabled on a port, and its number is that of the owning port (R351, R374). -/
def State.vfUp (s : State) (x v : Nat) : Bool :=
  (s.port x).vfEn && decide (1 ≤ v) && decide (v ≤ (s.port x).numVfs) && s.portOfCtx (v - 1) == x

/-- Whether a requester can make accesses at all: a host through a trained port, in D0, with its function enabled, and on its IDE stream only while that is Secure (R382); the
management controller and Thallus out of a Module reset. -/
def State.canAsk (s : State) : Requester → Bool
  | .host x fn ide => decide (x < 2) && (s.port x).linkUp && !((s.port x).func fn).d3hot && (fn == 0 || s.vfUp x fn)
    && (!ide || (SMap.get {} (s.port x).ide fn).secure)
  | .mc => !s.clk.inReset
  | .thallus => !s.clk.inReset

/-- Whether a requester can reach a page (R391); the management controller reaches no window of a function (R25, R448). -/
def State.reaches (s : State) (r : Requester) (pg : Page) : Bool :=
  match r with
  | .host x 0 _ =>
    pg.shared || (match pg with
      | .hif y | .fnc y | .mbx y => y == x
      | .msix y v | .pba y v => y == x && v == 0
      | .ctx _ | .mirror _ | .bell _ => false
      | pg => match pg.part s with
        | some p => decide (p < s.layout) && s.portOfPart p == x
        | none => false)
  | .host x v _ => (pg == .ctx (v - 1) || pg == .mirror (v - 1) || pg == .bell (v - 1) || pg == .msix x v || pg == .pba x v)
    && s.portOfCtx (v - 1) == x
  | .mc => match pg with
    | .mirror _ | .bell _ | .msix _ _ | .pba _ _ => false
    | _ => true
  | .thallus => true

/-- Whether host writes through port `x` take effect on a page (R391). -/
def State.hostWrites (s : State) (x : Nat) : Page → Bool
  | .top | .thl | .clk | .pwr | .mgt => x == s.clk.mgmtPort
  | .lch | .tmb | .rgn | .fabric => false
  | _ => true

/-- The host counter `i` of a port (R398). -/
def hifCounter (i : Nat) : Nat := 0x060 + 4 * i

/-- An access-refusal event of R401: raised at most once per function in 1 ms. -/
def State.hifRefuse (s : State) (x fn code off : Nat) : State :=
  s.raiseLimited msTicks fn (.hif x) code fn off

/-- The offset that an event reports: in PF0's BAR0, or in the VF's BAR0. -/
def barOffset (pg : Page) (off : Nat) : Nat := pg.base + off

/-- A denied access (R391): counted and reported where a host made it. -/
def State.denied (s : State) (r : Requester) (pg : Page) (off : Nat) : State :=
  match r with
  | .host x fn _ => (s.bump (.hif x) (hifCounter 4)).hifRefuse x fn 0xD001 (barOffset pg off)
  | _ => s

/-- An access of a wrong size (R386). -/
def State.badSize (s : State) (r : Requester) (pg : Page) (off : Nat) : State :=
  match r with
  | .host x fn _ => (s.bump (.hif x) (hifCounter 5)).hifRefuse x fn 0xD00A (barOffset pg off)
  | _ => s

/-- The header copy through which a requester sees a page (R389); the management controller and Thallus see that of
the management port (log entry 8). -/
def State.copyFor (s : State) (r : Requester) (pg : Page) : Nat :=
  if pg.shared then (match r with
    | .host x _ _ => x
    | _ => s.clk.mgmtPort) else 0

/-- `PAGE_CTL.lock` of a page. -/
def State.lockOf (s : State) (pg : Page) : Bool := bit (s.word pg 0x008) 1

/-- Whether a locked or running TDI refuses a request to its BARs that is not on its IDE stream (R383). -/
def State.tdiRefuses (s : State) : Requester → Bool
  | .host x fn ide => fn != 0 && !ide && (match (SMap.get {} (s.port x).tdis fn).state with
    | .locked | .run => true
    | _ => false)
  | _ => false

/-- A request refused by R383: 0xD00B, at most once per function in 1 ms (R401). -/
def State.barRefuse (s : State) (r : Requester) (off : Nat) : State :=
  match r with
  | .host x fn _ => s.hifRefuse x fn 0xD00B off
  | _ => s

/-- Whether a word of the fabric page belongs to the mirror table, which is reached only through the windows of the
functions that own its contexts (R284). -/
def mirrored (pg : Page) (off : Nat) : Bool :=
  pg == .fabric && decide (Reg.LML_MIRROR ≤ off) && decide (off < Reg.LML_MIRROR + 16 * 32)

/-- Whether writes of a requester take effect on a register (R391, R448). The header copies that R389 gives to each port,
and that port's `MGT_LOG_SEL` (R462), are written through their own port (DEDUCED, log entry 37). Every field of the
meter's page is written by the meter alone (R26, R446). -/
def State.mayWrite (s : State) (r : Requester) (pg : Page) (off : Nat) : Bool :=
  pg != .lch && !mirrored pg off && (match r with
    | .host x _ _ => s.hostWrites x pg || (pg.shared && perPort off) || (pg == .mgt && off == Reg.MGT_LOG_SEL)
    | .mc => pg == .mgt || pg == .clk || pg == .pwr || pg == .tmb || (pg == .top && off == Reg.TOP_RESET)
    | .thallus => true)

/-- Whether the lock of a page binds a requester (R390). -/
def State.lockBinds (s : State) (r : Requester) (pg : Page) : Bool :=
  match r with
  | .host _ _ _ => s.lockOf pg
  | _ => false

/-- The event of a write that met a lock (R390). -/
def State.lockMet (s : State) (r : Requester) (pg : Page) (off : Nat) : State :=
  match r with
  | .host x fn _ => s.hifRefuse x fn 0xD002 (barOffset pg off)
  | _ => s

/-- A write that reaches a register: it is performed by `eff`, unless the page cannot be reached or no write of its
requester takes effect there; `locks` says that the register has RW fields alone, so that a lock leaves nothing of the
write (R383, R390, R391). -/
def State.gate (s : State) (r : Requester) (pg : Page) (off : Nat) (locks : Bool) (eff : State → State) : State :=
  if s.tdiRefuses r then s.barRefuse r (barOffset pg off)
  else if !s.reaches r pg then s.denied r pg off
  else if !s.mayWrite r pg off then s
  else if locks && s.lockBinds r pg then s.lockMet r pg off
  else eff s

/-- The meaning of a command that is a register write: refused where its sender cannot make accesses. -/
def regWrite (s : State) (r : Requester) (pg : Page) (off : Nat) (locks : Bool) (eff : State → State) :
    Host.Outcome State Fault Refusal :=
  if !pg.exists then .fault .noSuchUnit
  else if !s.canAsk r then notEnabled "the requester cannot make accesses now"
  else .next (s.gate r pg off locks eff)

end Sys2Proof.Machine
end

