-- ==== Sys2Proof/Machine/Desc.lean ====
section
/-!
DEFINITION. The fields of the tensor descriptor (06_data_movement.md, R126), read from its 64 bytes.
-/
namespace Sys2Proof.Machine

/-- A tensor descriptor with its fields under the names of R126; strides are signed, `ext` and `st` list dimensions 0 to 4
(stride 0 is 1). -/
structure Desc where
  raw : Nat
  src : Nat
  srcSpace : Nat
  sside : Bool
  dst : Nat
  dstSpace : Nat
  ovfInf : Bool
  sline : Nat
  tiled : Bool
  fmtIn : Nat
  fmtOut : Nat
  ndim : Nat
  rnd : Nat
  rule : Nat
  ssrc : Nat
  sarg : Nat
  stat : Nat
  ctx : Nat
  tag : Nat
  stream : Nat
  org : Nat
  ext : List Nat
  st : List Int
  deriving DecidableEq, Repr

/-- The descriptor that 64 bytes spell (R126). -/
def Desc.ofBytes (bs : List Byte) : Desc :=
  let d := leNat bs
  { raw := d, src := bits d 43 0, srcSpace := bits d 46 44, sside := bit d 47, dst := bits d 91 48,
    dstSpace := bits d 94 92, ovfInf := bit d 95, sline := bits d 133 96, tiled := bit d 134, fmtIn := bits d 138 135,
    fmtOut := bits d 142 139, ndim := bits d 145 143, rnd := bits d 147 146, rule := bits d 148 148,
    ssrc := bits d 150 149, sarg := bits d 158 151, stat := bits d 164 159, ctx := bits d 169 165,
    tag := bits d 185 170, stream := bits d 201 186, org := bits d 249 202,
    ext := [bits d 270 250, bits d 290 271, bits d 310 291, bits d 330 311, bits d 350 331],
    st := [1, signed 40 (bits d 391 352), signed 40 (bits d 431 392), signed 40 (bits d 471 432),
           signed 40 (bits d 511 472)] }

/-- The bits of R126 that are not listed: bit 351. -/
def Desc.reservedOk (d : Desc) : Bool := !bit d.raw 351

end Sys2Proof.Machine
end

