-- ==== Sys2Proof/Machine/Est.lean ====
section
/-!
DEFINITION. The scale estimator and the format ledger (08_training_numerics.md, R170 to R176, R184).
-/
namespace Sys2Proof.Machine

/-- Byte offset of slot `n`'s words on the estimator page (R191). -/
def estOff (n : Nat) : Nat := Reg.PRT_EST + 32 * (n - 1)

/-- Bits of slot `n` of partition `p`. -/
def State.estFld (s : State) (p n hi lo : Nat) : Nat := s.fld (.est p) (estOff n) hi lo
def State.setEst (s : State) (p n hi lo v : Nat) : State := s.setFld (.est p) (estOff n) hi lo v

/-- Whether a conversion of context `ctx` into format `fmt` may use slot `n` (R170). -/
def State.estUsable (s : State) (ctx n fmt : Nat) : Bool :=
  let p := ctx / 8
  decide (1 ≤ n) && decide (n ≤ 63) && s.estFld p n 0 0 == 1 && s.estFld p n 62 58 == ctx && s.estFld p n 4 1 == fmt

/-- Whether the slot has recorded the seed, so that a conversion under it proceeds (R173). -/
def State.estSeeded (s : State) (p n : Nat) (seed : BitVec 64) : Bool :=
  s.estFld p n 57 57 == 1 && s.estFld p n 255 192 == seed.toNat

/-- Saturation at the limits of a 24-bit signed field. -/
def sat24 (i : Int) : Int := max (-(2 ^ 23 : Int)) (min i (2 ^ 23 - 1))

/-- The value obs of a largest magnitude m·2^e > 0 (R172). -/
def estObs (m : Nat) (e : Int) : Int :=
  let L := log2 m
  256 * ((L : Int) + e) + ceilDiv (256 * (m - 2 ^ L)) (2 ^ L)

/-- What a conversion contributes to a slot's observation (R172). A recomputation under the same seed contributes again: its
saturations are added and the maximum stays as it is (R186). -/
def State.estObserve (s : State) (p n : Nat) (a : Nat × Int) (sat : Nat) : State :=
  let s := s.setEst p n 159 128 (min (s.estFld p n 159 128 + sat) 0xFFFFFFFF)
  if a.1 = 0 then s
  else
    let o := sat24 (estObs a.1 a.2)
    let old := signed 24 (s.estFld p n 119 96)
    if s.estFld p n 120 120 = 1 ∧ o ≤ old then s
    else (s.setEst p n 119 96 (ofSigned 24 o)).setEst p n 120 120 1

/-- A strict retry noted in the slot (R175). -/
def State.estRetry (s : State) (p n : Nat) : State :=
  s.setEst p n 191 160 (min (s.estFld p n 191 160 + 1) 0xFFFFFFFF)

/-- The threshold t of R174. -/
def estT (fmt : Nat) : Int :=
  match fmt with
  | 4 | 5 | 6 => 192
  | 7 => 224
  | 8 => 128
  | 9 => 252
  | _ => 255

/-- Held writes put into force (R176). -/
def State.estApplyHeld (s : State) (p n : Nat) : State :=
  let h := SMap.get (none, none) s.estHeld (64 * p + n)
  let s1 := match h.1 with
    | some w => (((s.setEst p n 4 1 (bits w 4 1)).setEst p n 7 5 (bits w 7 5)).setEst p n 8 8 (bits w 8 8)).setEst
        p n 23 16 (bits w 23 16)
    | none => s
  let s2 := match h.2 with
    | some w => s1.setEst p n 47 32 (bits w 15 0)
    | none => s1
  { s2 with estHeld := SMap.set (none, none) s2.estHeld (64 * p + n) (none, none) }

/-- The fold of R174 on slot `n` of partition `p`. -/
def State.estFold (s0 : State) (p n : Nat) : State :=
  let s := s0.estApplyHeld p n
  let lo : Int := s.estFld p n 39 32
  let hi : Int := min (s.estFld p n 47 40) 0xFE
  let decay : Int := s.estFld p n 23 16
  let head : Int := s.estFld p n 7 5
  let fmt := s.estFld p n 4 1
  let code : Int := s.estFld p n 55 48
  let obsValid := s.estFld p n 120 120 == 1
  let obs := signed 24 (s.estFld p n 119 96)
  let estValid := s.estFld p n 56 56 == 1
  let est0 := signed 24 (s.estFld p n 87 64)
  let est := if obsValid then (if estValid then max obs (est0 - decay) else obs)
             else if estValid then est0 - decay else est0
  let est := max est (-(2 ^ 23 : Int))
  let valid := obsValid || estValid
  let emax : Int := ((Fmt.ofCode fmt).map Fmt.emax).getD 0
  let e := est / 256 - emax + head + (if est % 256 > estT fmt then 1 else 0)
  let want0 := if valid then e + 127 else code
  let pressed := decide (0 < s.estFld p n 159 128) || decide (0 < s.estFld p n 191 160)
  let raisedUp := pressed && decide (code + 1 > want0)
  let want := if raisedUp then code + 1 else want0
  let new := max (min (min (max want lo) hi) 254) 0
  let s1 := if raisedUp then s.raise (.est p) 0x1103 n new.toNat else s
  let s2 := if new ≠ want then s1.raise (.est p) 0x1102 n (ofSigned 32 want) else s1
  let s3 := ((s2.setEst p n 55 48 new.toNat).setEst p n 87 64 (ofSigned 24 est)).setEst p n 56 56 (if valid then 1 else 0)
  let s4 := ((s3.setEst p n 120 120 0).setEst p n 159 128 0).setEst p n 191 160 0
  s4.bump (.est p) Reg.PRT_EST_FOLDS

/-- The effect of an accepted write of a slot's words 0 and 1 (R176): `w0` and `w1` are the words written, if any. -/
def State.estWrite (s : State) (p n : Nat) (w0 w1 : Option Nat) : State :=
  let was := s.estFld p n 0 0 == 1
  let badFmt := match w0 with
    | some w => decide (bits w 4 1 < 4) || decide (10 < bits w 4 1)
    | none => false
  let badBound := match w1 with
    | some w => decide (min (bits w 15 8) 0xFE < bits w 7 0)
    | none => false
  if badFmt then s.raise (.est p) 0x1108 n (w0.getD 0)
  else if badBound then s.raise (.est p) 0x1108 n (w1.getD 0)
  else
    let will := match w0 with
      | some w => bit w 0
      | none => was
    let held := SMap.get (none, none) s.estHeld (64 * p + n)
    let s1 := { s with estHeld := SMap.set (none, none) s.estHeld (64 * p + n)
                                   ((w0 <|> held.1), (w1 <|> held.2)) }
    let s2 := match w0 with
      | some w => (s1.setEst p n 31 24 (bits w 31 24)).setEst p n 0 0 (if will then 1 else 0)
      | none => s1
    let s3 := match w1 with
      | some w => s2.setEst p n 62 58 (bits w 30 26)
      | none => s2
    -- in force at once unless the slot stays enabled (log entry 9)
    let s4 := if was && will then s3 else s3.estApplyHeld p n
    if !was && will then
      let code := min (min (max (s4.estFld p n 31 24) (s4.estFld p n 39 32)) (s4.estFld p n 47 40)) 0xFE
      (((s4.setEst p n 55 48 code).setEst p n 57 56 0).setEst p n 120 120 0).setEst p n 191 128 0
    else s4

/-- A write of an estimator slot: of its word `word` alone (4 bytes), or of that word and the next (8 bytes). -/
def execEstSlotWrite (r : Requester) (p slot word len value : Nat) (s : State) : Host.Outcome State Fault Refusal :=
  if ¬ (1 ≤ slot ∧ slot ≤ 63 ∧ word < 8) then .fault .noSuchUnit
  else
    regWrite s r (.est p) (estOff slot + 4 * word) true (fun s =>
      if len ≠ 4 ∧ ¬ (len = 8 ∧ word % 2 = 0) then s.badSize r (.est p) (estOff slot + 4 * word)
      else if word = 0 then
        s.estWrite p slot (some (value % 2 ^ 32)) (if len = 8 then some (value / 2 ^ 32 % 2 ^ 32) else none)
      else if word = 1 then s.estWrite p slot none (some (value % 2 ^ 32))
      else s)

/-! The format ledger (R184). -/

/-- What a set of written elements adds to a ledger entry and a statistics slot. -/
structure Wrote where
  elem : Nat := 0
  zero : Nat := 0
  sat : Nat := 0
  flush : Nat := 0
  nonfin : Nat := 0
  nse : Nat := 0
  deriving DecidableEq, Repr

/-- Two such sums together. -/
def Wrote.add (a b : Wrote) : Wrote :=
  { elem := a.elem + b.elem, zero := a.zero + b.zero, sat := a.sat + b.sat, flush := a.flush + b.flush,
    nonfin := a.nonfin + b.nonfin, nse := a.nse + b.nse }

/-- One element written with code `c` in format `f` and decided as `k` (R141, R184). -/
def Wrote.one (f : Fmt) (c : Nat) (k : Kind) (nanBlk : Bool) (nse : Nat) : Wrote :=
  let v := decodeElem f c
  { elem := 1,
    zero := if !nanBlk && !v.nonFinite && v.asInt.1 == 0 then 1 else 0,
    sat := if k == .saturated then 1 else 0,
    flush := if k == .flushed then 1 else 0,
    nonfin := if nanBlk || v.nonFinite then 1 else 0,
    nse := nse }

/-- The ledger entry of context `ctx` and format code `f` after what was written (R184). -/
def State.ledgerAdd (s : State) (ctx f : Nat) (w : Wrote) : State :=
  let pg := Page.ledger (ctx / 8)
  let o := Reg.PRT_LEDGER + 0x1A0 * (ctx % 8) + 0x20 * f
  let add (s : State) (k n : Nat) : State :=
    if n = 0 then s
    else s.setFld pg (o + 8 * k) 63 0 (min (s.fld pg (o + 8 * k) 63 0 + n) 0xFFFFFFFFFFFFFFFF)
  add (add (add (add s 0 w.elem) 1 w.sat) 2 w.flush) 3 w.nonfin

end Sys2Proof.Machine
end

