-- ==== Sys2Proof/Machine/Pinna.lean ====
section
/-!
DEFINITION. A pinna's registers, groups and instruction fields, and the counts of its LAUNCH
(03_matrix_and_accumulation.md, R58 to R60; 02_number_formats.md, R54 to R57).
-/
namespace Sys2Proof.Machine

/-! Commands of a context, as far as pinnae and engines report to them. -/

/-- The job with a given number in a list. -/
def findJob (js : List Job) (id : Nat) : Option Job := js.find? (fun j => j.id == id)

/-- The started command with number `id` and its context. -/
def State.job (s : State) (id : Nat) : Option (Nat × Job) :=
  s.ctxs.findSome? (fun c => (findJob c.2.jobs id).map (fun j => (c.1, j)))

/-- A started command of context `c` changed. -/
def State.updJob (s : State) (c id : Nat) (f : Job → Job) : State :=
  s.setCtx c { s.ctx c with jobs := (s.ctx c).jobs.map (fun j => if j.id = id then f j else j) }

/-! Registers and words. -/

def Pinna.sreg (p : Pinna) (i : Nat) : BitVec 32 := SMap.get 0#32 p.sregs i
def Pinna.setS (p : Pinna) (i : Nat) (v : BitVec 32) : Pinna := { p with sregs := SMap.set 0#32 p.sregs i v }
def Pinna.areg (p : Pinna) (i : Nat) : BitVec 24 := SMap.get 0#24 p.aregs i
def Pinna.setA (p : Pinna) (i : Nat) (v : BitVec 24) : Pinna := { p with aregs := SMap.set 0#24 p.aregs i v }
def Pinna.group (p : Pinna) (g : Nat) : Group := SMap.get {} p.groups g
def Pinna.setGroup (p : Pinna) (g : Nat) (x : Group) : Pinna := { p with groups := SMap.set {} p.groups g x }

/-- The instruction at the program counter. -/
def Pinna.fetch (p : Pinna) : Nat := (SMap.get 0#64 p.imem p.pc).toNat

/-- Fields of control and scalar instructions (R60). -/
def fOp (w : Nat) : Nat := bits w 63 56
def fD (w : Nat) : Nat := bits w 55 51
def fA (w : Nat) : Nat := bits w 50 46
def fB (w : Nat) : Nat := bits w 45 41
def fSub (w : Nat) : Nat := bits w 40 32
def fImm (w : Nat) : Nat := bits w 31 0

/-- The page of a pinna. -/
def pnaPage (n : Nat) : Page := .pna n

/-- The partition of a pinna. -/
def State.pinnaPart (s : State) (n : Nat) : Nat := s.partOfQuarter (quarterOfPinna n)

/-- Whether a security alarm has halted the device or the partition (R310). -/
def State.haltedPart (s : State) (p : Nat) : Bool := s.haltDev || SMap.get false s.haltPart p

/-- Whether the sequencer can issue: the pinna runs a LAUNCH and is not waiting in a tree. -/
def State.pinnaRuns (s : State) (n : Nat) : Bool :=
  let p := s.pinna n
  decide (n < 768) && p.launch.isSome && p.seq == .running && !p.zeroing && !s.haltedPart (s.pinnaPart n)

/-! Numeric events and counts of the running LAUNCH (R54 to R57). -/

/-- The counts of a LAUNCH so far: those of its ended pinnae, which its command holds, and of those that run. -/
def State.launchTally (s : State) (l : Launch) : Tally :=
  s.pinnae.foldl (fun t x => match x.2.launch with
    | some k => if k.job = l.job then t.plus x.2.tally else t
    | none => t) (match s.job l.job with
    | some (_, j) => j.tally
    | none => {})

/-- A tally of a pinna's instruction added to its counts; events not yet raised for the command are raised on its
page, 0x1004 where a count of the whole command reaches the cap (R54 to R57). -/
def State.pinnaTally (s : State) (n : Nat) (t : Tally) : State :=
  let p := s.pinna n
  let base := match p.launch with
    | some l => s.launchTally l
    | none => p.tally
  let j := (p.tally.join (base.withCap t)).capped
  let new := j.events.drop p.tally.events.length
  new.foldl (fun s e => s.raise (pnaPage n) e.1 e.2.1 e.2.2) (s.setPinna n { p with tally := j })

def QEntry.s (q : QEntry) (i : Nat) : Nat := (SMap.get 0#32 q.sregs i).toNat
def QEntry.a (q : QEntry) (i : Nat) : Nat := (SMap.get 0#24 q.aregs i).toNat

/-- The size of the scratchpad (R120). -/
def spadSize : Nat := 786432

/-- Whether a run of bytes lies in the scratchpad. -/
def inSpad (a n : Nat) : Bool := n == 0 || decide (a + n ≤ spadSize)

/-- Whether two runs of bytes intersect. -/
def cross (a n b m : Nat) : Bool := decide (0 < n) && decide (0 < m) && decide (a < b + m) && decide (b < a + n)

end Sys2Proof.Machine
end

