-- ==== Sys2Proof/Machine/Ecc.lean ====
section
/-!
DEFINITION. The symbol code of a stored line (07_memory_and_rhizoids.md, R150): Reed-Solomon (72, 68) over GF(2^8).
-/
namespace Sys2Proof.Machine

/-- Multiplication by α in GF(2^8) with the field polynomial 0x11D. -/
def gfDouble (a : Nat) : Nat := if a < 128 then 2 * a else (2 * a) % 256 ^^^ 0x1D

/-- The product in GF(2^8). -/
def gfMul (a b : Nat) : Nat :=
  (List.range 8).foldl (fun (x : Nat × Nat) i => (if b.testBit i then x.1 ^^^ x.2 else x.1, gfDouble x.2)) (0, a) |>.1

/-- α^k. -/
def gfPow : Nat → Nat
  | 0 => 1
  | k + 1 => gfDouble (gfPow k)

/-- An error pattern: the symbols in error with the value XORed onto each. -/
abbrev ErrPat := List (Nat × Nat)

/-- The pattern with one more symbol disturbed; equal disturbances cancel. -/
def ErrPat.flip (e : ErrPat) (sym x : Nat) : ErrPat := SMap.set 0 e sym (SMap.get 0 e sym ^^^ x)

/-- The syndrome S_i of a pattern: Σ e_j·α^(i·(71 − j)). -/
def ErrPat.syndrome (e : ErrPat) (i : Nat) : Nat :=
  e.foldl (fun t x => t ^^^ gfMul x.2 (gfPow (i * (71 - x.1) % 255))) 0

/-- A pattern applied to stored symbols. -/
def ErrPat.apply (e : ErrPat) (c : List Byte) : List Byte := e.foldl (fun c x => c.modify x.1 (· ^^^ BitVec.ofNat 8 x.2)) c

/-- The pattern that turns one string of symbols into another of the same length. -/
def ErrPat.between (a b : List Byte) : ErrPat :=
  (List.zipWith (· ^^^ ·) a b).zipIdx.filterMap (fun x => if x.1 = 0#8 then none else some (x.2, x.1.toNat))

/-- Whether a pattern touches symbols below `n`. -/
def ErrPat.below (e : ErrPat) (n : Nat) : Bool := e.any (fun x => decide (x.1 < n))

/-- The coefficients of (x − α^0)(x − α^1)(x − α^2)(x − α^3) below x^4, highest first. -/
def eccGen : List Nat :=
  ((List.range 4).foldl (fun (p : List Nat) i =>
    List.zipWith (· ^^^ ·) (p ++ [0]) (0 :: p.map (fun c => gfMul c (gfPow i)))) [1]).tail

/-- The check symbols c68 to c71 of 68 symbols (R150): the remainder of the division by the generator. -/
def eccCheck (c : List Byte) : List Byte :=
  (c.foldl (fun (r : List Nat) b =>
    let f := r.headD 0 ^^^ b.toNat
    List.zipWith (· ^^^ ·) (r.tail ++ [0]) (eccGen.map (fun g => gfMul f g))) [0, 0, 0, 0]).map (BitVec.ofNat 8)

/-- The 72 symbols of a line with its 68 data and MAC bytes (R149, R150). -/
def codeword (c : List Byte) : List Byte := c ++ eccCheck c

/-- What the decoder answers (R150, R151), with the error pattern that its output still carries. -/
inductive Decoded where
  | clean (left : ErrPat)
  | corrected (left : ErrPat)
  | uncorrectable
  deriving DecidableEq, Repr

/-- The decoder: syndromes all zero are clean; syndromes of one erroneous symbol are corrected at that symbol; every
other line is uncorrectable. The code is linear, so the syndromes of a stored line are those of the pattern in which it
differs from the codeword that was written. -/
def decodeLine (e : ErrPat) : Decoded :=
  let s0 := e.syndrome 0
  let s1 := e.syndrome 1
  let s2 := e.syndrome 2
  let s3 := e.syndrome 3
  if s0 = 0 ∧ s1 = 0 ∧ s2 = 0 ∧ s3 = 0 then .clean e
  else
    match (List.range 72).find? (fun j =>
        s0 != 0 && gfMul s0 (gfPow (71 - j)) == s1 && gfMul s1 (gfPow (71 - j)) == s2 && gfMul s2 (gfPow (71 - j)) == s3) with
    | some j => .corrected (e.flip j s0)
    | none => .uncorrectable

end Sys2Proof.Machine
end

