-- ==== Sys2Proof/Machine/Regions.lean ====
section
/-!
DEFINITION. Regions, the geometry of their metadata, the subkeys of an MPE, and what a stored line holds: ciphertext, MAC,
counters, tags, digests and check symbols (07_memory_and_rhizoids.md, R149, R150; 12_memory_protection.md, R286, R287,
R292, R294, R295, R297 to R299, R307).
-/
namespace Sys2Proof.Machine

/-- Lines of a 2 MiB unit, and lines of a stack. -/
def unitLines : Nat := 32768
def stackLines : Nat := 2 ^ 31

/-! Regions (R286, R287). -/

def Region.has (r : Region) (k : Nat) : Bool := r.inStacks.testBit k
def Region.live (r : Region) : Bool := r.state != .free

/-- Whether a line lies in the data range, or in the metadata window, of a region of the stack. -/
def Region.covers (r : Region) (k line : Nat) : Bool :=
  r.live && r.has k && decide (r.base ≤ line / unitLines) && decide (line / unitLines ≤ r.limit)
def Region.metaCovers (r : Region) (k line : Nat) : Bool :=
  r.live && r.tree && r.has k && decide (r.mbase ≤ line / unitLines) && decide (line / unitLines ≤ r.mlimit)

/-- The region that a line lies in. -/
def State.regionAt (s : State) (k line : Nat) : Option Nat :=
  (List.range 64).find? (fun r => (s.region r).covers k line)
def State.metaAt (s : State) (k line : Nat) : Option Nat :=
  (List.range 64).find? (fun r => (s.region r).metaCovers k line)

/-! Tree-mode metadata (R297). -/

/-- Line counts of the tree levels of a stack's part of a region, level 0 first, up to the last level in DRAM. -/
def treeLevels (c0 : Nat) : Nat → List Nat
  | 0 => [c0]
  | fuel + 1 => if c0 ≤ 8 then [c0] else c0 :: treeLevels (ceilDiv c0 8) fuel

/-- The geometry of a region's metadata in a stack: data lines, and the first line and line count of each level. -/
structure TreeGeo where
  data0 : Nat
  n : Nat
  tag0 : Nat
  levels : List (Nat × Nat)
  deriving DecidableEq, Repr

def Region.geo (r : Region) : TreeGeo :=
  let n := (r.limit - r.base + 1) * unitLines
  let w := r.mbase * unitLines
  let cs := treeLevels (n / 8) 12
  let starts := cs.tail.foldl (fun (x : Nat × List (Nat × Nat)) c => (x.1 + c, x.2 ++ [(x.1, c)])) (w + n / 4, [])
  { data0 := r.base * unitLines, n := n, tag0 := w + n / 8, levels := (w, n / 8) :: starts.2 }

/-- The tree path of data line `line`: the counter line, then its ancestors in DRAM. -/
def TreeGeo.path (g : TreeGeo) (line : Nat) : List Nat :=
  ((g.levels.foldl (fun (x : Nat × List Nat) l => (x.1 / 8, x.2 ++ [l.1 + x.1])) ((line - g.data0) / 8, [])).2)

/-- The tag line of a data line. -/
def TreeGeo.tagLine (g : TreeGeo) (line : Nat) : Nat := g.tag0 + (line - g.data0) / 8

/-- The level and index of a metadata line among the tree levels. -/
def TreeGeo.levelOf (g : TreeGeo) (m : Nat) : Option (Nat × Nat) :=
  (g.levels.zipIdx).findSome? (fun x => if x.1.1 ≤ m ∧ m < x.1.1 + x.1.2 then some (x.2, m - x.1.1) else none)

/-- The parent line of a metadata line, if it lies in DRAM; tag lines have none. -/
def TreeGeo.parent (g : TreeGeo) (m : Nat) : Option Nat :=
  match g.levelOf m with
  | some (j, i) => (g.levels[j + 1]?).map (fun l => l.1 + i / 8)
  | none => none

/-- A level's index with the line of its ancestor at that level, from level `j` up. -/
def TreeGeo.above (g : TreeGeo) (m : Nat) : List Nat :=
  match g.levelOf m with
  | some (j, i) =>
    ((g.levels.drop j).foldl (fun (x : Nat × List Nat) l => (x.1 / 8, x.2 ++ [l.1 + x.1])) (i, [])).2
  | none => []

/-- The last data line that a counter or tree line covers. -/
def TreeGeo.lastCovered (g : TreeGeo) (j i : Nat) : Nat := g.data0 + min g.n ((i + 1) * 8 ^ (j + 1)) - 1

/-! Subkeys (R292). -/

/-- The subkeys of a region key. -/
def KeySet.derive (key : List Byte) (r epoch : Nat) : KeySet :=
  let prk := hkdfExtract (ascii "karfort mpe") key
  let sub (label : String) : List Byte := hkdfExpand prk (ascii label ++ leBytes 1 r ++ leBytes 4 epoch) 32
  { epoch := epoch, xd := sub "xts data", xt := sub "xts tweak", km := sub "native mac", kc := sub "tree ctr",
    kt := sub "tree tag", kn := sub "tree node" }

/-- The keys that apply to a data line (R307). -/
def RegionKeys.at (q : RegionKeys) (line : Nat) : KeySet :=
  match q.old with
  | none => q.cur
  | some o => if line < q.bound then q.cur else o

/-- The keys that authenticate line `i` of level `j` (R307): the new ones once every data line it covers lies below b. -/
def RegionKeys.node (q : RegionKeys) (g : TreeGeo) (j i : Nat) : KeySet := q.at (g.lastCovered j i)

/-! Native lines (R294, R295). -/

/-- The tweak value T as 16 bytes little-endian. -/
def tweak (k line epoch : Nat) : List Byte := leBytes 16 (line + k * 2 ^ 31 + epoch * 2 ^ 64)

/-- The MAC of a ciphertext. -/
def KeySet.mac (q : KeySet) (k line : Nat) (ct : List Byte) : List Byte :=
  (cmac q.km (ct ++ tweak k line q.epoch)).take 4

/-- Ciphertext and MAC of a line. -/
def KeySet.native (q : KeySet) (k line : Nat) (bs : List Byte) : List Byte :=
  let ct := xtsEncrypt q.xd q.xt (tweak k line q.epoch) bs
  ct ++ q.mac k line ct

/-- Plaintext of ciphertext and MAC as read; none where the MAC differs. -/
def KeySet.openNative (q : KeySet) (k line : Nat) (c : List Byte) : Option (List Byte) :=
  let ct := c.take 64
  if q.mac k line ct = (c.drop 64).take 4 then some (xtsDecrypt q.xd q.xt (tweak k line q.epoch) ct) else none

/-! Tree-mode lines (R298, R299). -/

/-- A line XORed with the keystream of counter `ctr`: block j with AES-256(Kc, B_j). -/
def KeySet.stream (q : KeySet) (k line ctr : Nat) (bs : List Byte) : List Byte :=
  let rks := aesRoundKeys q.kc
  xorBytes bs ((List.range 4).flatMap (fun j =>
    aesEncryptWith aesTable rks (leBytes 8 ctr ++ leBytes 8 (line + k * 2 ^ 31 + j * 2 ^ 35))))

/-- The tag of a ciphertext. -/
def KeySet.tag (q : KeySet) (k line ctr : Nat) (ct : List Byte) : List Byte :=
  (cmac q.kt (ct ++ tweak k line q.epoch ++ leBytes 8 ctr)).take 8

/-- The digest of a line with contents `x` at stack offset 64·`line` on level `j`. -/
def KeySet.digest (q : KeySet) (x : List Byte) (line j : Nat) : List Byte :=
  (cmac q.kn (x ++ leBytes 8 (64 * line) ++ leBytes 8 j)).take 8

/-! What DRAM holds (R149, R297). -/

/-- The 64 bytes of a line that the MPE last wrote, as plaintext. -/
def Stack.bytes (x : Stack) (line : Nat) : List Byte := Mem.read x.mem (64 * line) 64

def Stack.ctr (x : Stack) (line : Nat) : Nat := SMap.get 0 x.ctrs line
def Stack.errOf (x : Stack) (line : Nat) : ErrPat := SMap.get [] x.err line
def Stack.keySlot (x : Stack) (r : Nat) : RegionKeys := SMap.get {} x.keys r

/-- Counter line `i` of a region. -/
def Stack.ctrBytes (x : Stack) (g : TreeGeo) (i : Nat) : List Byte :=
  (List.range 8).flatMap (fun n => leBytes 8 (x.ctr (g.data0 + 8 * i + n)))

/-- The tag of a data line; a line whose counter is 0 has none (R298). -/
def Stack.tagOf (x : Stack) (k : Nat) (q : RegionKeys) (line : Nat) : List Byte :=
  let c := x.ctr line
  if c = 0 then List.replicate 8 0#8
  else (q.at line).tag k line c ((q.at line).stream k line c (x.bytes line))

/-- Tag line `i` of a region. -/
def Stack.tagBytes (x : Stack) (k : Nat) (q : RegionKeys) (g : TreeGeo) (i : Nat) : List Byte :=
  (List.range 8).flatMap (fun n => x.tagOf k q (g.data0 + 8 * i + n))

/-- Line `i` of level `j` of a region's tree: counters, or digests of the level below. -/
def Stack.nodeBytes (x : Stack) (q : RegionKeys) (g : TreeGeo) : Nat → Nat → List Byte
  | 0, i => x.ctrBytes g i
  | j + 1, i =>
    let l := g.levels.getD j (0, 0)
    (List.range 8).flatMap (fun n =>
      let m := 8 * i + n
      if m < l.2 then (q.node g j m).digest (Stack.nodeBytes x q g j m) (l.1 + m) j else List.replicate 8 0#8)

/-- Slot `i` of a region's root store: the digest of line `i` of the last level in DRAM (R297, R301). -/
def Stack.root (x : Stack) (q : RegionKeys) (g : TreeGeo) (i : Nat) : List Byte :=
  let h := g.levels.length - 1
  (q.node g h i).digest (x.nodeBytes q g h i) ((g.levels.getD h (0, 0)).1 + i) h

/-- The 72 symbols that the MPE wrote to a line: data, side-band MAC and check symbols. Lines that no key covers hold the
bytes themselves; those of a zeroed line are all 0 (R306). What is left of a region after its keys were destroyed has no
reader (R288, R293) and is not kept. -/
def State.writtenLine (s : State) (k line : Nat) : List Byte :=
  let x := s.stack k
  match s.metaAt k line, s.regionAt k line with
  | some r, _ =>
    let g := (s.region r).geo
    let q := x.keySlot r
    codeword ((match g.levelOf line with
      | some (j, i) => x.nodeBytes q g j i
      | none => if g.tag0 ≤ line ∧ line < g.tag0 + g.n / 8 then x.tagBytes k q g (line - g.tag0) else List.replicate 64 0#8)
      ++ List.replicate 4 0#8)
  | none, some r =>
    let q := (x.keySlot r).at line
    if x.keySlot r = {} then codeword (x.bytes line ++ List.replicate 4 0#8)
    else if (s.region r).tree then codeword (q.stream k line (x.ctr line) (x.bytes line) ++ List.replicate 4 0#8)
    else codeword (q.native k line (x.bytes line))
  | none, none => codeword (x.bytes line ++ List.replicate 4 0#8)

/-- The 72 symbols that a line of DRAM holds. -/
def State.storedLine (s : State) (k line : Nat) : List Byte := ((s.stack k).errOf line).apply (s.writtenLine k line)

end Sys2Proof.Machine
end

