-- ==== Sys2Proof/Machine/MemPath.lean ====
section
/-!
DEFINITION. Lines of a stack behind the symbol code and the memory-protection engine: the checks of a request, the
metadata of tree mode and its cache, the outcome of a read, escalation, and the reads and writes of byte runs
(07_memory_and_rhizoids.md, R147 to R152; 12_memory_protection.md, R286 to R310).
-/
namespace Sys2Proof.Machine

/-- Whether a requester class is admitted (R289). -/
def classAdmits (cls : Nat) (sealedR write : Bool) : Bool :=
  match cls with
  | 0 => !sealedR
  | 1 => !sealedR && !write
  | 2 => true
  | 3 => sealedR && write
  | 4 => sealedR && !write
  | 5 => true
  | 6 => true
  | _ => false

/-- The MPE counters (R312). -/
def mpeCounter (i : Nat) : Nat := 0x048 + 4 * i

/-- A code of R288 raised at most once per requesting context and region in 1 ms. -/
def State.raiseAccess (s : State) (k ctx rgn code a1 a2 : Nat) : State :=
  let key := code * 2 ^ 40 + 2 ^ 39 + ctx * 128 + rgn
  if s.rateOpen key msTicks then (s.rateNote key).raise (.mpe k) code a1 a2 else s

/-- A request refused by R288: counted, and reported where its row has a code. -/
def State.refuseLine (s : State) (k ctx rgn code a1 line : Nat) : State :=
  let s1 := s.bump (.mpe k) (mpeCounter 4)
  if code = 0 then s1 else s1.raiseAccess k ctx rgn code a1 line

/-- The checks of R288: the region of an admitted request, or the state after the refusal. -/
def State.checkLine (s : State) (k line cls ctx : Nat) (write : Bool) : Except State Nat :=
  if s.haltedPart (s.partOfQuarter (quarterOfStack k)) then .error (s.bump (.mpe k) (mpeCounter 4))
  else if (s.metaAt k line).isSome then .error (s.refuseLine k ctx 64 0x7008 (ctx % 32 + k * 256) line)
  else match s.regionAt k line with
    | none => .error (s.refuseLine k ctx 64 0x7008 (ctx % 32 + k * 256) line)
    | some r =>
      let g := s.region r
      let denied (reason : Nat) : Except State Nat :=
        .error (s.refuseLine k ctx r 0x7009 (r + k * 256 + cls * 4096 + reason * 65536) line)
      if g.state = .fenced then .error (s.refuseLine k ctx r 0 0 line)
      else if g.state = .init ∨ g.state = .zeroing then denied 1
      else if cls ≠ 6 ∧ g.owner ≠ ctx then denied 2
      else if !classAdmits cls g.sealedBit write then denied 3
      else .ok r

/-! Decoding. -/

/-- `RHZ_ECC_UNCORR` and `RHZ_ECC_LAST` (R151). -/
def State.noteUncorrectable (s : State) (k line : Nat) : State :=
  (s.bump (.rhz k) Reg.RHZ_ECC_UNCORR).setWord (.rhz k) Reg.RHZ_ECC_LAST (line + 2 ^ 31)

/-- A corrected line: counted, and its write-back becomes due (R151, R152). -/
def State.noteCorrected (s : State) (k line : Nat) (left : ErrPat) : State :=
  let x := s.stack k
  let due := x.writeback.filter (fun a => a.1 ≠ line) ++ [(line, left)]
  (s.setStack k { x with writeback := due }).bump (.rhz k) Reg.RHZ_ECC_CORR

/-- A decode for a read of the line: the counts of R151, and the pattern that remains. -/
def State.decode (s : State) (k line : Nat) : State × Option ErrPat :=
  match decodeLine ((s.stack k).errOf line) with
  | .clean e => (s, some e)
  | .corrected e => (s.noteCorrected k line e, some e)
  | .uncorrectable => (s.noteUncorrectable k line, none)

/-! Fencing and escalation (R293, R309, R310). -/

/-- The metadata lines of a region dropped from the caches of its stacks. -/
def State.dropMeta (s : State) (r : Nat) : State :=
  let g := s.region r
  (List.range 12).foldl (fun s k =>
    if g.has k && g.tree then
      let x := s.stack k
      let keep := (x.cache.map (fun e => (e.1, e.2.filter (fun c => !g.metaCovers k c.line)))).filter (fun e => !e.2.isEmpty)
      s.setStack k { x with cache := keep }
    else s) s

/-- A sweep of a region abandoned in every stack (R293). -/
def State.dropSweeps (s : State) (r : Nat) : State :=
  (List.range 12).foldl (fun s k =>
    let x := s.stack k
    if x.sweeps.any (fun w => w.region == r) || x.sweep.any (fun w => w.region == r) then
      s.setStack k { x with sweeps := x.sweeps.filter (fun w => w.region != r),
                            sweep := if x.sweep.any (fun w => w.region == r) then none else x.sweep }
    else s) s

/-- The key slots of a region cleared in every MPE. -/
def State.clearKeys (s : State) (r : Nat) : State :=
  (List.range 12).foldl (fun s k =>
    let x := s.stack k
    if (x.keySlot r) = {} then s else s.setStack k { x with keys := SMap.set {} x.keys r {} }) s

/-- A region fenced: only INIT, ACTIVE and REKEY change (R310). -/
def State.fence (s : State) (r : Nat) : State :=
  let g := s.region r
  match g.state with
  | .init | .active | .rekey => (((s.dropMeta r).dropSweeps r).clearKeys r).setRegion r { g with state := .fenced }
  | _ => s

/-- `MPE_ESC.policy`. -/
def State.escPolicy (s : State) : Nat := s.fld .rgn Reg.MPE_ESC 1 0

/-- The action of a security alarm on a line of region `r` in stack `k` (R310). -/
def State.escalate (s : State) (k r : Nat) : State :=
  let p := (s.region r).owner / 8
  let part (i : Nat) : Bool := (s.region i).owner / 8 == p
  if s.haltDev ∨ s.haltedPart p then s
  else match s.escPolicy with
    | 0 => s.fence r
    | 1 =>
      let s1 := (List.range 64).foldl (fun s i => if part i then s.fence i else s) s
      ({ s1 with haltPart := SMap.set false s1.haltPart p true } : State).raise (.mpe k) 0x700D (r + k * 256) 1
    | _ =>
      let s1 := (List.range 64).foldl (fun s i => s.fence i) s
      ({ s1 with haltDev := true, clk := { s1.clk with faultHeld := true } } : State).raise (.mpe k) 0x700D (r + k * 256) 2

/-- A security alarm (R309): the event, the count, and the action. -/
def State.tamper (s : State) (k r code line : Nat) : State :=
  ((s.raise (.mpe k) code (r + k * 256) line).bump (.mpe k) (mpeCounter 3)).escalate k r

/-- Row 1 of R309. -/
def State.metaDead (s : State) (k r m : Nat) : State := (s.raise (.mpe k) 0x7002 (r + k * 256) m).fence r

/-! The metadata cache (R301). -/

/-- The set of a metadata line. -/
def cacheSet (m : Nat) : Nat := m % 4096

def Stack.cacheLine (x : Stack) (m : Nat) : Option CacheLine := (SMap.get [] x.cache (cacheSet m)).find? (fun c => c.line == m)
def Stack.cached (x : Stack) (m : Nat) : Bool := (x.cacheLine m).isSome

/-- A cached line changed and marked most recently used. -/
def Stack.useLine (x : Stack) (m : Nat) (f : CacheLine → CacheLine) : Stack :=
  let l := SMap.get [] x.cache (cacheSet m)
  match x.cacheLine m with
  | some c => { x with cache := SMap.set [] x.cache (cacheSet m) (f c :: l.filter (fun d => d.line != m)) }
  | none => x

/-- A cached line marked most recently used, and dirty if asked. -/
def Stack.touch (x : Stack) (m : Nat) (dirty : Bool) : Stack := x.useLine m (fun c => { c with dirty := c.dirty || dirty })

/-- The symbols of slot `i` of a line of eight 8-byte slots in a pattern. -/
def ErrPat.slot (e : ErrPat) (i : Nat) : ErrPat := e.filter (fun x => decide (8 * i ≤ x.1) && decide (x.1 < 8 * i + 8))

/-- The symbols of a pattern that change stored data. -/
def ErrPat.data (e : ErrPat) : ErrPat := e.filter (fun x => decide (x.1 < 64))

/-- A pattern of data symbols with the check symbols that make it the difference of two codewords: how a line written
with these deviations differs from the one written without them. -/
def ErrPat.whole (e : ErrPat) : ErrPat :=
  if e = [] then [] else ErrPat.between (List.replicate 72 0#8) (codeword (e.data.apply (List.replicate 68 0#8)))

/-- A dirty line written to DRAM: any write-back due is dropped (R152). -/
def Stack.writeMeta (x : Stack) (c : CacheLine) : Stack :=
  { x with err := SMap.set [] x.err c.line (ErrPat.whole c.dev), writeback := x.writeback.filter (fun a => a.1 ≠ c.line) }

/-- The lines of a path that are not cached, up to the first cached one. -/
def Stack.missing (x : Stack) : List Nat → List Nat
  | [] => []
  | m :: ms => if x.cached m then [] else m :: Stack.missing x ms

/-- Lines read from DRAM and decoded, each with the pattern that remains; none is uncorrectable. -/
def State.decodeAll (s : State) (k : Nat) (ms : List Nat) : State × List (Nat × Option ErrPat) :=
  ms.foldl (fun (a : State × List (Nat × Option ErrPat)) m =>
    let d := a.1.decode k m
    (d.1, a.2 ++ [(m, d.2)])) (s, [])

/-- The first line that is uncorrectable (row 1 of R309). -/
def deadLine (ds : List (Nat × Option ErrPat)) : Option Nat := ds.findSome? (fun d => if d.2.isNone then some d.1 else none)

/-- The pattern of line `m` among fetched lines; a line that was not fetched is as written. -/
def leftOf (ds : List (Nat × Option ErrPat)) (m : Nat) : ErrPat :=
  ((ds.find? (fun d => d.1 == m)).bind (fun d => d.2)).getD []

/-- Whether a fetched counter or tree line differs from the digest that its parent holds, as the parent was fetched (R299,
R300). -/
def State.digestBad (s : State) (k r : Nat) (ds : List (Nat × Option ErrPat)) (m : Nat) : Bool :=
  let x := s.stack k
  let g := (s.region r).geo
  let q := x.keySlot r
  match g.levelOf m with
  | none => false
  | some (j, i) =>
    let own := (leftOf ds m).data
    let up := match g.parent m with
      | some p => (leftOf ds p).slot (i % 8)
      | none => []
    if own = [] ∧ up = [] then false
    else
      let keys := q.node g j i
      let was := x.nodeBytes q g j i
      keys.digest (own.apply was) m j != (ErrPat.apply (up.map (fun e => (e.1 - 8 * (i % 8), e.2))) (keys.digest was m j))

/-- The line of row 3 of R309 among fetched lines, listed from the counter line up: the topmost that fails. -/
def State.forgedLine (s : State) (k r : Nat) (ds : List (Nat × Option ErrPat)) : Option Nat :=
  ((ds.map Prod.fst).filter (s.digestBad k r ds)).getLast?

/-- A line inserted as most recently used. The least recently used line of a full set is evicted; a dirty one is written
to DRAM and its new digest goes into its parent, which becomes dirty. A parent that is not cached is fetched and verified
first, like any tree line (R301). -/
def State.cacheInsert (s : State) (k : Nat) (new : CacheLine) : Nat → State
  | 0 => s
  | fuel + 1 =>
    let x := s.stack k
    let l := SMap.get [] x.cache (cacheSet new.line)
    let put (x : Stack) (l : List CacheLine) : Stack := { x with cache := SMap.set [] x.cache (cacheSet new.line) (new :: l) }
    if l.length < 16 then s.setStack k (put x l)
    else match l.getLast? with
      | none => s
      | some old =>
        let s1 := s.setStack k (put x l.dropLast)
        if !old.dirty then s1
        else
          let s2 := (s1.setStack k ((s1.stack k).writeMeta old)).bump (.mpe k) (mpeCounter 2)
          match s2.metaAt k old.line with
          | none => s2
          | some r =>
            let up := ((s2.region r).geo.above old.line).tail
            let miss := (s2.stack k).missing up
            match up with
            | [] => s2
            | p :: _ =>
              let s3 := (s2.bump (.mpe k) (mpeCounter 0) (min up.length (miss.length + 1) - miss.length)).bump (.mpe k)
                (mpeCounter 1) miss.length
              let d := s3.decodeAll k miss
              match deadLine d.2, d.1.forgedLine k r d.2 with
              | some m, _ => d.1.metaDead k r m
              | none, some m => (d.1.tamper k r 0x7005 m)
              | none, none =>
                let s4 := miss.foldl (fun s m => State.cacheInsert s k { line := m, dirty := false } fuel) d.1
                s4.setStack k ((s4.stack k).touch p true)

/-! The metadata of a request. -/

/-- What fetching metadata found: nothing wrong, or an outcome of rows 1 or 3 of R309. -/
inductive MetaResult where
  | ok
  | unverifiable (line : Nat)
  | tree (line : Nat)
  deriving DecidableEq, Repr

/-- Steps 1 to 3 of R300 for data line `line`: look-ups, fetches, decodes and digest checks; `tag` says that the tag
line is needed. Hits and misses are counted (R312). -/
def State.loadMeta (s : State) (k r line : Nat) (tag : Bool) : State × MetaResult :=
  let x := s.stack k
  let g := (s.region r).geo
  let path := g.path line
  let miss := x.missing path
  let tl := g.tagLine line
  let fetch := miss ++ (if tag && !x.cached tl then [tl] else [])
  -- look-ups end at the first cached ancestor
  let looked := path.take (miss.length + 1) ++ (if tag then [tl] else [])
  let s1 := (s.bump (.mpe k) (mpeCounter 0) (looked.length - fetch.length)).bump (.mpe k) (mpeCounter 1) fetch.length
  let d := s1.decodeAll k fetch
  match deadLine d.2, d.1.forgedLine k r d.2 with
  | some m, _ => (d.1, .unverifiable m)
  | none, some m => (d.1, .tree m)
  | none, none =>
    let s2 := fetch.foldl (fun s m => s.cacheInsert k { line := m, dirty := false, dev := (leftOf d.2 m).data } 12) d.1
    (looked.foldl (fun s m => s.setStack k ((s.stack k).touch m false)) s2, .ok)

/-! Reads and writes of a line. -/

/-- The symbols in which the tag of a data line, as the cache holds it, differs from the one written. -/
def Stack.tagDev (x : Stack) (g : TreeGeo) (line : Nat) : ErrPat :=
  match x.cacheLine (g.tagLine line) with
  | some c => (ErrPat.slot c.dev ((line - g.data0) % 8)).map (fun e => (e.1 % 8, e.2))
  | none => []

/-- Plaintext of a data line of region `r` as read with the pattern `left`, in native mode; none where the MAC of the
ciphertext as read differs (row 5 of R309). What the MPE wrote passes and decrypts to itself. -/
def State.nativePlain (s : State) (k r line : Nat) (left : ErrPat) : Option (List Byte) :=
  let x := s.stack k
  if left.below 68 then
    let q := (x.keySlot r).at line
    q.openNative k line (left.apply (q.native k line (x.bytes line)))
  else some (x.bytes line)

/-- The same in tree mode, with the symbols in which the tag differs from the one written: none where the tag of the
ciphertext as read differs from the tag as read (row 4 of R309). -/
def State.treePlain (s : State) (k r line : Nat) (left dev : ErrPat) : Option (List Byte) :=
  let x := s.stack k
  if left.below 64 ∨ dev ≠ [] then
    let q := (x.keySlot r).at line
    let c := x.ctr line
    let ct := q.stream k line c (x.bytes line)
    let got := left.data.apply ct
    if q.tag k line c got = dev.apply (q.tag k line c ct) then some (q.stream k line c got) else none
  else some (x.bytes line)

/-- A read of an admitted native line: decode, MAC, decryption (R296, R309); `none` is a bus error. -/
def State.readNative (s : State) (k line r : Nat) : State × Option (List Byte) :=
  match s.decode k line with
  | (s1, none) => (s1.raise (.mpe k) 0x7001 (r + k * 256) line, none)
  | (s1, some e) => match s1.nativePlain k r line e with
    | none => (s1.tamper k r 0x7003 line, none)
    | some bs => (s1, some bs)

/-- An admitted request to a tree-mode line (R298, R300, R309): its metadata, fetched with the tag line for a write or
where the counter is not 0, and with `read` the line itself; `none` is a bus error. A counter of 0 is a line of zeros. -/
def State.openTree (s : State) (k line r : Nat) (read write : Bool) : State × Option (List Byte) :=
  let zero := (s.stack k).ctr line == 0
  let a := s.loadMeta k r line (write || !zero)
  let d := if read && !zero then a.1.decode k line else (a.1, some [])
  match a.2, d.2 with
  | .unverifiable m, _ => (d.1.metaDead k r m, none)
  | _, none => (d.1.raise (.mpe k) 0x7001 (r + k * 256) line, none)
  | .tree m, _ => (d.1.tamper k r 0x7005 m, none)
  | .ok, some e =>
    if zero || !read then (d.1, some (List.replicate 64 0#8))
    else match d.1.treePlain k r line e ((d.1.stack k).tagDev (d.1.region r).geo line) with
      | none => (d.1.tamper k r 0x7004 line, none)
      | some bs => (d.1, some bs)

/-- The outcome of a read of an admitted line (R309); `none` is a bus error. -/
def State.releaseLine (s : State) (k line r : Nat) : State × Option (List Byte) :=
  if (s.region r).tree then s.openTree k line r true false else s.readNative k line r

/-- A read of a line (R151, R288, R309); `none` is a bus error. -/
def State.readLine (s : State) (k line cls ctx : Nat) : State × Option (List Byte) :=
  match s.checkLine k line cls ctx false with
  | .error s1 => (s1, none)
  | .ok r => s.releaseLine k line r

/-- A line written: its plaintext, the codeword that follows from it (`State.writtenLine`), and no write-back due
(R152). -/
def Stack.store (x : Stack) (line : Nat) (bs : List Byte) : Stack :=
  { x with mem := Mem.write x.mem (64 * line) bs, err := SMap.set [] x.err line [],
           writeback := x.writeback.filter (fun a => a.1 ≠ line) }

/-- A full line written in tree mode, its metadata verified: the counter advanced, the counter line and the tag line dirty,
the tag fresh (R298, R304); false is a bus error. -/
def State.storeTree (s : State) (k line r : Nat) (bs : List Byte) : State × Bool :=
  let g := (s.region r).geo
  let x := s.stack k
  let c := x.ctr line
  if c = 2 ^ 64 - 1 then
    ((s.raise (.mpe k) 0x7006 (r + k * 256) line).bump (.mpe k) (mpeCounter 7), false)
  else
    let n := (line - g.data0) % 8
    let x1 := (x.touch ((g.path line).headD 0) true).useLine (g.tagLine line) (fun l =>
      { l with dirty := true, dev := l.dev.filter (fun e => decide (e.1 / 8 ≠ n)) })
    let x2 := x1.store line bs
    (s.setStack k { x2 with ctrs := SMap.set 0 x2.ctrs line (c + 1) }, true)

/-- A write of a line with byte enables, listed as offsets with their bytes (R296, R300): a full line is written without
reading it, a partial one merges into what a read releases; false is a bus error. -/
def State.writeMasked (s : State) (k line cls ctx : Nat) (es : List (Nat × Byte)) : State × Bool :=
  match s.checkLine k line cls ctx true with
  | .error s1 => (s1, false)
  | .ok r =>
    let merge (old : List Byte) : List Byte := es.foldl (fun l e => l.set e.1 e.2) old
    let full := (List.range 64).all (fun i => es.any (fun e => e.1 == i))
    let zeros := List.replicate 64 0#8
    if (s.region r).tree then
      match s.openTree k line r (!full) true with
      | (s1, none) => (s1, false)
      | (s1, some old) => s1.storeTree k line r (merge old)
    else if full then (s.setStack k ((s.stack k).store line (merge zeros)), true)
    else match s.readNative k line r with
      | (s1, none) => (s1, false)
      | (s1, some old) => (s1.setStack k ((s1.stack k).store line (merge old)), true)

/-- A write of bytes at offset `off` of a line. -/
def State.writeLine (s : State) (k line cls ctx off : Nat) (bs : List Byte) : State × Bool :=
  s.writeMasked k line cls ctx (bs.zipIdx.map (fun b => (off + b.2, b.1)))

/-! Runs of bytes. -/

/-- The bytes [o, o + n) of a stack read line by line; the lines read before a bus error are still read. -/
def State.readRun (s : State) (k o n cls ctx : Nat) : State × Option (List Byte) :=
  if n = 0 then (s, some [])
  else
    let lines := List.range ((o + n - 1) / 64 - o / 64 + 1)
    let r := lines.foldl (fun (a : State × Option (List Byte)) i =>
      match a.2 with
      | none => a
      | some acc => match a.1.readLine k (o / 64 + i) cls ctx with
        | (s1, some bs) => (s1, some (acc ++ bs))
        | (s1, none) => (s1, none)) (s, some [])
    (r.1, r.2.map (fun bs => (bs.drop (o % 64)).take n))

/-- Bytes written to a stack from `o` on, line by line, up to the first bus error; the count of bytes written. -/
def State.writeRun (s : State) (k o cls ctx : Nat) (bs : List Byte) : State × Nat :=
  let n := bs.length
  if n = 0 then (s, 0)
  else
    let lines := List.range ((o + n - 1) / 64 - o / 64 + 1)
    let r := lines.foldl (fun (a : State × Nat × Bool) i =>
      if !a.2.2 then a
      else
        let line := o / 64 + i
        let lo := max o (64 * line)
        let hi := min (o + n) (64 * line + 64)
        match a.1.writeLine k line cls ctx (lo - 64 * line) ((bs.drop (lo - o)).take (hi - lo)) with
        | (s1, true) => (s1, a.2.1 + (hi - lo), true)
        | (s1, false) => (s1, a.2.1, false)) (s, 0, true)
    (r.1, r.2.1)

/-- The first line of the run that its last, incomplete read or write met; for reports of a bus error. -/
def State.firstBadLine (s : State) (k o n cls ctx : Nat) (write : Bool) : Option Nat :=
  (List.range ((o + n - 1) / 64 - o / 64 + 1)).findSome? (fun i =>
    let line := o / 64 + i
    let bad := if write then !(s.writeLine k line cls ctx 0 (List.replicate 64 0#8)).2
               else (s.readLine k line cls ctx).2.isNone
    if bad then some line else none)

/-! Device addresses (R123, R125). -/

/-- The size of a stack's window. -/
def stackBytes : Nat := 2 ^ 37

/-- The stacks of a partition in increasing number. -/
def State.stacksOf (s : State) (p : Nat) : List Nat := (List.range 12).filter (fun k => s.partOfQuarter (quarterOfStack k) == p)

/-- The stack and offset of an address of space 0 or 1 (R123). -/
def State.resolve (s : State) (p space a : Nat) : Option (Nat × Nat) :=
  let P := s.stacksOf p
  let S := P.length
  if space = 0 then
    (if a < S * stackBytes then some (nth 0 P (a / 8192 % S), a / 8192 / S * 8192 + a % 8192) else none)
  else if space = 1 then
    let b := 2 ^ 43
    if b ≤ a ∧ a < b + 12 * stackBytes ∧ P.contains ((a - b) / stackBytes) then
      some ((a - b) / stackBytes, (a - b) % stackBytes) else none
  else none

/-- The number of bytes from an address to the end of its 8 KiB granule (interleaved) or stack (stack-local). -/
def granule (space a : Nat) : Nat := if space = 0 then 8192 - a % 8192 else stackBytes - a % stackBytes

/-- Bytes of a partition's memory read through a view, granule by granule. -/
def State.readView (s : State) (p space a n cls ctx : Nat) : Nat → State × Option (List Byte)
  | 0 => (s, none)
  | fuel + 1 =>
    if n = 0 then (s, some [])
    else match s.resolve p space a with
      | none => (s, none)
      | some (k, o) =>
        let m := min n (granule space a)
        match s.readRun k o m cls ctx with
        | (s1, none) => (s1, none)
        | (s1, some bs) =>
          match State.readView s1 p space (a + m) (n - m) cls ctx fuel with
          | (s2, some t) => (s2, some (bs ++ t))
          | (s2, none) => (s2, none)

/-- Bytes written through a view; false is a bus error. -/
def State.writeView (s : State) (p space a cls ctx : Nat) (bs : List Byte) : Nat → State × Bool
  | 0 => (s, false)
  | fuel + 1 =>
    if bs.isEmpty then (s, true)
    else match s.resolve p space a with
      | none => (s, false)
      | some (k, o) =>
        let m := min bs.length (granule space a)
        match s.writeRun k o cls ctx (bs.take m) with
        | (s1, done) =>
          if done < m then (s1, false)
          else State.writeView s1 p space (a + m) cls ctx (bs.drop m) fuel

end Sys2Proof.Machine
end

