-- ==== Sys2Proof/Machine/Random.lean ====
section
/-!
DEFINITION. Random bytes: the TRNG and the DRBG of Thallus, and outputs of its key ladder (13_trust_keys_attestation.md,
R315, R317, R319).
-/
namespace Sys2Proof.Machine

/-- `n` free bytes: of the TRNG, or of what the spec leaves open (log entry 5). -/
def State.drawFree (s : State) (n : Nat) : State × List Byte :=
  (s.tookFree n, (List.range n).map (fun i => Config.freeByte (s.freeCtr + i)))

/-- The DRBG seeded from the TRNG where it has served 2^16 requests. -/
def State.reseedDue (s : State) : State :=
  if s.thl.drbg.served < 65536 then s
  else
    let e := s.drawFree 48
    { e.1 with thl := { e.1.thl with drbg := e.1.thl.drbg.reseed e.2 } }

/-- `n` bytes drawn from the DRBG. -/
def State.draw (s : State) (n : Nat) : State × List Byte :=
  let s1 := s.reseedDue
  let g := s1.thl.drbg.generate n
  ({ s1 with thl := { s1.thl with drbg := g.1 } }, g.2)

/-- A request to the key ladder, by the Lichenometer or by Thallus: it answers the destination of the label alone, and
Thallus only until it is locked (R319). -/
def State.ladderAsk (s : State) (meter : Bool) (l : LadderLabel) : Option (List Byte) :=
  if l.toMeter != meter || (!meter && s.thl.locked) then none else some (ladderOut s.thl.rs l)

end Sys2Proof.Machine
end

