-- ==== Sys2Proof/Machine/Capture.lean ====
section
/-!
DEFINITION. The capture streams of contexts (18_management_and_replay.md, R456 to R459).
-/
namespace Sys2Proof.Machine

/-! Capture registers (R463). -/

def State.capMode (s : State) (c : Nat) : Nat := s.fld (.ctx c) Reg.CTX_CAP_CTL 1 0
def State.capFull (s : State) (c : Nat) : Bool := s.fld (.ctx c) Reg.CTX_CAP_CTL 2 2 == 1
def State.capAddr (s : State) (c : Nat) : Nat := s.fld (.ctx c) Reg.CTX_CAP_ADDR 43 0
def State.capSpace (s : State) (c : Nat) : Nat := s.fld (.ctx c) Reg.CTX_CAP_ADDR 46 44
def State.capSize (s : State) (c : Nat) : Nat := s.word (.ctx c) 0x110
def State.capPos (s : State) (c : Nat) : Nat := s.word (.ctx c) 0x114

/-- Whether records of the context are being written (R457). -/
def State.capturing (s : State) (c : Nat) : Bool := s.capMode c == 1 && !s.capFull c

/-- Enough granules for any transfer of one record or entry. -/
def viewFuel : Nat := 64

/-- A record of a capture stream (R457): header and body, padded to 64-byte units. A record that does not fit, or whose
write meets a bus error, ends recording (log entry 12). -/
def State.capRecord (s : State) (c type : Nat) (body : List Byte) : State :=
  if !s.capturing c then s
  else
    let cap := (s.ctx c).capture
    let units := ceilDiv (16 + body.length) 64
    let bytes := leBytes 2 type ++ leBytes 2 units ++ leBytes 4 cap.seq ++ leBytes 8 s.tmb.ns ++ body
    let rec_ := bytes ++ List.replicate (64 * units - bytes.length) 0#8
    let pos := s.capPos c
    let full (s : State) : State :=
      (s.setFld (.ctx c) Reg.CTX_CAP_CTL 2 2 1).raise (.ctx c) 0xE101 c cap.seq
    if s.capSize c * 1024 < pos + units then full s
    else match s.writeView (c / 8) (s.capSpace c) (s.capAddr c + 64 * pos) 5 c rec_ (viewFuel + units) with
      | (s1, false) => full s1
      | (s1, true) =>
        let x := s1.ctx c
        (s1.setCtx c { x with capture := { x.capture with seq := cap.seq + 1, macInput := cap.macInput ++ rec_ } }).setWord
          (.ctx c) 0x114 (pos + units)

/-- The key of a stream that began at `ns` (R458). -/
def State.capKey (s : State) (c ns : Nat) : List Byte :=
  hkdfExpand (s.thl.keys.capture) (ascii "capture stream" ++ [BitVec.ofNat 8 c] ++ leBytes 8 ns) 48

/-- The TRAILER (R457, R458): records written before it, and the MAC over them. -/
def State.capTrailer (s : State) (c : Nat) : State :=
  let cap := (s.ctx c).capture
  s.capRecord c 8 (leBytes 8 cap.seq ++ hmac384 cap.key cap.macInput)

/-- The ring of a context read back, up to `units` of 64 bytes. -/
def State.capUnits (s : State) (c pos n : Nat) : State × Option (List Byte) :=
  s.readView (c / 8) (s.capSpace c) (s.capAddr c + 64 * pos) (64 * n) 5 c (viewFuel + n)

/-- A record found in a ring during replay: its position in units, type, length in units, and bytes. -/
structure CapRec where
  pos : Nat
  type : Nat
  units : Nat
  bytes : List Byte
  deriving DecidableEq, Repr

/-- The records of a ring from unit `pos` on, up to the TRAILER or the ring's end; `fuel` bounds their number. -/
def State.capScan (s : State) (c pos limit : Nat) : Nat → List CapRec
  | 0 => []
  | fuel + 1 =>
    if limit ≤ pos then []
    else match (s.capUnits c pos 1).2 with
      | none => []
      | some h =>
        let type := leNat (slice h 0 2)
        let units := leNat (slice h 2 2)
        if type = 0 ∨ 8 < type ∨ units = 0 ∨ limit < pos + units then []
        else match (s.capUnits c pos units).2 with
          | none => []
          | some bs =>
            { pos := pos, type := type, units := units, bytes := bs } ::
              (if type = 8 then [] else State.capScan s c (pos + units) limit fuel)

/-- All records of a context's ring. -/
def State.capRecords (s : State) (c : Nat) : List CapRec := s.capScan c 0 (s.capSize c * 1024) (s.capSize c * 1024)

/-- The next record of a type that has not been matched in this replay and satisfies `q` (R459). -/
def State.capNext (s : State) (c type : Nat) (q : List Byte → Bool) : Option CapRec :=
  (s.capRecords c).find? (fun r => r.type == type && q r.bytes && !((s.ctx c).capture.used.contains r.pos))

/-- A record marked as matched; `CTX_CAP_POS` follows the units read. -/
def State.capUse (s : State) (c : Nat) (r : CapRec) : State :=
  let x := s.ctx c
  (s.setCtx c { x with capture := { x.capture with used := x.capture.used ++ [r.pos] } }).setWord (.ctx c) 0x114
    (s.capPos c + r.units)

/-- The body of a SUBMIT record (R457; layout: log entry 13). -/
def submitBody (queue index : Nat) (entry : List Byte) : List Byte := leBytes 4 queue ++ leBytes 4 index ++ entry

/-- The comparison of a submission entry with the next SUBMIT record of its queue, except the irq and nocpl flags
(R459): the record matched, and whether it agrees. -/
def State.replaySubmit (s : State) (c queue : Nat) (entry : List Byte) : State × Bool :=
  match s.capNext c 2 (fun b => leNat (slice b 16 4) == queue) with
  | none => (s, false)
  | some r =>
    let strip (e : List Byte) : List Byte := e.take 1 ++ [(e.getD 1 0#8) &&& 0xFC#8] ++ e.drop 2
    (s.capUse c r, strip (slice r.bytes 24 64) == strip entry)

/-- An EXTERNAL record (R457): its kind, the link or reset, and the code that announced it. -/
def State.capExternal (s : State) (c kind what code : Nat) : State :=
  s.capRecord c 7 (leBytes 4 kind ++ leBytes 4 what ++ leBytes 4 code)

end Sys2Proof.Machine
end

