-- ==== Sys2Proof/Machine/Keys.lean ====
section
/-!
DEFINITION. Thallus's queue, the device identity, signatures and their self-check, and authority slots
(13_trust_keys_attestation.md, R316 to R329).
-/
namespace Sys2Proof.Machine

/-! The queue (R316). -/

/-- An event of Thallus. -/
def State.thlEvent (s : State) (code a b : Nat) : State := s.raise .thl code a b

/-- The requester code of a mailbox (R333). -/
def mbxRequester (x : Nat) : Nat := 0xFFFE + x

/-- The first argument of 0x9011: the requester codes of R333, and a free value for a requester that has none. -/
def State.requesterCode (s : State) : ThlReq → State × Nat
  | .mailbox x => (s, mbxRequester x)
  | .mc _ | .pldm _ _ _ _ => (s, 0xFFFD)
  | _ => s.drawWord

/-- 0x9011 for a request. -/
def State.thlBusy (s : State) (q : ThlReq) : State :=
  let d := s.requesterCode q
  d.1.thlEvent 0x9011 d.2 s.thl.queue.length

/-- A request arrives: it joins the queue, or is refused where the queue is full. -/
def State.thlArrive (s : State) (q : ThlReq) : State :=
  if 64 ≤ s.thl.queue.length then s.thlBusy q
  else { s with thl := { s.thl with queue := s.thl.queue ++ [q] } }

/-- A request leaves the queue. -/
def State.thlTake (s : State) (q : ThlReq) : State := { s with thl := { s.thl with queue := s.thl.queue.erase q } }

/-- Whether Thallus's runtime can serve a request now: it signs nothing and no teardown is in service. -/
def State.thlServes (s : State) : Bool :=
  !s.clk.inReset && s.thl.stage == 1 && s.thl.signing.isNone && (List.range 4).all (fun p => (s.part p).request.isNone)

/-- The meaning of a request that no other command announces: its command says that it arrives, and is served at once
where nothing stands before it; otherwise it joins the queue, and the command is given again once the request stands at
the head (log entry 119). What the request then does, `eff`, is decided under the state of that moment. -/
def thlRequest (s : State) (q : ThlReq) (eff : State → State) : Host.Outcome State Fault Refusal :=
  if s.clk.inReset then notEnabled "a Module reset is in force"
  else if s.thlServes && s.thl.queue.head? == some q then .next (eff (s.thlTake q))
  else if s.thlServes && s.thl.queue.isEmpty then .next (eff s)
  else .next (s.thlArrive q)

/-! Identity (R322). -/

/-- The two public keys of the identity: of the primes and the seeds that the ROM has recomputed. -/
def State.rsaKey (s : State) : List Byte := rsaModulus s.thl.idKey
def State.slhKey (s : State) : List Byte := slh192f.publicKey s.thl.keys.slh

/-- The identity digest as it is recomputed. -/
def State.ownDigest (s : State) : List Byte := identityDigest s.thl.idKey s.thl.keys.slh

/-- The device identity digest (OTP bytes [95:48]). -/
def State.deviceDigest (s : State) : List Byte := slice s.thl.otp.digest 0 48

/-! Signatures (R324, R325). -/

/-- The label of an index of R325. -/
def sigLabel : Nat → List Byte
  | 1 => ascii "karfort image" ++ leBytes 3 0
  | 2 => ascii "karfort keyupd" ++ leBytes 2 0
  | 3 => ascii "karfort fabric" ++ leBytes 2 0
  | 4 => ascii "karfort operator"
  | 5 => ascii "karfort policy" ++ leBytes 2 0
  | 6 => ascii "karfort calyptra"
  | _ => ascii "karfort meterfw" ++ leBytes 1 0

/-- The message that both signatures of a block are taken over. -/
def sigMessage (label : Nat) (signed : List Byte) : List Byte := sigLabel label ++ sha384 signed

/-- Bytes of a set-1 block. -/
def blockLen : Nat := 16624

/-- Public keys as the spec stores them: modulus, exponent, SLH-DSA key. -/
structure PubKey where
  n : List Byte
  e : Nat
  slh : List Byte
  deriving DecidableEq, Repr

def PubKey.digest (k : PubKey) : List Byte := keyDigest k.n k.e k.slh

/-- Whether a set-1 block of a signer is valid under a pair of keys (R324, R325). -/
def blockOk (key : PubKey) (signer label : Nat) (signed block : List Byte) : Bool :=
  let m := sigMessage label signed
  leNat (slice block 0 1) == signer && leNat (slice block 1 1) == 1 && leNat (slice block 2 2) == 0
    && leNat (slice block 4 4) == blockLen && leNat (slice block 8 8) == 0 && block.length == blockLen
    && key.e == 65537 && rsaVerify 384 (beNat key.n) m (slice block 16 384)
    && slh192s.verify key.slh m (block.drop 400)

/-- The SLH-DSA signature of the identity over a message. Its randomizer opt_rand is open (log entry 118). -/
def State.slhSign (s : State) (m : List Byte) : State × List Byte :=
  let d := s.drawFree 24
  (d.1, slh192f.sign s.thl.keys.slh d.2 m)

/-- The device's own set-2 block over an object (R324). -/
def State.ownBlock (s : State) (label : Nat) (signed : List Byte) : State × List Byte :=
  let m := sigMessage label signed
  let r := s.slhSign m
  (r.1, leBytes 1 0 ++ leBytes 1 2 ++ leBytes 2 0 ++ leBytes 4 36064 ++ leBytes 8 0 ++ rsaSign s.thl.idKey m ++ r.2)

/-! The self-check (R317). -/

/-- The code with which a request for a signature is refused. -/
def State.signRefusal (s : State) : Option Nat :=
  if s.thl.signStopped then some 0x9004 else if s.thl.mismatch then some 0x9003 else none

/-- The self-check of a signature, of which `failures` attempts fail: two failures stop all signing. -/
def State.selfCheck (s : State) (label failures : Nat) : State :=
  let fail (s : State) (i : Nat) : State := (s.bump .thl 0x058).raise .thl 0x9004 label i
  match failures with
  | 0 => s
  | 1 => fail s 1
  | _ =>
    let s1 := fail (fail s 1) 2
    { s1 with thl := { s1.thl with signStopped := true } }

/-- The self-check of a signature that no command of its own ends: whether an attempt succeeds. How many fail is a free
value, and so is the label index of a signature that R325 gives none (log entry 118). -/
def State.signChecked (s : State) (label : Option Nat) : State × Bool :=
  let failures := Config.signFails s.freeCtr
  let l : State × Nat := match label with
    | some i => (s.tookFree 1, i)
    | none => (s.tookFree 1).drawWord
  (l.1.selfCheck l.2 failures, decide (failures < 2))

/-! The flash directory (R339). -/

/-- The directory changed, with its HMAC. -/
def State.setDir (s : State) (f : Directory → Directory) : State :=
  let d := f s.thl.dir
  { s with thl := { s.thl with dir := d, dirMac := hmac384 s.thl.keys.dir d.bytes } }

/-! OTP (R318). -/

/-- The value of a counter. -/
def State.fuseCount (s : State) (base : Nat) : Nat := thermometer (SMap.get 0 s.thl.otp.counters base)

/-- Bit `k` of a counter set. -/
def State.setFuse (s : State) (base k : Nat) : State :=
  let w := SMap.get 0 s.thl.otp.counters base ||| BitVec.ofNat 64 (2 ^ k)
  { s with thl := { s.thl with otp := { s.thl.otp with counters := SMap.set 0 s.thl.otp.counters base w } } }

/-- The next `n` bits of a counter programmed in increasing order, from bit `k` on, and each read back: whether all came
right. One that does not raises 0x900F and ends the programming, and Thallus acts no more on that counter (log entry 105). -/
def State.fuse (s : State) (base k : Nat) : Nat → State × Bool
  | 0 => (s, true)
  | n + 1 =>
    if Config.fuseFails (base + k / 8) (k % 8) then
      (({ s with thl := { s.thl with fuseBad := base :: s.thl.fuseBad } } : State).raise .thl 0x900F (base + k / 8) (k % 8), false)
    else State.fuse (s.setFuse base k) base (k + 1) n

/-- Bytes as they read back after they were programmed at OTP byte `at_`: bits that do not take stay clear. -/
def fusedBytes (at_ : Nat) (bs : List Byte) : List Byte :=
  bs.zipIdx.map (fun x => BitVec.ofNat 8 (((List.range 8).map (fun k =>
    if x.1.getLsbD k && !Config.fuseFails (at_ + x.2) k then 2 ^ k else 0)).sum))

/-- 0x900F for the first bit that read back wrong, if one did. -/
def State.fuseReport (s : State) (at_ : Nat) (want got : List Byte) : State :=
  let bad := (List.range (8 * want.length)).find? (fun n =>
    (want.getD (n / 8) 0#8).getLsbD (n % 8) != (got.getD (n / 8) 0#8).getLsbD (n % 8))
  match bad with
  | some n => s.raise .thl 0x900F (at_ + n / 8) (n % 8)
  | none => s

/-! Authority slots (R326 to R328). -/

def State.slotCounter (s : State) (slot : Nat) : Nat := s.fuseCount (slotFuses slot)

/-- The record copies of a slot, and the key of their MACs; those of slot 3 are the Lichenometer's (R327). -/
def State.recordCopy (s : State) (slot copy : Nat) : List Byte :=
  if slot = 3 then SMap.get [] s.met.records copy else SMap.get [] s.thl.dir.records (2 * slot + copy)
def State.recordKey (s : State) (slot : Nat) : List Byte :=
  if slot = 3 then s.met.recKey else SMap.get [] s.thl.keys.records slot

/-- The record in force of a slot: the copy whose MAC verifies and whose counter is the fused counter (R327). -/
def State.slotRecord (s : State) (slot : Nat) : Option (List Byte) :=
  let c := s.slotCounter slot
  if c = 0 then none
  else ([0, 1].map (s.recordCopy slot)).find? (fun b =>
    b.length == 560 && leNat (slice b 4 4) == c && b.drop 512 == hmac384 (s.recordKey slot) (b.take 512))

/-- The keys of a key update body (R328). -/
def bodyKey (b : List Byte) : PubKey := { n := slice b 56 384, e := leNat (slice b 440 4), slh := slice b 444 48 }

def State.slotKey (s : State) (slot : Nat) : Option PubKey := (s.slotRecord slot).map bodyKey

/-- Whether a block of an authority slot is valid under the record in force (R325, R326). None is, once a fuse of the slot's
counter has read back wrong (R318). -/
def State.authBlock (s : State) (slot label : Nat) (signed block : List Byte) : Bool :=
  decide (slot ≤ 5) && !s.thl.fuseBad.contains (slotFuses slot) && (match s.slotKey slot with
    | some k => blockOk k slot label signed block
    | none => false)

/-- A block that failed R325: counted and reported. -/
def State.sigRejected (s : State) (label signer : Nat) : State := (s.bump .thl 0x05C).raise .thl 0x9005 label signer

end Sys2Proof.Machine
end

