-- ==== Sys2Proof/Machine/MeterLog.lean ====
section
/-!
DEFINITION. The Lichenometer's log, totals and seal digest (17_power_and_metering.md, R433, R437 to R439, R442).
-/
namespace Sys2Proof.Machine

/-! Totals (R433, R435, R439). -/

/-- The whole microjoules of a channel since the meter started, rounded down. -/
def Meter.chanUj (m : Meter) (k : Nat) : Int := SMap.get 0 m.chan k / (2 ^ 24 : Int)

/-- The total that register `i` of `LCH_E_i` holds (R446): input, groups, partitions, idle accounts. -/
def Meter.total (m : Meter) (i : Nat) : Int :=
  if i < 5 then SMap.get 0 m.base i + m.chanUj i else SMap.get 0 m.acct (i - 5)

/-- The account of a context. -/
def Meter.ctxTotal (m : Meter) (c : Nat) : Int := SMap.get 0 m.acct (8 + c)

/-- A total as eight bytes. -/
def totalBytes (v : Int) : List Byte := leBytes 8 (ofSigned 64 v)

/-- The totals that an interval and a power-fail entry hold: E_in, E_0 to E_3, E_p0 to E_p3. -/
def Meter.totals (m : Meter) : List Byte := (List.range 9).flatMap (fun i => totalBytes (m.total i))

/-! Seal digest and keys (R432, R442). -/

/-- The running image. -/
def Meter.image (m : Meter) : List Byte := SMap.get [] m.images m.running

def Meter.sealDigest (m : Meter) : List Byte := sha384 (m.image ++ m.params)

/-- The allocation rule and the interval in force. -/
def Meter.rule (m : Meter) : Nat := leNat (slice m.params 0 1)
def Meter.interval (m : Meter) : Nat := leNat (slice m.params 1 1)

/-- The seeds of the meter's signing key. -/
def State.meterSeed (s : State) : List Byte := hkdfExpand s.met.key (ascii "meter slh") 48

def State.meterPub (s : State) : List Byte := slh128f.publicKey s.meterSeed

/-- A signature of the meter under a label, built as in R325. Its randomizer opt_rand is open (log entry 118). -/
def State.meterSign (s : State) (label : String) (signed : List Byte) : State × List Byte :=
  let d := s.drawFree 16
  (d.1, slh128f.sign s.meterSeed d.2 (slice (ascii label) 0 16 ++ sha384 signed))

/-! Log (R437 to R439). -/

/-- Entries of a sector with its seal entry; sectors of the ring. -/
def sectorEntries : Nat := 378
def logSectors : Nat := 47

/-- Whether the next entry would need a sector that holds an unacknowledged entry. -/
def Meter.blocked (m : Meter) : Bool :=
  let sector := m.seq / sectorEntries
  m.seq % sectorEntries == 0 && decide (logSectors ≤ sector)
    && decide (m.acked + 1 < (sector + 1 - logSectors) * sectorEntries)

/-- Meter cycles since the Cold reset, at 100 MHz. -/
def State.meterCycles (s : State) : Nat := s.ticks / 2

/-- Bytes [103:0] of an entry. -/
def State.entryHead (s : State) (seq type cause : Nat) (body : List Byte) : List Byte :=
  leBytes 4 seq ++ leBytes 1 type ++ leBytes 1 cause ++ leBytes 2 0 ++ leBytes 8 s.meterCycles
    ++ leBytes 8 (if s.tmb.valid then s.tmb.ns else 0) ++ slice body 0 80

/-- An entry chained to the one before it; the first chain value follows zeros. -/
def Meter.chain (m : Meter) (head : List Byte) : List Byte :=
  let prev := match m.seq with
    | 0 => leBytes 24 0
    | n + 1 => slice (SMap.get [] m.log n) 104 24
  head ++ (sha384 (prev ++ head)).take 24

/-- An entry stored at the next position; the oldest sector goes where its room is needed. -/
def Meter.store (m : Meter) (entry : List Byte) : Meter :=
  let sector := m.seq / sectorEntries
  let keep := (sector + 1 - logSectors) * sectorEntries
  let m1 := if m.seq % sectorEntries = 0 then
      { m with log := m.log.filter (fun e => keep ≤ e.1), sigs := m.sigs.filter (fun e => sector + 1 ≤ e.1 + logSectors) }
    else m
  { m1 with log := SMap.set [] m1.log m.seq entry, seq := m.seq + 1 }

/-- An event of the meter. -/
def State.meterEvent (s : State) (code a b : Nat) : State := s.raise .lch code a b

/-- The seal entry and the signature of a sector that is complete but for them. -/
def State.sealSector (s : State) : State :=
  let m := s.met
  if m.seq % sectorEntries ≠ sectorEntries - 1 then s
  else
    let last := slice (SMap.get [] m.log (m.seq - 1)) 104 24
    let head := s.entryHead m.seq 9 0 (last ++ m.sealDigest)
    let m1 := m.store (m.chain head)
    let r := s.meterSign "karfort meterlog" head
    { r.1 with met := { m1 with sigs := SMap.set [] m1.sigs (m.seq / sectorEntries) r.2 } }

/-- 0xC004 where the log has just become full (R439). -/
def State.noteFull (s : State) : State :=
  if s.met.blocked && !s.met.logFull then
    ({ s with met := { s.met with logFull := true } } : State).meterEvent 0xC004 s.met.seq s.met.acked
  else s

/-- An entry written, unless the log is full: whether it was. -/
def State.meterEntry (s : State) (type cause : Nat) (body : List Byte) : State × Bool :=
  if s.met.blocked then (s.noteFull, false)
  else
    let s1 : State := { s with met := s.met.store (s.met.chain (s.entryHead s.met.seq type cause body)) }
    (s1.sealSector.noteFull, true)

/-- The power-fail entry: cause 1 the input, 2 a thermal trip (R431, R438). -/
def State.powerFailEntry (s : State) (cause : Nat) : State := (s.meterEntry 7 cause s.met.totals).1

/-! Tenancy records (R436, R438). -/

/-- The creation of a context: its account is zeroed and an entry of type 2 is written. -/
def State.meterOpen (s : State) (c cls : Nat) (digest : List Byte) : State :=
  let s1 := (s.meterEntry 2 0 (leBytes 1 c ++ leBytes 1 cls ++ leBytes 6 0 ++ slice digest 0 48
    ++ totalBytes (s.met.total (5 + c / 8)))).1
  { s1 with met := { s1.met with acct := SMap.set 0 s1.met.acct (8 + c) 0 } }

/-- The end of a context's teardown: an entry of type 3 with its final account. -/
def State.meterClose (s : State) (c : Nat) : State := (s.meterEntry 3 0 (leBytes 1 c ++ totalBytes (s.met.ctxTotal c))).1

/-- The event counter increased. -/
def State.meterCount (s : State) : State := { s with met := { s.met with evcnt := (s.met.evcnt + 1) % 2 ^ 64 } }

end Sys2Proof.Machine
end

