-- ==== Sys2Proof/Machine/Spaces.lean ====
section
/-!
DEFINITION. The spaces of R125 with the host windows of R380: reach, bounds, and reads and writes of byte runs
(06_data_movement.md; 15_host_interface.md).
-/
namespace Sys2Proof.Machine

/-- On whose behalf an access is made: the context, the frond whose engine makes it (none outside the fronds), and the
requester class of R289. -/
structure Access where
  ctx : Nat
  frond : Option Nat := none
  cls : Nat := 0
  deriving DecidableEq, Repr

/-! Host windows (R380). -/

/-- The page and offset of `FNC_VF_v` for context `c` on port `x` (R399). -/
def vfReg (c : Nat) : Nat := Reg.FNC_VF + 32 * c
def State.winBase (s : State) (c x : Nat) : Nat := s.fld (.fnc x) (vfReg c) 63 12 * 4096
def State.winSize (s : State) (c x : Nat) : Nat := s.fld (.fnc x) (vfReg c) 69 64
def State.winTdi (s : State) (c x : Nat) : Bool := s.fld (.fnc x) (vfReg c) 70 70 == 1

/-- Whether the TDI of a context runs on a secure stream (R380, R382, R383). -/
def State.tdiRuns (s : State) (c x : Nat) : Bool :=
  (SMap.get {} (s.port x).tdis (c + 1)).state == .run && (SMap.get {} (s.port x).ide (c + 1)).secure

/-- Whether the window of context `c` on port `x` is reachable (R380). -/
def State.winOpen (s : State) (c x : Nat) : Bool :=
  s.portOfCtx c == x && s.winSize c x != 0 && (!(s.winTdi c x || (s.ctx c).joint) || s.tdiRuns c x)

/-! Reach and bounds (R123, R125, R131). -/

/-- Step 5 of R131 for one side: the engine reaches the space, and a stack named lies in the partition. -/
def State.reachable (s : State) (a : Access) (space addr : Nat) : Bool :=
  match space with
  | 0 => true
  | 1 =>
    let k := (addr - 2 ^ 43) / stackBytes
    decide (2 ^ 43 ≤ addr) && decide (k < 12) && (s.stacksOf (a.ctx / 8)).contains k
  | 2 | 3 => a.frond.isSome
  | 4 | 5 => s.winOpen a.ctx (space - 4)
  | _ => false

/-- Whether the bytes `[addr + lo, addr + hi)` lie inside the bound of the space (R125). -/
def State.inBound (s : State) (a : Access) (space addr : Nat) (lo hi : Int) : Bool :=
  let b : Int := addr
  match space with
  | 0 => decide (0 ≤ b + lo) && decide (b + hi ≤ ((s.stacksOf (a.ctx / 8)).length * stackBytes : Nat))
  | 1 =>
    let k := (addr - 2 ^ 43) / stackBytes
    decide (((2 ^ 43 + k * stackBytes : Nat) : Int) ≤ b + lo)
      && decide (b + hi ≤ ((2 ^ 43 + (k + 1) * stackBytes : Nat) : Int))
  | 2 => decide (0 ≤ (addr % 2 ^ 20 : Int) + lo) && decide ((addr % 2 ^ 20 : Int) + hi ≤ (spadSize : Int))
  | 3 => decide (0 ≤ b + lo) && decide (b + hi ≤ (6291456 : Int))
  | 4 | 5 => decide (0 ≤ b + lo) && decide (b + hi ≤ ((2 ^ s.winSize a.ctx (space - 4) : Nat) : Int))
  | _ => false

/-- Reach and bound of a run of `n` bytes. -/
def State.holds (s : State) (a : Access) (space addr n : Nat) : Bool :=
  s.reachable a space addr && s.inBound a space addr 0 n

/-! Access. -/

/-- Bytes of host memory; a port whose link is down gives a bus error (R378). -/
def State.hostRead (s : State) (x addr n : Nat) : Option (List Byte) :=
  if (s.port x).linkUp then some (Mem.read (s.port x).hostMem addr n) else none

def State.hostWrite (s : State) (x addr : Nat) (bs : List Byte) : State × Bool :=
  if (s.port x).linkUp then
    (s.setPort x { s.port x with hostMem := Mem.write (s.port x).hostMem addr bs }, true)
  else (s, false)

/-- The module-wide pinna that a space-2 address names in a frond. -/
def pinnaAt (frond addr : Nat) : Nat := 24 * frond + bits addr 24 20

/-- Granules that a run of `n` bytes can touch. -/
def runFuel (n : Nat) : Nat := n / 8192 + 3

/-- `n` bytes of a space; none is a bus error. -/
def State.readSpace (s : State) (a : Access) (space addr n : Nat) : State × Option (List Byte) :=
  match space with
  | 0 | 1 => s.readView (a.ctx / 8) space addr n a.cls a.ctx (runFuel n)
  | 2 => (s, some (Mem.read (s.pinna (pinnaAt (a.frond.getD 0) addr)).spad (addr % 2 ^ 20) n))
  | 3 => (s, some (Mem.read (s.frond (a.frond.getD 0)).mem addr n))
  | 4 | 5 => (s, s.hostRead (space - 4) (s.winBase a.ctx (space - 4) + addr) n)
  | _ => (s, none)

/-- Bytes written to a space; false is a bus error. -/
def State.writeSpace (s : State) (a : Access) (space addr : Nat) (bs : List Byte) : State × Bool :=
  match space with
  | 0 | 1 => s.writeView (a.ctx / 8) space addr a.cls a.ctx bs (runFuel bs.length)
  | 2 =>
    let n := pinnaAt (a.frond.getD 0) addr
    (s.setPinna n { s.pinna n with spad := Mem.write (s.pinna n).spad (addr % 2 ^ 20) bs }, true)
  | 3 =>
    let f := a.frond.getD 0
    (s.setFrond f { s.frond f with mem := Mem.write (s.frond f).mem addr bs }, true)
  | 4 | 5 => s.hostWrite (space - 4) (s.winBase a.ctx (space - 4) + addr) bs
  | _ => (s, false)

/-- One line of a space written with byte enables: `es` lists offsets in the line and their bytes (01, the Write class of
the die-to-die protocol). -/
def State.writeEnabled (s : State) (a : Access) (space line : Nat) (es : List (Nat × Byte)) : State × Bool :=
  let addr := 64 * line
  match space with
  | 0 | 1 => match s.resolve (a.ctx / 8) space addr with
    | none => (s, false)
    | some (k, o) => s.writeMasked k (o / 64) a.cls a.ctx es
  | 4 | 5 =>
    let x := space - 4
    if (s.port x).linkUp then
      let b := s.winBase a.ctx x + addr
      (s.setPort x { s.port x with
        hostMem := es.foldl (fun m e => Mem.putByte m (b + e.1) e.2) (s.port x).hostMem }, true)
    else (s, false)
  | 2 =>
    let n := pinnaAt (a.frond.getD 0) addr
    let b := addr % 2 ^ 20
    (s.setPinna n { s.pinna n with spad := es.foldl (fun m e => Mem.putByte m (b + e.1) e.2) (s.pinna n).spad }, true)
  | 3 =>
    let f := a.frond.getD 0
    (s.setFrond f { s.frond f with mem := es.foldl (fun m e => Mem.putByte m (addr + e.1) e.2) (s.frond f).mem }, true)
  | _ => (s, false)

end Sys2Proof.Machine
end

