-- ==== Sys2Proof/Machine/Jobs.lean ====
section
/-!
DEFINITION. Completion records, faults of a context, and the end of commands (14_tenancy.md, R354 to R360).
-/
namespace Sys2Proof.Machine

/-! Queue registers (R354, R372). -/

/-- Offset of submission queue `q`'s registers on the `CTX` page. -/
def sqOff (q : Nat) : Nat := Reg.CTX_SQ + 16 * q

def State.qBase (s : State) (c o : Nat) : Nat := s.fld (.ctx c) o 43 0
def State.qSpace (s : State) (c o : Nat) : Nat := s.fld (.ctx c) o 46 44
def State.qEn (s : State) (c o : Nat) : Bool := s.fld (.ctx c) o 47 47 == 1
def State.qSize (s : State) (c o : Nat) : Nat := 2 ^ s.fld (.ctx c) o 51 48
def State.qHead (s : State) (c o : Nat) : Nat := s.fld (.ctx c) o 75 64
def State.qTail (s : State) (c o : Nat) : Nat := s.fld (.ctx c) o 107 96
def State.setHead (s : State) (c o v : Nat) : State := s.setFld (.ctx c) o 75 64 v
def State.setTail (s : State) (c o v : Nat) : State := s.setFld (.ctx c) o 107 96 v

/-- Whether a queue's space is one that R354 allows, and holds `n` bytes at its entry `addr`. -/
def State.queueHolds (s : State) (c space addr n : Nat) : Bool :=
  (space == 0 || space == 1 || space == 4 || space == 5) && s.holds { ctx := c } space addr n

/-! Faults (R360). -/

/-- A context becomes FAULTED; only an ACTIVE one changes. -/
def State.faultCtx (s : State) (c reason : Nat) : State :=
  let x := s.ctx c
  if x.state = .active then (s.setCtx c { x with state := .faulted, reason := reason }).raise (.ctx c) 0xA003 c reason else s

/-! Completion records (R357 to R359). -/

/-- A record but for its phase. -/
def recordBytes (code idx source : Nat) (t : Tally) (detail : Nat) : List Byte :=
  leBytes 2 code ++ leBytes 2 (idx % 4096 + source % 8 * 4096) ++ leBytes 4 (sat32 t.nan) ++ leBytes 4 (sat32 t.saturated)
    ++ leBytes 4 (sat32 t.flushed) ++ leBytes 4 (sat32 t.inexact) ++ leBytes 4 (sat32 t.zero) ++ leBytes 8 detail

/-- Records written and not yet returned. -/
def State.cqUsed (s : State) (c : Nat) : Nat :=
  let n := s.qSize c Reg.CTX_CQ
  (s.qTail c Reg.CTX_CQ + n - s.qHead c Reg.CTX_CQ % n) % n

/-- Entries of the completion queue that are neither written nor reserved by a started command; a queue whose en field
is 0 has none (log entry 14). -/
def State.cqFree (s : State) (c : Nat) : Nat :=
  if s.qEn c Reg.CTX_CQ then s.qSize c Reg.CTX_CQ - 1 - s.cqUsed c - (s.ctx c).jobs.length else 0

/-- A message on vector 0 of the context's VF (R379). -/
def State.ctxVector (s : State) (c : Nat) : State := s.sendMsix (s.portOfCtx c) (c + 1) 0

/-- A record written at the tail (R359), its COMPLETE record (R457), and the message if `irq`; a bus error faults the
context and leaves the tail. -/
def State.writeRecord (s : State) (c : Nat) (rec_ : List Byte) (irq : Bool) : State :=
  let o := Reg.CTX_CQ
  let tail := s.qTail c o
  let phase := s.fld (.ctx c) o 108 108
  let bs := rec_.set 3 ((rec_.getD 3 0#8) ||| BitVec.ofNat 8 (128 * phase))
  let addr := s.qBase c o + 32 * tail
  if !s.queueHolds c (s.qSpace c o) addr 32 then s.faultCtx c 3
  else match s.writeSpace { ctx := c } (s.qSpace c o) addr bs with
    | (s1, false) => s1.faultCtx c 3
    | (s1, true) =>
      let t := (tail + 1) % s.qSize c o
      let s2 := s1.setTail c o t
      let s3 := if t = 0 then s2.setFld (.ctx c) o 108 108 (1 - phase) else s2
      let s4 := s3.capRecord c 3 bs
      if irq then s4.ctxVector c else s4

/-- Waiting records of sources 4 to 7 written while entries are free (R359). -/
def State.drainRecords (s : State) (c : Nat) : State :=
  (s.ctx c).waiting.foldl (fun s r =>
    if s.cqFree c = 0 then s
    else
      let x := s.ctx c
      (s.setCtx c { x with waiting := x.waiting.drop 1 }).writeRecord c r true) s

/-- A record of sources 4 to 7: written, or held in the buffer of 64, or discarded (R359). A context that is FREE has no
records, and a halted partition posts none (R310, log entry 45). -/
def State.postRecord (s : State) (c : Nat) (rec_ : List Byte) : State :=
  let x := s.ctx c
  if x.state = .free ∨ s.haltedPart (c / 8) = true then s
  else if x.waiting.length < 64 then (s.setCtx c { x with waiting := x.waiting ++ [rec_] }).drainRecords c
  else
    let s1 := s.bump (.ctx c) Reg.CTX_CQ_OVERRUN
    s1.raiseLimited msTicks c (.ctx c) 0xA005 c (s1.word (.ctx c) Reg.CTX_CQ_OVERRUN)

/-! Entries (R355). -/

/-- Quadword `q` of an entry. -/
def qword (e : List Byte) (q : Nat) : Nat := leNat (slice e (8 * q) 8)
/-- The command byte. -/
def cmdOf (e : List Byte) : Nat := (e.getD 0 0#8).toNat
def entryIrq (e : List Byte) : Bool := (e.getD 1 0#8).getLsbD 0
def entryNocpl (e : List Byte) : Bool := (e.getD 1 0#8).getLsbD 1
/-- The step seed. -/
def entrySeed (e : List Byte) : BitVec 64 := BitVec.ofNat 64 (qword e 1)

/-- The detail field of an event's two arguments (R358). -/
def detailOf (a b : Nat) : Nat := a % 2 ^ 32 + b % 2 ^ 32 * 2 ^ 32

/-- The end of a started command: it leaves the list, its reserved entry takes its record unless nocpl applies, and
records that wait move up (R357, R359). A command of a halted partition or device has stopped and does not end (R310,
log entry 45). -/
def State.endJob (s : State) (c id code detail : Nat) : State :=
  if s.haltedPart (c / 8) then s
  else match findJob (s.ctx c).jobs id with
  | none => s
  | some j =>
    let x := s.ctx c
    let left := (x.jobs.filter (fun k => k.id ≠ id)).map (fun k => { k with waitFor := k.waitFor.filter (· ≠ id) })
    let s1 := s.setCtx c { x with jobs := left }
    let s2 := if code = 0 ∧ entryNocpl j.entry then s1
              else s1.writeRecord c (recordBytes code j.index j.queue j.tally detail) (entryIrq j.entry)
    s2.drainRecords c

/-- The end of a command by an event on the context's page, whose arguments are its detail (R358). -/
def State.endJobEvent (s : State) (c id code a b : Nat) : State :=
  if s.haltedPart (c / 8) then s else (s.raise (.ctx c) code a b).endJob c id code (detailOf a b)

/-- Conversions of a block (an engine, a Rhizoid) on behalf of a command added to its counts; each event once for the
command and the block (R54 to R57). `blk` names the block. -/
def State.jobTally (s : State) (c id : Nat) (pg : Page) (blk : Nat) (t : Tally) : State :=
  match findJob (s.ctx c).jobs id with
  | none => t.events.foldl (fun s e => s.raise pg e.1 e.2.1 e.2.2) s
  | some j =>
    let new := (j.tally.withCap t).events.filter (fun e => !j.noted.contains (blk, e.1))
    let s1 := s.updJob c id (fun j => { j with tally := (j.tally.plus t).capped, noted := j.noted ++ new.map (fun e => (blk, e.1)) })
    new.foldl (fun s e => s.raise pg e.1 e.2.1 e.2.2) s1

end Sys2Proof.Machine
end

