-- ==== Sys2Proof/Machine/Real.lean ====
section
/-!
DEFINITION. Exact real results of the arithmetic operations on exact values, before their one conversion
(05 R108, R109): sums, products, quotients, roots, exponentials and logarithms.
-/
namespace Sys2Proof.Machine

/-- floor of the square root, one result bit at a time from bit `n` down. -/
def isqrtFrom (x : Nat) : Nat → Nat → Nat
  | 0, r => if (r + 1) * (r + 1) ≤ x then r + 1 else r
  | n + 1, r =>
    let c := r + 2 ^ (n + 1)
    isqrtFrom x n (if c * c ≤ x then c else r)

/-- floor(√x). -/
def isqrt (x : Nat) : Nat := if x = 0 then 0 else isqrtFrom x (log2 x / 2 + 1) 0

/-- The exact sum of two values (IEEE signs of zero, R109). -/
def addVal (a b : Val) : Res :=
  match a, b with
  | .nan, _ => .nan false
  | _, .nan => .nan false
  | .inf p, .inf q => if p = q then .inf p else .nan true
  | .inf p, _ => .inf p
  | _, .inf q => .inf q
  | .fin n1 m1 e1, .fin n2 m2 e2 =>
    if m1 = 0 ∧ m2 = 0 then .fin (n1 && n2) 0 0 false
    else if m1 = 0 then .fin n2 m2 e2 false
    else if m2 = 0 then .fin n1 m1 e1 false
    else
      let e := min e1 e2
      let i1 : Int := (if n1 then -(m1 : Int) else m1) * (2 ^ (e1 - e).toNat : Nat)
      let i2 : Int := (if n2 then -(m2 : Int) else m2) * (2 ^ (e2 - e).toNat : Nat)
      .fin (decide (i1 + i2 < 0)) (i1 + i2).natAbs e false

/-- −a. -/
def negVal : Val → Val
  | .nan => .nan
  | .inf n => .inf (!n)
  | .fin n m e => .fin (!n) m e

/-- |a|. -/
def absVal : Val → Val
  | .nan => .nan
  | .inf _ => .inf false
  | .fin _ m e => .fin false m e

/-- The exact product (R109: 0 × ∞ is a NaN made here). -/
def mulVal (a b : Val) : Res :=
  match a, b with
  | .nan, _ => .nan false
  | _, .nan => .nan false
  | .inf p, .inf q => .inf (p != q)
  | .inf p, .fin n m _ => if m = 0 then .nan true else .inf (p != n)
  | .fin n m _, .inf q => if m = 0 then .nan true else .inf (n != q)
  | .fin n1 m1 e1, .fin n2 m2 e2 => .fin (n1 != n2) (m1 * m2) (e1 + e2) false

/-- An exact result as a value; only for results that are exact. -/
def Res.val : Res → Val
  | .nan _ => .nan
  | .inf n => .inf n
  | .fin n m e _ => .fin n m e

/-- a × b + c with one rounding to come (R108). -/
def fmaVal (a b c : Val) : Res :=
  match c, mulVal a b with
  | .nan, _ => .nan false
  | _, .nan made => .nan made
  | c, p => addVal p.val c

/-- The larger or the smaller of two values (R109: NaN if either is; the signed zeros are ordered). -/
def maxMinVal (isMax : Bool) (a b : Val) : Val :=
  match a, b with
  | .nan, _ => .nan
  | _, .nan => .nan
  | .fin n1 0 _, .fin n2 0 _ => .fin (if isMax then n1 && n2 else n1 || n2) 0 0
  | a, b => match a.cmp b with
    | .lt => if isMax then b else a
    | _ => if isMax then a else b

/-- The exact quotient a / b of finite values, `b` not zero, cut to at least 96 significant bits. -/
def divFin (n1 : Bool) (m1 : Nat) (e1 : Int) (n2 : Bool) (m2 : Nat) (e2 : Int) : Res :=
  if m1 = 0 then .fin (n1 != n2) 0 0 false
  else
    let k := bitLen m2 + 96
    let q := (m1 <<< k) / m2
    .fin (n1 != n2) q (e1 - e2 - k) (q * m2 != m1 <<< k)

/-- a / b (IEEE cases). -/
def divVal (a b : Val) : Res :=
  match a, b with
  | .nan, _ => .nan false
  | _, .nan => .nan false
  | .inf _, .inf _ => .nan true
  | .inf p, .fin n _ _ => .inf (p != n)
  | .fin n _ _, .inf q => .fin (n != q) 0 0 false
  | .fin n1 m1 e1, .fin n2 m2 e2 =>
    if m2 = 0 then (if m1 = 0 then .nan true else .inf (n1 != n2)) else divFin n1 m1 e1 n2 m2 e2

/-- 1 / a (R109). -/
def rcpVal (a : Val) : Res := divVal (.fin false 1 0) a

/-- √(m·2^e), cut to at least 96 significant bits. -/
def sqrtFin (m : Nat) (e : Int) : Res :=
  if m = 0 then .fin false 0 0 false
  else
    let k : Nat := 2 * (bitLen m + 96) + (if (e - 2 * (bitLen m + 96 : Nat)) % 2 = 0 then 0 else 1)
    let x := m <<< k
    let r := isqrt x
    .fin false r ((e - k) / 2) (r * r != x)

/-- √a: NaN for a negative number, ±0 kept. -/
def sqrtVal (a : Val) : Res :=
  match a with
  | .nan => .nan false
  | .inf n => if n then .nan true else .inf false
  | .fin n m e => if m = 0 then .fin n 0 0 false else if n then .nan true else sqrtFin m e

/-- 1/√a (R109: ±∞ at ±0, +0 at +∞, NaN below zero). -/
def rsqrtVal (a : Val) : Res :=
  match a with
  | .nan => .nan false
  | .inf n => if n then .nan true else .fin false 0 0 false
  | .fin n m e =>
    if m = 0 then .inf n
    else if n then .nan true
    else
      -- 1/√(m·2^e) = √(2^(2k)/m)·2^(−k − e/2), with the factor 2 of an odd e moved into m
      let odd := e % 2 != 0
      let m' := if odd then 2 * m else m
      let e' := if odd then e - 1 else e
      let k := bitLen m' + 96
      let q := 2 ^ (2 * k) / m'
      let r := isqrt q
      .fin false r (-(k : Int) - e' / 2) (r * r * m' != 2 ^ (2 * k))

/-- floor(m·2^e·2^p). -/
def fixedFloor (m : Nat) (e : Int) (p : Nat) : Nat :=
  let s := e + p
  if 0 ≤ s then m <<< s.toNat else m >>> (-s).toNat

/-- Lower bound of Σ z^(2i+1)/(2i+1) · 2^p from the term `t` = z^(2i+1) on, with z2 = z² in fixed point. -/
def atanhSum (p z2 : Nat) : Nat → Nat → Nat → Nat
  | 0, _, _ => 0
  | n + 1, t, i => t / (2 * i + 1) + atanhSum p z2 n ((t * z2) >>> p) (i + 1)

/-- A lower bound of 2·atanh(a/b)·2^p for 0 ≤ a/b ≤ 1/3, short of it by less than 8·p. -/
def atanh2 (a b p : Nat) : Nat :=
  let z := (a <<< p) / b
  2 * atanhSum p ((z * z) >>> p) p z 0

/-- A lower bound of ln 2 · 2^p, short of it by less than 8·p. -/
def ln2Fixed (p : Nat) : Nat := atanh2 1 3 p

/-- Lower bound of Σ r^n/n! · 2^p from the term `t` on. -/
def expSum (p r : Nat) : Nat → Nat → Nat → Nat
  | 0, _, _ => 0
  | n + 1, t, i => t + expSum p r n (((t * r) >>> p) / i) (i + 1)

/-- The common leading 90 bits of two bounds of a positive number in units of 2^u, where they agree. -/
def agree (lo hi : Nat) (u : Int) : Option (Nat × Int) :=
  let k := bitLen lo - 90
  if lo = 0 then none else if lo >>> k = hi >>> k then some (lo >>> k, u + k) else none

/-- Leading bits of e^(±m·2^e) at working precision `p`, for arguments of moderate size. -/
def expTry (neg : Bool) (m : Nat) (e : Int) (p : Nat) : Option (Nat × Int) :=
  let x := fixedFloor m e p
  let l := ln2Fixed p
  -- x lies in [x, x + 1], ln 2 in [l, l + 8p]
  let k := x / (l + 8 * p)
  let kk := if neg then x / l + 1 else k
  let rlo : Nat := if neg then kk * l - (x + 1) else x - k * (l + 8 * p)
  let rhi : Nat := if neg then kk * (l + 8 * p) - x else x + 1 - k * l
  let lo := expSum p rlo p (2 ^ p) 1
  let hi := expSum p rhi p (2 ^ p) 1 + 8 * p
  agree lo hi ((if neg then -(kk : Int) else k) - p)

/-- The working precisions tried in turn. -/
def precisions : List Nat := [256, 512, 1024, 2048, 4096]

/-- The first precision that decides, or the bits `d`. -/
def firstSome (f : Nat → Option (Nat × Int)) (d : Nat × Int) : List Nat → Nat × Int
  | [] => d
  | p :: ps => match f p with
    | some r => r
    | none => firstSome f d ps

/-- e^a (R108, R109). A non-zero finite argument has an irrational result, so it is never exact. -/
def expVal (a : Val) : Res :=
  match a with
  | .nan => .nan false
  | .inf n => if n then .fin false 0 0 false else .inf false
  | .fin n m e =>
    if m = 0 then .fin false 1 0 false
    else
      let top := (log2 m : Int) + e
      if 12 < top then (if n then .fin false 1 (-6000) true else .fin false 1 6000 true)
      else if top < -120 then
        (if n then .fin false (2 ^ 101 - 1) (-101) true else .fin false (2 ^ 100) (-100) true)
      else
        let r := firstSome (expTry n m e) (1, 0) precisions
        .fin false r.1 r.2 true

/-- Bounds of ln(m·2^e)·2^p. -/
def lnBounds (m : Nat) (e : Int) (p : Nat) : Int × Int :=
  -- m·2^e = y·2^k with y = m/2^s in [3/4, 3/2)
  let b := bitLen m
  let s := if 3 * 2 ^ b ≤ 4 * m then b else b - 1
  let k : Int := e + s
  let up := decide (2 ^ s ≤ m)
  let z := if up then m - 2 ^ s else 2 ^ s - m
  let f := atanh2 z (m + 2 ^ s) p
  let l := ln2Fixed p
  let flo : Int := if up then (f : Int) else -((f + 8 * p : Nat) : Int)
  let fhi : Int := if up then ((f + 8 * p : Nat) : Int) else -(f : Int)
  let klo : Int := if 0 ≤ k then k * l else k * ((l + 8 * p : Nat) : Int)
  let khi : Int := if 0 ≤ k then k * ((l + 8 * p : Nat) : Int) else k * (l : Int)
  (klo + flo, khi + fhi)

/-- Leading bits of |a + ln(m·2^e)| at working precision `p`, with the sign; `a` is an integer times 2^ea. -/
def lnTry (a : Int) (ea : Int) (m : Nat) (e : Int) (p : Nat) : Option (Bool × Nat × Int) :=
  let s := ea + p
  let add : Int := if 0 ≤ s then a * (2 ^ s.toNat : Nat) else a / (2 ^ s.natAbs : Nat)
  let lo := (lnBounds m e p).1 + add
  let hi := (lnBounds m e p).2 + add + (if 0 ≤ s then 0 else 1)
  if 0 < lo then (agree lo.toNat hi.toNat (-(p : Int))).map (fun r => (false, r.1, r.2))
  else if hi < 0 then (agree (-hi).toNat (-lo).toNat (-(p : Int))).map (fun r => (true, r.1, r.2))
  else none

/-- The first precision at which the sum is decided. -/
def lnFirst (a : Int) (ea : Int) (m : Nat) (e : Int) : List Nat → Bool × Nat × Int
  | [] => (false, 1, 0)
  | p :: ps => match lnTry a ea m e p with
    | some r => r
    | none => lnFirst a ea m e ps

/-- ln a (R108, R109). -/
def lnVal (a : Val) : Res :=
  match a with
  | .nan => .nan false
  | .inf n => if n then .nan true else .inf false
  | .fin n m e =>
    if m = 0 then .inf true
    else if n then .nan true
    else if cmpMag m e 1 0 = .eq then .fin false 0 0 false
    else
      let r := lnFirst 0 0 m e precisions
      .fin r.1 r.2.1 r.2.2 true

/-- a + ln b as one exact real value (R163). -/
def plusLn (a b : Val) : Res :=
  match a, b with
  | .fin na ma ea, .fin false mb eb =>
    if mb = 0 ∨ cmpMag mb eb 1 0 = .eq then (if mb = 0 then .inf true else a.res)
    else
      let r := lnFirst (if na then -(ma : Int) else ma) ea mb eb precisions
      .fin r.1 r.2.1 r.2.2 true
  | a, b => addVal a (lnVal b).val

/-- A result rounded to nearest even in a plain format, as its exact value again, for pipelines that round at every
step. -/
def roundTo (f : Fmt) (x : Res) : Val := decodeElem f (convert f false .rne 0 x).1

end Sys2Proof.Machine
end

