-- ==== Sys2Proof/Machine/VecValue.lean ====
section
/-!
DEFINITION. What a vector instruction checks, reads, computes and writes (05_vector_engine.md, R100 to R115).
-/
namespace Sys2Proof.Machine

/-- The fields of a vector instruction (R101). -/
structure VFields where
  op : Nat
  fmt : Nat
  fmt2 : Nat
  rd : Nat
  ra : Nat
  rb : Nat
  count : Nat
  mask : Nat
  md : Nat
  ximm : Bool
  isrc : Bool
  rnd : Nat
  sub : Nat
  sn : Nat
  deriving DecidableEq, Repr

def vFields (w : Nat) : VFields :=
  { op := bits w 63 56, fmt := bits w 55 52, fmt2 := bits w 51 48, rd := bits w 47 44, ra := bits w 43 40,
    rb := bits w 39 36, count := bits w 35 23, mask := bits w 22 20, md := bits w 19 17, ximm := bit w 16,
    isrc := bit w 15, rnd := bits w 14 13, sub := bits w 11 8, sn := bits w 7 3 }

/-- The operations of R110, by class. -/
def vBinary (op : Nat) : Bool := decide (0x80 ≤ op) && decide (op ≤ 0x85) || op == 0x90 || op == 0x91
def vUnary (op : Nat) : Bool := decide (0x86 ≤ op) && decide (op ≤ 0x8B) || op == 0x8D || op == 0x8E
def vMove (op : Nat) : Bool := op == 0x92 || op == 0x93
def vMaskOp (op : Nat) : Bool := op == 0x94 || op == 0x95 || op == 0x96
def vSum (op : Nat) : Bool := op == 0xA0 || op == 0xA1 || op == 0xA4
def vExtreme (op : Nat) : Bool := op == 0xA2 || op == 0xA3
def vReduce (op : Nat) : Bool := vSum op || vExtreme op

/-- The operations that round (R110). -/
def vRounds (op : Nat) : Bool :=
  (decide (0x80 ≤ op) && decide (op ≤ 0x83)) || (decide (0x88 ≤ op) && decide (op ≤ 0x8E)) || vSum op

/-- Byte width of the plain formats and of W96. -/
def vWidth (fmt : Nat) : Nat :=
  match fmt with
  | 0 => 4 | 1 => 2 | 2 => 2 | 3 => 8 | 0xB => 12 | _ => 1

/-- The format code of what the operation writes. -/
def VFields.outFmt (f : VFields) : Nat :=
  if f.op == 0x8D || vSum f.op then f.fmt2 else if f.op == 0x8E then 0 else f.fmt

/-- Lanes of a format (R100). -/
def vLanes (fmt : Nat) : Nat :=
  match fmt with
  | 0 => 64 | 3 => 16 | _ => 128

/-- The runs of scratchpad bytes an instruction reads: base register value and length. -/
def VFields.reads (f : VFields) (q : QEntry) : List (Nat × Nat) :=
  if f.op == 0x94 || f.op == 0x96 then []
  else if f.op == 0x95 then [(q.a f.ra, ceilDiv f.count 8)]
  else
    let n := f.count * vWidth f.fmt
    [(q.a f.ra, n)] ++ (if vBinary f.op && !f.ximm then [(q.a f.rb, n)] else [])
      ++ (if f.op == 0x83 then [(q.a f.rd, n)] else [])

/-- The run it writes. The two words of `VRMOMENT` are one run, and a reduction with count 0 writes no byte, so neither its
range nor its overlap is checked (DESIGN CHOICE, log entry 106). -/
def VFields.writes (f : VFields) (q : QEntry) : List (Nat × Nat) :=
  if f.op == 0x94 || f.op == 0x95 || f.op == 0x90 then []
  else if f.op == 0x96 then [(q.a f.rd, ceilDiv f.count 8)]
  else if vReduce f.op then
    [(q.a f.rd, if f.count = 0 then 0 else vWidth f.outFmt * (if f.op == 0xA4 then 2 else 1))]
  else [(q.a f.rd, f.count * vWidth f.outFmt)]

/-- The fields of R101 to R103 and R115 (check 2): unused fields are 0, reserved values are absent, and the immediate
slot and the scalar base are legal. `slotOk` is the placement of the immediate slot (R102). `VSCALE` reads a 32-bit k for
every fmt, so its immediate may name s31 and may have bits above 15 (DESIGN CHOICE, log entry 106). -/
def VFields.fieldsOk (f : VFields) (w : Nat) (ext : Nat) (slotOk : Bool) (q : QEntry) : Bool :=
  let usesMask := f.op == 0x91 || vMove f.op || f.op == 0x94 || f.op == 0x96
  let writesMask := f.op == 0x90 || f.op == 0x94 || f.op == 0x95
  let usesRd := !(f.op == 0x90 || f.op == 0x94 || f.op == 0x95)
  let usesRa := !(f.op == 0x94 || f.op == 0x96)
  let usesFmt2 := f.op == 0x8D || f.op == 0x8E || vSum f.op
  let immOk :=
    !f.ximm || (slotOk && ext >>> 32 == 0
      && (if f.isrc then bits ext 31 5 == 0 && !(f.fmt == 3 && f.op != 0x8C && ext % 32 == 31)
          else !((f.fmt == 1 || f.fmt == 2) && f.op != 0x8C && bits ext 31 16 != 0)))
  let base := q.s (f.sn + 1) + 2 ^ 32 * (q.s (f.sn + 2) % 2 ^ 16)
  bits w 12 12 == 0 && bits w 2 0 == 0
    && (f.rnd == 0 || (f.rnd == 1 && vRounds f.op))
    && (if f.op == 0x90 then decide (f.sub ≤ 7) else if f.op == 0x94 then decide (f.sub ≤ 4) else f.sub == 0)
    && (if writesMask then f.md != 0 else f.md == 0)
    && (usesMask || f.mask == 0)
    && (usesRd || f.rd == 0) && (usesRa || f.ra == 0)
    && (if f.op == 0x94 then decide (f.rb < 8) && (f.sub != 4 || f.rb == 0)
        else (vBinary f.op && !f.ximm) || f.rb == 0)
    && (if f.op == 0x8C then f.ximm else vBinary f.op || !f.ximm)
    && (f.ximm || !f.isrc)
    && (usesFmt2 || f.fmt2 == 0)
    && (!vMaskOp f.op || f.fmt == 0)
    && immOk
    && (if f.rnd = 1 then
          decide (f.sn ≤ 29) && q.s f.sn % 2 ^ 16 != 0 && decide (base + f.count ≤ 2 ^ 48)
        else f.op == 0x92 || f.sn == 0)

/-- The formats that the operation uses (check 3). -/
def VFields.fmtsOk (f : VFields) : Bool :=
  if vMaskOp f.op then true
  else decide (f.fmt ≤ 3)
    && (f.op != 0x8D || decide (f.fmt2 ≤ 3))
    && (f.op != 0x8E || (f.fmt == 0 && (f.fmt2 == 1 || f.fmt2 == 2)))
    && (!vSum f.op || (f.fmt2 == 0 || f.fmt2 == 3 || f.fmt2 == 0xB))

/-- The operand ranges and alignments (check 5, R105). -/
def VFields.rangesOk (f : VFields) (q : QEntry) : Bool :=
  let align (fmt : Nat) : Nat := if fmt = 0xB then 4 else vWidth fmt
  let wIn := if vMaskOp f.op then 1 else align f.fmt
  let wOut := if vMaskOp f.op then 1 else align f.outFmt
  (f.reads q).all (fun r => inSpad r.1 r.2) && (f.writes q).all (fun r => inSpad r.1 r.2)
    && (if f.op == 0x94 || f.op == 0x96 then true else q.a f.ra % wIn == 0)
    && (if vBinary f.op && !f.ximm then q.a f.rb % wIn == 0 else true)
    && (if f.op == 0x90 || f.op == 0x94 || f.op == 0x95 then true else q.a f.rd % wOut == 0)

/-- No partial overlap of a destination and a source (check 6, R106). -/
def VFields.overlapOk (f : VFields) (q : QEntry) : Bool :=
  (f.writes q).all (fun d => (f.reads q).all (fun r => d == r || !cross d.1 d.2 r.1 r.2))

/-- The code with which a vector instruction is refused at issue, by the first check that fails (R101). -/
def VFields.refusal (f : VFields) (w ext : Nat) (slotOk : Bool) (q : QEntry) : Option Nat :=
  if !f.fieldsOk w ext slotOk q then some 0x4003
  else if !f.fmtsOk then some 0x4002
  else if 4096 < f.count then some 0x4001
  else if !f.rangesOk q then some 0x4004
  else if !f.overlapOk q then some 0x4005
  else none

/-! Values. -/

/-- Element `k` of a run of bytes in a plain format. -/
def vElem (fmt : Nat) (bs : List Byte) (k : Nat) : Val :=
  let w := vWidth fmt
  decodeElem ((Fmt.ofCode fmt).getD .fp32) (leNat (slice bs (k * w) w))

/-- The scalar operand B (R103). -/
def vScalar (f : VFields) (q : QEntry) : Val :=
  let imm := q.ext.toNat % 2 ^ 32
  if f.isrc then
    let r := imm % 32
    match f.fmt with
    | 3 => decodeElem .fp64 (q.s r + 2 ^ 32 * q.s (r + 1))
    | 0 => decodeElem .fp32 (q.s r)
    | c => decodeElem ((Fmt.ofCode c).getD .bf16) (q.s r % 2 ^ 16)
  else match f.fmt with
    | 1 | 2 => decodeElem ((Fmt.ofCode f.fmt).getD .bf16) (imm % 2 ^ 16)
    | _ => decodeElem .fp32 imm

/-- The integer k of `VSCALE` (R103). -/
def vScaleK (f : VFields) (q : QEntry) : Int :=
  let imm := q.ext.toNat % 2 ^ 32
  signed 32 (if f.isrc then q.s (imm % 32) else imm)

/-- A mask register: m0 reads as all ones (R112). -/
def Pinna.maskReg (p : Pinna) (i : Nat) : Nat := if i = 0 then 2 ^ 4096 - 1 else SMap.get 0 p.masks i

/-- The predicate of `VCMP` (R111). -/
def vPredicate (sub : Nat) (a b : Val) : Bool :=
  let un := a.isNan || b.isNan
  let c := a.cmp b
  match sub with
  | 0 => !un && c == .eq
  | 1 => un || c != .eq
  | 2 => !un && c == .lt
  | 3 => !un && (c == .lt || c == .eq)
  | 4 => !un && c == .gt
  | 5 => !un && (c == .gt || c == .eq)
  | 6 => un
  | _ => !un

/-- The exact result of an element-wise operation on A[k], B[k], the old d[k] and the mask bit (R110). -/
def vElementOp (op : Nat) (k : Int) (a b d : Val) (m : Bool) : Res :=
  match op with
  | 0x80 => addVal a b
  | 0x81 => addVal a (negVal b)
  | 0x82 => mulVal a b
  | 0x83 => fmaVal a b d
  | 0x84 => (maxMinVal true a b).res
  | 0x85 => (maxMinVal false a b).res
  | 0x86 => (absVal a).res
  | 0x87 => (negVal a).res
  | 0x88 => rcpVal a
  | 0x89 => rsqrtVal a
  | 0x8A => expVal a
  | 0x8B => lnVal a
  | 0x8C => (a.scale k).res
  | 0x91 => if m then a.res else b.res
  | _ => a.res

/-- The rounding mode of an instruction and the index of its element 0 (R115). -/
def vRnd (f : VFields) (q : QEntry) (l : Launch) : Rnd × Nat :=
  if f.rnd = 1 then
    let s0 := q.s f.sn
    (.stoch l.seed (BitVec.ofNat 32 (s0 % 2 ^ 16 * 2 ^ 16 + s0 / 2 ^ 16)) l.proth,
      q.s (f.sn + 1) + 2 ^ 32 * (q.s (f.sn + 2) % 2 ^ 16))
  else (.rne, 0)

/-- What a vector instruction writes: its bytes, its counts, what the ledger adds under which format code. -/
structure VResult where
  data : List Byte := []
  tally : Tally := {}
  wrote : Wrote := {}
  ledgerFmt : Nat := 0
  nan : Bool := false
  deriving DecidableEq, Repr

/-- One more element of a result, written as code `c` of format `g` on `w` bytes and counted under `f`. -/
def VResult.push (r : VResult) (f : Fmt) (fc c : Nat) (k : Kind) (idx w out : Nat) : VResult :=
  { r with data := r.data ++ leBytes w out, tally := r.tally.count k fc idx,
           wrote := r.wrote.add (Wrote.one f c k false 0), ledgerFmt := fc,
           nan := r.nan || (match k with
             | .nan _ => true
             | _ => false) }

/-- The element-wise operations (R108, R110). `VSROUND` counts under fmt2 and is written as FP32. -/
def vElementwise (f : VFields) (q : QEntry) (p : Pinna) (l : Launch) : VResult :=
  let n := f.count
  let wi := vWidth f.fmt
  let as := Mem.read p.spad (q.a f.ra) (n * wi)
  let bs := if vBinary f.op && !f.ximm then Mem.read p.spad (q.a f.rb) (n * wi) else []
  let ds := if f.op == 0x83 then Mem.read p.spad (q.a f.rd) (n * wi) else []
  let sc := vScalar f q
  let kk := vScaleK f q
  let m := p.maskReg f.mask
  let (rnd, base) := vRnd f q l
  let outC := if f.op == 0x8E then f.fmt2 else f.outFmt
  let g := (Fmt.ofCode outC).getD .fp32
  (List.range n).foldl (fun r k =>
    let a := vElem f.fmt as k
    let b := if f.ximm then sc else vElem f.fmt bs k
    let d := vElem f.fmt ds k
    let (c, kind) := convert g false rnd (base + k) (vElementOp f.op kk a b d (m.testBit k))
    let out := if f.op == 0x8E then (convert .fp32 false .rne 0 (decodeElem g c).res).1 else c
    r.push g outC c kind (base + k) (vWidth f.outFmt) out) {}

/-- A running W96 sum with what its additions met (R66, R67). -/
structure WSum where
  word : W96 := 0#96
  lost : Bool := false
  range : Bool := false
  flushed : Bool := false
  deriving DecidableEq, Repr

/-- One more exact addend. -/
def WSum.add (a : WSum) (v : Val) : WSum :=
  let r := w96AddVal a.word v
  { word := r.word, lost := a.lost || r.lost, range := a.range || r.range, flushed := a.flushed || r.flushed }

/-- Two lanes combined. -/
def WSum.join (a b : WSum) : WSum :=
  let r := a.add (W96.val b.word)
  { r with lost := r.lost || b.lost, range := r.range || b.range, flushed := r.flushed || b.flushed }

/-- A list combined by the binary tree of R81 step 1: at each level, element 2i adds element 2i + 1. -/
def pairUp {α : Type} (f : α → α → α) : List α → List α
  | a :: b :: t => f a b :: pairUp f t
  | l => l

/-- All levels of the tree; `fuel` is at least the number of levels. -/
def treeFold {α : Type} (f : α → α → α) : Nat → List α → List α
  | 0, l => l
  | k + 1, l => treeFold f k (pairUp f l)

/-- The lanes of a run: lane l takes elements l, l + L, … (R114). -/
def lanesOf (vs : List Val) (L : Nat) : List (List Val) :=
  (List.range L).map (fun l => (List.range (ceilDiv vs.length L)).filterMap (fun i => vs[l + i * L]?))

/-- The native sum of a run (R114). -/
def sumW96 (vs : List Val) (L : Nat) : WSum :=
  ((treeFold WSum.join 8 ((lanesOf vs L).map (fun l => l.foldl WSum.add {}))).head?).getD {}

/-- A running FP32 sum of Prothallus mode (R188), with the worst its roundings met. -/
structure FSum where
  val : Val := .fin false 0 0
  kind : Kind := .exact
  deriving DecidableEq, Repr

/-- The graver of two outcomes of roundings, in the precedence of R55. -/
def Kind.worse (a b : Kind) : Kind :=
  match a, b with
  | .nan m, _ => .nan m
  | _, .nan m => .nan m
  | .saturated, _ | _, .saturated => .saturated
  | .flushed, _ | _, .flushed => .flushed
  | .inexact, _ | _, .inexact => .inexact
  | _, _ => .exact

/-- One more addend, rounded to FP32; an infinite or NaN addend makes the sum NaN (R36, R114). -/
def FSum.add (a : FSum) (v : Val) : FSum :=
  match v with
  | .inf _ | .nan => { val := .nan, kind := .exact }
  | v =>
    let (c, k) := convert .fp32 false .rne 0 (addVal a.val v)
    { val := decodeElem .fp32 c, kind := match k with
        | .nan _ => a.kind
        | k => a.kind.worse k }

def FSum.join (a b : FSum) : FSum :=
  let r := a.add b.val
  { r with kind := r.kind.worse b.kind }

def sumFP32 (vs : List Val) (L : Nat) : FSum :=
  ((treeFold FSum.join 8 ((lanesOf vs L).map (fun l => l.foldl FSum.add {}))).head?).getD {}

/-- One sum of a reduction written in fmt2 (R114): a W96 word as it stands, or rounded once. A sum made NaN by an infinite
element raises 0x1001 alone, also where it is then written as FP32 or FP64 (DESIGN CHOICE, log entry 106). -/
def vWriteSum (r : VResult) (f : VFields) (vs : List Val) (proth : Bool) (rnd : Rnd) (idx : Nat) : VResult :=
  let L := vLanes f.fmt
  let hadNan := vs.any Val.isNan
  let w : WSum := if proth then (let a := sumFP32 vs L; { word := w96OfVal a.val }) else sumW96 vs L
  let inner : Kind := if proth then (sumFP32 vs L).kind
    else if w.flushed then .flushed else if w.lost then .inexact else .exact
  let v := W96.val w.word
  let r0 := if w.range then { r with tally := r.tally.event 0x1005 f.fmt2 idx } else r
  if v.isNan then
    let nanCode := match f.fmt2 with
      | 0xB => W96.nan.toNat
      | c => (((Fmt.ofCode c).getD .fp32).nanCode).getD 0
    { r0 with data := r0.data ++ leBytes (vWidth f.fmt2) nanCode, tally := r0.tally.count (.nan (!hadNan)) f.fmt2 idx,
              wrote := r0.wrote.add { elem := 1, nonfin := 1 }, ledgerFmt := f.fmt2, nan := true }
  else if f.fmt2 = 0xB then
    { r0 with data := r0.data ++ leBytes 12 w.word.toNat, tally := r0.tally.count inner 0xB idx,
              wrote := r0.wrote.add { elem := 1, flush := if w.flushed then 1 else 0 }, ledgerFmt := 0xB }
  else
    let g := (Fmt.ofCode f.fmt2).getD .fp32
    let (c, k) := convert g false rnd idx v.res
    r0.push g f.fmt2 c (k.worse inner) idx (vWidth f.fmt2) c

/-- The reductions (R114). -/
def vReduction (f : VFields) (q : QEntry) (p : Pinna) (l : Launch) : VResult :=
  let bs := Mem.read p.spad (q.a f.ra) (f.count * vWidth f.fmt)
  let vs := (List.range f.count).map (vElem f.fmt bs)
  let (rnd, base) := vRnd f q l
  if vExtreme f.op then
    let v := match vs with
      | [] => Val.nan
      | v :: t => t.foldl (maxMinVal (f.op == 0xA2)) v
    let g := (Fmt.ofCode f.fmt).getD .fp32
    let (c, k) := convert g false .rne 0 v.res
    VResult.push {} g f.fmt c k 0 (vWidth f.fmt) c
  else
    let sq := vs.map (fun v => (mulVal v v).val)
    let r1 := if f.op == 0xA1 then {} else vWriteSum {} f vs l.proth rnd base
    if f.op == 0xA0 then r1 else vWriteSum r1 f sq l.proth rnd (if f.op == 0xA4 then base + 1 else base)

/-- The new value of the mask register that `VCMP`, `VMLOGIC` or `VMLD` writes (R111, R112). -/
def vMaskResult (f : VFields) (q : QEntry) (p : Pinna) : Nat :=
  let low := 2 ^ f.count
  match f.op with
  | 0x94 =>
    let a := p.maskReg f.mask
    let b := p.maskReg f.rb
    let ones := 2 ^ 4096 - 1
    (match f.sub with
      | 0 => a &&& b | 1 => a ||| b | 2 => a ^^^ b | 3 => a &&& (ones ^^^ b) | _ => ones ^^^ a) % low
  | 0x95 => leNat (Mem.read p.spad (q.a f.ra) (ceilDiv f.count 8)) % low
  | _ =>
    let n := f.count * vWidth f.fmt
    let as := Mem.read p.spad (q.a f.ra) n
    let bs := if f.ximm then [] else Mem.read p.spad (q.a f.rb) n
    let sc := vScalar f q
    (List.range f.count).foldl (fun m k =>
      let b := if f.ximm then sc else vElem f.fmt bs k
      if vPredicate f.sub (vElem f.fmt as k) b then m + 2 ^ k else m) 0

/-- The set bits below `count` of a mask. -/
def setBitsOf (m count : Nat) : List Nat := (List.range count).filter (fun k => m.testBit k)

/-- The scratchpad after `VCOMPRESS` or `VEXPAND` (R113). -/
def vMoved (f : VFields) (q : QEntry) (p : Pinna) : Mem :=
  let w := vWidth f.fmt
  let ks := setBitsOf (p.maskReg f.mask) f.count
  let src := Mem.read p.spad (q.a f.ra) (f.count * w)
  (ks.zipIdx).foldl (fun m x =>
    let (k, j) := x
    if f.op == 0x92 then Mem.write m (q.a f.rd + j * w) (slice src (k * w) w)
    else Mem.write m (q.a f.rd + k * w) (slice src (j * w) w)) p.spad

/-- What a vector instruction writes: scratchpad, masks and scalar registers, its counts, and whether a NaN was written
(R104, R110 to R114). -/
def State.vecWrite (s : State) (n : Nat) (q : QEntry) (l : Launch) : State × Bool :=
  let p := s.pinna n
  let f := vFields q.word.toNat
  let done (s : State) : State := s.bump (pnaPage n) Reg.PNA_VEC_DONE
  if f.count = 0 then (done s, false)
  else if f.op == 0x90 || f.op == 0x94 || f.op == 0x95 then
    (done (s.setPinna n { p with masks := SMap.set 0 p.masks f.md (vMaskResult f q p) }), false)
  else if f.op == 0x96 then
    (done (s.setPinna n { p with spad := Mem.write p.spad (q.a f.rd)
                                   (leBytes (ceilDiv f.count 8) (p.maskReg f.mask % 2 ^ f.count)) }), false)
  else if vMove f.op then
    let p1 := { p with spad := vMoved f q p }
    let c := (setBitsOf (p.maskReg f.mask) f.count).length
    (done (s.setPinna n (if f.op == 0x92 then p1.setS f.sn (BitVec.ofNat 32 c) else p1)), false)
  else
    let r := if vReduce f.op then vReduction f q p l else vElementwise f q p l
    let s1 := s.setPinna n { p with spad := Mem.write p.spad (q.a f.rd) r.data }
    (done ((s1.pinnaTally n r.tally).ledgerAdd l.ctx r.ledgerFmt r.wrote), r.nan)

/-- The elements that a vector instruction writes to the scratchpad: the run and the width of one (a byte of `VMST`). -/
def VFields.elements (f : VFields) (q : QEntry) : List (Nat × Nat × Nat) :=
  (f.writes q).map (fun r => (r.1, if f.op == 0x96 then 1 else vWidth f.outFmt, r.2))

/-- The scratchpad of an interrupted vector instruction (R117): each element of its destination holds its old value or its
new one, by a free choice `new` of the element. -/
def interrupted (old done : Mem) (new : Nat → Bool) (f : VFields) (q : QEntry) : Mem :=
  (f.elements q).foldl (fun m r => (List.range (r.2.2 / r.2.1)).foldl (fun m k =>
    if new k then Mem.write m (r.1 + k * r.2.1) (Mem.read done (r.1 + k * r.2.1) r.2.1) else m) m) old

end Sys2Proof.Machine
end

