-- ==== Sys2Proof/Machine/Sequencer.lean ====
section
/-!
DEFINITION. The pinna's sequencer: the end of a program, loops and the program counter, the queues of the arrays and of
the vector engine (03_matrix_and_accumulation.md, R58 to R61, R69, R79, R86, R89; 05_vector_engine.md, R107, R116, R117).
-/
namespace Sys2Proof.Machine

/-- Whether an opcode is of the matrix and group class, or of the vector class (R58). -/
def isMatrix (op : Nat) : Bool := decide (0x40 ≤ op) && decide (op ≤ 0x4F)
def isVector (op : Nat) : Bool := decide (0x80 ≤ op)

/-- The group a matrix or group instruction names (R70, R74, R75, R77, R80). -/
def groupOf (w : Nat) : Nat := if fOp w = 0x40 then bits w 47 44 else bits w 51 48

/-- The group that an instruction names, 0 where it names none (R89). -/
def groupNamed (w : Nat) : Nat := if isMatrix (fOp w) then groupOf w else 0

/-! The end of a program (R86). -/

/-- 0x300C for every group still OPEN or INVALID (R86 step 1). -/
def State.openAtHalt (s : State) (n idx : Nat) : State :=
  (List.range 16).foldl (fun s g =>
    match ((s.pinna n).group g).state with
    | .opened | .invalid => s.raise (pnaPage n) 0x300C idx g
    | _ => s) s

/-- The pinna's part of its LAUNCH ends: its counts and its stopping event go to the command (R357). -/
def State.pinnaReport (s : State) (n : Nat) (stop : Option (Nat × Nat × Nat)) : State :=
  match (s.pinna n).launch with
  | none => s
  | some l =>
    let p := s.pinna n
    s.updJob l.ctx l.job (fun j =>
      { j with pinnae := j.pinnae.filter (fun k => k ≠ n), tally := j.tally.join p.tally,
               miss := match j.miss, p.miss with
                 | some (k, m), some m' => if n < k then some (n, m') else some (k, m)
                 | none, some m' => some (n, m')
                 | o, none => o,
               stops := match stop with
                 | some (c, a, b) => j.stops ++ [(n, c, a, b)]
                 | none => j.stops })

/-- Steps 2 and 3 of R86 begin: queued instructions are abandoned and the zeroing starts. -/
def Pinna.quit (p : Pinna) (seq : SeqState) : Pinna :=
  { p with seq := seq, queue := [], loops := [], treeRun := none, stall := none, launch := none, zeroing := true,
           halted := true, tally := {}, miss := none }

/-- Where the sequencer goes after the instruction before `next`: the newest loop whose body ends there starts its next
trip or ends. -/
def loopEnd : List LoopRec → Nat → List LoopRec × Nat
  | [], next => ([], next)
  | l :: ls, next =>
    if next = l.stop then
      (if 0 < l.left then ({ l with left := l.left - 1 } :: ls, l.start) else loopEnd ls next)
    else (l :: ls, next)

/-- The vector instructions that have issued, oldest first: the engine is executing the first (R116; log entry 107). -/
def Pinna.vecList (p : Pinna) : List QEntry := p.queue.filter (fun q => isVector (fOp q.word.toNat))

/-- Vector instructions that wait in the queue, without the one in the engine (R116, R118). -/
def Pinna.vecQueued (p : Pinna) : Nat := p.vecList.length - 1

/-- The vector instruction in the engine completes its writes when a refusal stops the program (R117). -/
def State.finishVec (s : State) (n : Nat) : State :=
  match (s.pinna n).vecList, (s.pinna n).launch with
  | q :: _, some l => (s.vecWrite n q l).1
  | _, _ => s

/-- The end of a program by a refusal (R86, R89): fault register, groups left open, the report, and the zeroing. The event
itself is raised by the caller with `evt`, so that a code of another chapter keeps its own arguments. -/
def State.endPinna (s : State) (n code idx : Nat) (evt : Nat × Nat) : State :=
  let s1 := s.setPinna n { s.pinna n with faultPc := idx, faultCode := code }
  let s2 := (s1.openAtHalt n idx).pinnaReport n (some (code, evt.1, evt.2))
  s2.setPinna n ((s2.pinna n).quit .stopped)

/-- A refusal stops the program, after the writes of the vector instruction in the engine (R86, R117). -/
def State.stopPinna (s : State) (n code idx : Nat) (evt : Nat × Nat) : State := (s.finishVec n).endPinna n code idx evt

/-- A refusal of an instruction of a pinna: the event on its `PNA` page, then the stop. -/
def State.refuse (s : State) (n code idx grp : Nat) : State :=
  (s.raise (pnaPage n) code idx grp).stopPinna n code idx (idx, grp)

/-! Loops and the program counter (R61). -/

/-- The pinna with its program counter moved to `next`, which has been resolved against the loops (R61); past
instruction 8191 the program stops with 0x300F, whose arguments are the last instruction issued and its group (R89). -/
def State.goTo (s : State) (n : Nat) (loops : List LoopRec) (next : Nat) : State :=
  let p := s.pinna n
  let s1 := s.setPinna n { p with pc := next % 8192, loops := loops, stall := none }
  if 8191 < next then s1.refuse n 0x300F p.pc (groupNamed p.fetch) else s1

/-- The sequencer moves past the instruction at the program counter. -/
def State.advance (s : State) (n : Nat) : State :=
  let p := s.pinna n
  let r := loopEnd p.loops (p.pc + 1)
  s.goTo n r.1 r.2

/-- A control or scalar instruction of pinna `n` with opcode `op`: `eff` gets the instruction word. -/
def pinnaInstr (s : State) (n op : Nat) (eff : Nat → State) : Host.Outcome State Fault Refusal :=
  if ¬ n < 768 then .fault .noSuchUnit
  else if !s.pinnaRuns n then notEnabled "the pinna does not run"
  else if fOp (s.pinna n).fetch ≠ op then notEnabled "another instruction stands at the program counter"
  else .next (eff (s.pinna n).fetch)

/-! The queues of the arrays and of the vector engine (R59, R69, R79, R116). -/

/-- The fields of an `MMA` (R70). -/
structure MFields where
  fmta : Nat
  fmtb : Nat
  group : Nat
  kb : Nat
  ra : Nat
  rb : Nat
  rsa : Nat
  rsb : Nat
  sn : Nat
  shift : Nat
  deriving DecidableEq, Repr

def mFields (w : Nat) : MFields :=
  { fmta := bits w 55 52, fmtb := bits w 51 48, group := bits w 47 44, kb := bits w 43 36 + 1, ra := bits w 35 32,
    rb := bits w 31 28, rsa := bits w 27 24, rsb := bits w 23 20, sn := bits w 19 15, shift := bits w 14 9 }

/-- The formats an array accepts (R62). -/
def mmaFmt (c : Nat) : Bool := c == 1 || c == 2 || c == 0xC || (decide (4 ≤ c) && decide (c ≤ 9))

/-- Whether an operand format has scale lines. -/
def mmaScaled (c : Nat) : Bool := decide (4 ≤ c) && decide (c ≤ 9)

def fmtOf (c : Nat) : Fmt := (Fmt.ofCode c).getD .fp32

/-- The scale lines that serve `blocks` blocks from block `base` (R71). -/
def lineCount (base blocks : Nat) : Nat := (base + blocks - 1) / 60 - base / 60 + 1

/-- The runs of scratchpad bytes that an `MMA` reads (R71). -/
def MFields.reads (f : MFields) (q : QEntry) : List (Nat × Nat) :=
  let bb := (fmtOf f.fmta).blockBytes
  [(q.a f.ra, 16 * f.kb * bb), (q.a f.rb, 64 * f.kb * bb)]
    ++ (if mmaScaled f.fmta then
          [(q.a f.rsa, 64 * lineCount (q.s (f.sn + 1)) (16 * f.kb)), (q.a f.rsb, 64 * lineCount (q.s (f.sn + 2)) (64 * f.kb))]
        else [])

/-- The fields of a `GCLOSE` (R75). -/
structure GCFields where
  fmt : Nat
  group : Nat
  rnd : Nat
  ovfInf : Bool
  rule : ScaleRule
  ssrc : Nat
  slot : Nat
  rd : Nat
  rs : Nat
  sn : Nat
  stream : Nat
  deriving DecidableEq, Repr

def gcFields (w : Nat) : GCFields :=
  { fmt := bits w 55 52, group := bits w 51 48, rnd := bits w 47 46, ovfInf := bit w 45,
    rule := if bit w 44 then .ocp else .fit, ssrc := bits w 43 42, slot := bits w 41 36, rd := bits w 35 32,
    rs := bits w 31 28, sn := bits w 27 23, stream := bits w 15 0 }

/-- The size of a `GOPEN` tile (R74) and of an image (R77, R78). -/
def gopenSize (w : Nat) : Nat := (if bit w 46 then 64 else 1024) * vWidth (bits w 55 52)
def spillSize (w : Nat) : Nat := if bits w 55 52 = 0xB then 12480 else 2048

/-- The runs of scratchpad bytes that a queued instruction reads. A `GCLOSE` into a plain format counts as a reader of
exponent records, which it reads when its group is a slice group (R97). -/
def QEntry.reads (q : QEntry) : List (Nat × Nat) :=
  let w := q.word.toNat
  match fOp w with
  | 0x40 => (mFields w).reads q
  | 0x48 => if bit w 47 then [(q.a (bits w 45 42), gopenSize w)] else []
  | 0x49 => if (fmtOf (gcFields w).fmt).isBlock then [] else [(q.a (gcFields w).rs, 320)]
  | 0x4B => if bit w 46 then [] else [(q.a (bits w 45 42), spillSize w)]
  | op => if isVector op then (vFields w).reads q else []

/-- The runs of scratchpad bytes that a queued instruction writes. -/
def QEntry.writes (q : QEntry) : List (Nat × Nat) :=
  let w := q.word.toNat
  match fOp w with
  | 0x49 =>
    let f := gcFields w
    let fm := fmtOf f.fmt
    if fm.isBlock then [(q.a f.rd, 32 * fm.blockBytes), (q.a f.rs, 64)] else [(q.a f.rd, 1024 * vWidth f.fmt)]
  | 0x4A => if bit w 46 then [] else [(q.a (bits w 45 42), spillSize w)]
  | op => if isVector op then (vFields w).writes q else []

/-- Whether any run of one list crosses any run of another. -/
def crossAny (xs ys : List (Nat × Nat)) : Bool := xs.any (fun x => ys.any (fun y => cross x.1 x.2 y.1 y.2))

/-- Whether an instruction is stalled because one that issued before it writes bytes it touches, or reads bytes it writes
(R79): the sequencer issues it only when that one is done. -/
def Pinna.stalledBy (p : Pinna) (q : QEntry) : Bool :=
  p.queue.any (fun o => crossAny o.writes (q.reads ++ q.writes) || crossAny o.reads q.writes)

/-- The array that holds the group a queued instruction names (R59). -/
def QEntry.array (q : QEntry) : Nat := groupOf q.word.toNat / 4

/-- Whether a queued instruction stands in the queue of an array. -/
def QEntry.ofArray (arr : Nat) (q : QEntry) : Bool := isMatrix (fOp q.word.toNat) && q.array == arr

/-- Instructions in the queue of an array (R59). -/
def Pinna.arrayQueued (p : Pinna) (arr : Nat) : Nat := (p.queue.filter (QEntry.ofArray arr)).length

/-- Whether an array is at work on a `GREDUCE` (R69, R73). -/
def Pinna.inTree (p : Pinna) (arr : Nat) : Bool :=
  match p.treeRun with
  | some r => r.group / 4 == arr
  | none => false

/-- A reserved opcode (R60, R139 and the opcode map of R58). -/
def reservedOp (op : Nat) : Bool :=
  (decide (0x09 ≤ op) && decide (op ≤ 0x1F)) || (decide (0x25 ≤ op) && decide (op ≤ 0x3F))
    || (decide (0x41 ≤ op) && decide (op ≤ 0x47)) || (decide (0x4D ≤ op) && decide (op ≤ 0x7F)) || op == 0x8F
    || (decide (0x97 ≤ op) && decide (op ≤ 0x9F)) || decide (0xA5 ≤ op)

/-- The scalar registers an instruction reads or writes (R60, R70, R75, R77, R80, R101, R103, R139). -/
def regsUsed (w ext : Nat) : List Nat :=
  let op := fOp w
  let sn3 := bits w 19 15
  let gsn := bits w 27 23
  let vsn := bits w 7 3
  match op with
  | 0x02 => [fD w]
  | 0x03 => if bit (fSub w) 4 then [fD w, fA w] else [fD w, fA w, fB w]
  | 0x04 => if bit (fSub w) 0 then [fA w] else []
  | 0x05 => if bit (fD w) 3 then [fA w] else []
  | 0x06 => if fSub w % 8 = 0 then [] else [fA w]
  | 0x07 => [fD w]
  | 0x08 => [fB w]
  | 0x20 => [fD w]
  | 0x21 | 0x23 | 0x24 => [fA w]
  | 0x40 => [sn3, sn3 + 1, sn3 + 2]
  | 0x49 => [gsn, gsn + 1, gsn + 2, gsn + 3]
  | 0x4A => [bits w 41 37, bits w 41 37 + 1]
  | 0x4C => [bits w 47 43]
  | 0x92 => [vsn]
  | _ =>
    if 0x80 ≤ op then
      (if bit w 16 && bit w 15 then [ext % 32, ext % 32 + 1] else [])
        ++ (if bits w 14 13 = 1 then [vsn, vsn + 1, vsn + 2] else [])
    else []

/-- Whether an instruction is held by a queued `VCOMPRESS` whose count register it touches (R107). -/
def Pinna.heldByCompress (p : Pinna) (w ext : Nat) : Bool :=
  p.queue.any (fun q => fOp q.word.toNat == 0x92 && bits q.word.toNat 35 23 != 0
    && (regsUsed w ext).contains (bits q.word.toNat 7 3))

/-- The instruction at the program counter as the queues would hold it. -/
def Pinna.entry (p : Pinna) (ext : Nat) : QEntry :=
  { word := BitVec.ofNat 64 p.fetch, ext := BitVec.ofNat 64 ext, pc := p.pc, sregs := p.sregs, aregs := p.aregs }

/-- The instruction at the program counter appended to the list of instructions that have issued, in issue order (R59,
R116), with the registers as they stand. -/
def Pinna.enqueue (p : Pinna) (ext : Nat) : Pinna := { p with queue := p.queue ++ [p.entry ext] }

/-- The oldest queued instruction that satisfies `sel`, taken from the queue. -/
def Pinna.take (p : Pinna) (sel : QEntry → Bool) : Pinna := { p with queue := p.queue.eraseP sel }

/-- The performance of the oldest of a pinna's queued instructions that satisfy `sel`, which must have opcode `op`: the
queue of each array and of the vector engine is served in issue order, and they run concurrently (R69, R116; log entry
10). -/
def performHead (s : State) (n op : Nat) (sel : QEntry → Bool) (ready : QEntry → Launch → Bool)
    (eff : State → QEntry → Launch → State) : Host.Outcome State Fault Refusal :=
  if ¬ n < 768 then .fault .noSuchUnit
  else if s.haltedPart (s.pinnaPart n) then notEnabled "halted"
  else match (s.pinna n).queue.find? sel, (s.pinna n).launch with
    | some q, some l =>
      if fOp q.word.toNat ≠ op then notEnabled "another instruction is the oldest of the queue"
      else if !ready q l then notEnabled "the instruction waits"
      else .next (eff (s.setPinna n ((s.pinna n).take sel)) q l)
    | _, _ => notEnabled "no instruction is queued"

/-- The performance of the oldest instruction in the queue of array `arr`, unless the array is in a tree (R69). -/
def performArr (s : State) (n op arr : Nat) (ready : QEntry → Launch → Bool) (eff : State → QEntry → Launch → State) :
    Host.Outcome State Fault Refusal :=
  performHead s n op (QEntry.ofArray arr) (fun q l => !(s.pinna n).inTree arr && ready q l) eff

/-- The performance of the vector instruction in the engine (R116). -/
def performVec (s : State) (n op : Nat) (eff : State → QEntry → Launch → State) : Host.Outcome State Fault Refusal :=
  performHead s n op (fun q => isVector (fOp q.word.toNat)) (fun _ _ => true) eff

end Sys2Proof.Machine
end

