-- ==== Sys2Proof/Machine/Vector.lean ====
section
/-!
DEFINITION. The instructions of the vector engine (05_vector_engine.md, R100 to R119).
-/
namespace Sys2Proof.Machine

/-- Both slots of an instruction lie in the same active loop bodies, at or below instruction 8191 (R102). -/
def Pinna.slotOk (p : Pinna) : Bool :=
  decide (p.pc + 1 ≤ 8191) && p.loops.all (fun l => !(decide (l.start ≤ p.pc) && decide (p.pc < l.stop)) || p.pc + 1 != l.stop)

/-- The immediate slot of the instruction at the program counter, 0 where none follows (R102). -/
def Pinna.vecExt (p : Pinna) : Nat :=
  if (vFields p.fetch).ximm then (SMap.get 0#64 p.imem (p.pc + 1)).toNat else 0

/-- The issue of a vector instruction with opcode `op`: checked, then passed to the queue (R101, R116). -/
def vecIssue (s : State) (n op : Nat) : Host.Outcome State Fault Refusal :=
  let p := s.pinna n
  let w := p.fetch
  let f := vFields w
  let ext := p.vecExt
  if ¬ n < 768 then .fault .noSuchUnit
  else if !s.pinnaRuns n then notEnabled "the pinna does not run"
  else if fOp w ≠ op then notEnabled "another instruction stands at the program counter"
  else if p.heldByCompress w ext then notEnabled "a register waits for a VCOMPRESS"
  else match f.refusal w ext p.slotOk (p.entry ext) with
    | some c => .next (s.refuse n c p.pc f.count)
    | none =>
      if 4 ≤ p.vecQueued then notEnabled "the vector queue is full"
      else if p.stalledBy (p.entry ext) then notEnabled "an earlier instruction touches its bytes"
      else
        let s1 := s.setPinna n (p.enqueue ext)
        if f.ximm then
          let r := loopEnd p.loops (p.pc + 2)
          .next (s1.goTo n r.1 r.2)
        else .next (s1.advance n)

/-- A vector instruction in the engine completes; a NaN it writes may stop the program (R117, R118). -/
def State.vecPerform (s : State) (n : Nat) (q : QEntry) (l : Launch) : State :=
  let r := s.vecWrite n q l
  let c := (vFields q.word.toNat).count
  if r.2 && bit (s.word (pnaPage n) Reg.PNA_VEC_CTL) 0 then
    (r.1.raise (pnaPage n) 0x4006 q.pc c).endPinna n 0x4006 q.pc (q.pc, c)
  else r.1

/-- A vector instruction of opcode `op`, at issue or in the engine. -/
def vecInstr (op n : Nat) (ph : Phase) (s : State) : Host.Outcome State Fault Refusal :=
  match ph with
  | .issue => vecIssue s n op
  | .perform => performVec s n op (fun s q l => s.vecPerform n q l)

def execVadd (n : Nat) (ph : Phase) (s : State) : Host.Outcome State Fault Refusal := vecInstr 0x80 n ph s
def execVsub (n : Nat) (ph : Phase) (s : State) : Host.Outcome State Fault Refusal := vecInstr 0x81 n ph s
def execVmul (n : Nat) (ph : Phase) (s : State) : Host.Outcome State Fault Refusal := vecInstr 0x82 n ph s
def execVfma (n : Nat) (ph : Phase) (s : State) : Host.Outcome State Fault Refusal := vecInstr 0x83 n ph s
def execVmax (n : Nat) (ph : Phase) (s : State) : Host.Outcome State Fault Refusal := vecInstr 0x84 n ph s
def execVmin (n : Nat) (ph : Phase) (s : State) : Host.Outcome State Fault Refusal := vecInstr 0x85 n ph s
def execVabs (n : Nat) (ph : Phase) (s : State) : Host.Outcome State Fault Refusal := vecInstr 0x86 n ph s
def execVneg (n : Nat) (ph : Phase) (s : State) : Host.Outcome State Fault Refusal := vecInstr 0x87 n ph s
def execVrcp (n : Nat) (ph : Phase) (s : State) : Host.Outcome State Fault Refusal := vecInstr 0x88 n ph s
def execVrsqrt (n : Nat) (ph : Phase) (s : State) : Host.Outcome State Fault Refusal := vecInstr 0x89 n ph s
def execVexp (n : Nat) (ph : Phase) (s : State) : Host.Outcome State Fault Refusal := vecInstr 0x8A n ph s
def execVlog (n : Nat) (ph : Phase) (s : State) : Host.Outcome State Fault Refusal := vecInstr 0x8B n ph s
def execVscale (n : Nat) (ph : Phase) (s : State) : Host.Outcome State Fault Refusal := vecInstr 0x8C n ph s
def execVcvt (n : Nat) (ph : Phase) (s : State) : Host.Outcome State Fault Refusal := vecInstr 0x8D n ph s
def execVsround (n : Nat) (ph : Phase) (s : State) : Host.Outcome State Fault Refusal := vecInstr 0x8E n ph s
def execVcmp (n : Nat) (ph : Phase) (s : State) : Host.Outcome State Fault Refusal := vecInstr 0x90 n ph s
def execVsel (n : Nat) (ph : Phase) (s : State) : Host.Outcome State Fault Refusal := vecInstr 0x91 n ph s
def execVcompress (n : Nat) (ph : Phase) (s : State) : Host.Outcome State Fault Refusal := vecInstr 0x92 n ph s
def execVexpand (n : Nat) (ph : Phase) (s : State) : Host.Outcome State Fault Refusal := vecInstr 0x93 n ph s
def execVmlogic (n : Nat) (ph : Phase) (s : State) : Host.Outcome State Fault Refusal := vecInstr 0x94 n ph s
def execVmld (n : Nat) (ph : Phase) (s : State) : Host.Outcome State Fault Refusal := vecInstr 0x95 n ph s
def execVmst (n : Nat) (ph : Phase) (s : State) : Host.Outcome State Fault Refusal := vecInstr 0x96 n ph s
def execVrsum (n : Nat) (ph : Phase) (s : State) : Host.Outcome State Fault Refusal := vecInstr 0xA0 n ph s
def execVrsumsq (n : Nat) (ph : Phase) (s : State) : Host.Outcome State Fault Refusal := vecInstr 0xA1 n ph s
def execVrmax (n : Nat) (ph : Phase) (s : State) : Host.Outcome State Fault Refusal := vecInstr 0xA2 n ph s
def execVrmin (n : Nat) (ph : Phase) (s : State) : Host.Outcome State Fault Refusal := vecInstr 0xA3 n ph s
def execVrmoment (n : Nat) (ph : Phase) (s : State) : Host.Outcome State Fault Refusal := vecInstr 0xA4 n ph s

end Sys2Proof.Machine
end

