-- ==== Sys2Proof/Machine/Matrix.lean ====
section
/-!
DEFINITION. Matrix and group instructions and the split-K tree (03_matrix_and_accumulation.md, R62 to R83;
04_slice_arithmetic.md, R97; 08_training_numerics.md, R188).
-/
namespace Sys2Proof.Machine

/-! Issue. -/

/-- The issue of a matrix or group instruction with opcode `op`; `chk` is its check at issue. -/
def matIssue (s : State) (n op : Nat) (chk : Nat → QEntry → Launch → Option Nat) : Host.Outcome State Fault Refusal :=
  let p := s.pinna n
  let w := p.fetch
  if ¬ n < 768 then .fault .noSuchUnit
  else if !s.pinnaRuns n then notEnabled "the pinna does not run"
  else if fOp w ≠ op then notEnabled "another instruction stands at the program counter"
  else if p.heldByCompress w 0 then notEnabled "a register waits for a VCOMPRESS"
  else match p.launch with
    | none => notEnabled "the pinna does not run"
    | some l =>
      match chk w (p.entry 0) l with
      | some c => .next (s.refuse n c p.pc (groupOf w))
      | none =>
        if 4 ≤ p.arrayQueued (groupOf w / 4) then notEnabled "the queue of the array is full"
        else if p.stalledBy (p.entry 0) then notEnabled "an earlier instruction touches its bytes"
        else .next ((s.setPinna n (p.enqueue 0)).advance n)

/-! `MMA` (R62 to R72). -/

/-- The check of an `MMA` at issue (R62, R70, R71): fields, formats, ranges, in the order that R101 gives vector
instructions (log entry 11). -/
def mmaCheck (w : Nat) (q : QEntry) (l : Launch) : Option Nat :=
  let f := mFields w
  let scaled := mmaScaled f.fmta
  let bb := (fmtOf f.fmta).blockBytes
  if bits w 8 0 ≠ 0 ∨ (scaled ∧ 29 < f.sn) ∨ (f.fmta ≠ 0xC ∧ f.shift ≠ 0) then some 0x3007
  else if f.fmta ≠ f.fmtb then some 0x3001
  else if !mmaFmt f.fmta || (f.fmta == 0xC && l.proth) then some 0x3002
  else if q.a f.ra % 8 ≠ 0 ∨ q.a f.rb % 8 ≠ 0 ∨ !inSpad (q.a f.ra) (16 * f.kb * bb) ∨ !inSpad (q.a f.rb) (64 * f.kb * bb)
      ∨ (scaled ∧ (q.a f.rsa % 64 ≠ 0 ∨ q.a f.rsb % 64 ≠ 0
          ∨ !inSpad (q.a f.rsa) (64 * lineCount (q.s (f.sn + 1)) (16 * f.kb))
          ∨ !inSpad (q.a f.rsb) (64 * lineCount (q.s (f.sn + 2)) (64 * f.kb)))) then some 0x3008
  else none

/-- One operand block as the array reads it: each element as an integer in units of 2^qmin with its own q (R63), what
NaN or infinity it holds, and its scale code. -/
structure MBlock where
  ks : List (Int × Int)
  vals : List Val
  hasNan : Bool
  hasInf : Bool
  scale : Nat
  deriving DecidableEq, Repr

/-- qmin of R66: the q of the format's smallest subnormal, or of its only binade. -/
def qmin (f : Fmt) : Int :=
  match f.fixed with
  | some fr => -(fr : Int)
  | none => 1 - (f.bias : Int) - f.mant

def readBlock (f : Fmt) (bytes : List Byte) (scale : Nat) : MBlock :=
  let x := leNat bytes
  let vs := (List.range 32).map (fun i => decodeElem f (unpackElem f.width x i))
  { ks := vs.map (fun v => match v with
      | .fin n m e => ((if n then -((m <<< (e - qmin f).toNat : Nat) : Int) else ((m <<< (e - qmin f).toNat : Nat) : Int)), e)
      | _ => (0, 0)),
    vals := vs,
    hasNan := vs.any Val.isNan, hasInf := vs.any (fun v => v.nonFinite && !v.isNan), scale := scale }

/-- The exact sum of the products of two blocks, in units of 2^(2·qmin). -/
def dot (a b : MBlock) : Int := (a.ks.zip b.ks).foldl (fun t x => t + x.1.1 * x.2.1) 0

/-- The passes a cell needs for a block of an anchored format (R64). -/
def bandsOf (d : Int) (a b : MBlock) : Nat :=
  let gs := (a.ks.zip b.ks).filterMap (fun x => if x.1.1 * x.2.1 = 0 then none else some (x.1.2 + x.2.2))
  match gs with
  | [] => 1
  | g :: t =>
    let top := t.foldl max g
    let low := t.foldl min g
    ((top - low) / d).toNat + 1

/-- One element of a group during an operation, with what its additions met. -/
structure Cell where
  word : W96
  lost : Bool := false
  made : Bool := false
  range : Bool := false
  flushed : Bool := false
  saturated : Bool := false
  deriving DecidableEq, Repr

def Cell.step (c : Cell) (r : W96Add) (made : Bool) : Cell :=
  { c with word := r.word, lost := c.lost || r.lost,
           made := c.made || (r.nanMade && made) || (r.range && W96.isNan r.word),
           range := c.range || r.range, flushed := c.flushed || r.flushed }

/-- The addition of a NaN addend; `made` says that no NaN source caused it. -/
def Cell.addNan (c : Cell) (made : Bool) : Cell :=
  { c with word := W96.nan, made := c.made || (made && !W96.isNan c.word) }

/-- The addition of an exact value (R66), or in Prothallus mode with the sum rounded to FP32 (R188). -/
def Cell.add (c : Cell) (proth : Bool) (s us : Int) : Cell :=
  if proth then
    match W96.val c.word with
    | .nan => c
    | v =>
      let (code, k) := convert .fp32 false .rne 0 (addVal v (Val.ofInt s us))
      { c with word := w96OfVal (decodeElem .fp32 code), lost := c.lost || k != .exact,
               flushed := c.flushed || k == .flushed, saturated := c.saturated || k == .saturated }
  else c.step (w96Add c.word (some (s, us))) false

/-- How an element is counted after an operation (R54, R55, R67). -/
def Cell.kind (c : Cell) : Kind :=
  if W96.isNan c.word then .nan c.made
  else if c.saturated then .saturated
  else if c.flushed then .flushed
  else if c.lost then .inexact
  else .exact

/-- One product of BF16 or FP16 elements added on its own with the unit of its own q (R65, R68). -/
def Cell.product (c : Cell) (a b : Val) : Cell :=
  match mulVal a b with
  | .nan made => c.addNan made
  | .inf _ => c.addNan true
  | .fin neg m e _ => c.add false (if neg then -(m : Int) else m) e

/-- One K block added into a cell: in BF16 and FP16 product by product in K order (R65), else as one exact sum (R63, R66),
which is NaN when a scale, an element or a product makes it so (R68). -/
def Cell.block (c : Cell) (f : Fmt) (proth : Bool) (shift : Nat) (a b : MBlock) : Cell :=
  if (f == .bf16 || f == .fp16) && !proth then (a.vals.zip b.vals).foldl (fun c x => c.product x.1 x.2) c
  else if a.scale = 0xFF ∨ b.scale = 0xFF ∨ a.hasNan ∨ b.hasNan then c.addNan false
  else if a.hasInf ∨ b.hasInf then c.addNan true
  else c.add proth (dot a b) (if f.isBlock then ((a.scale : Int) - 127) + ((b.scale : Int) - 127) + 2 * qmin f
    else if f == .slice then -(shift : Int) else 2 * qmin f)

/-- The outcome of an operation on all elements of a group: the group, the counts, and whether a NaN was made. -/
structure GroupResult where
  group : Group
  tally : Tally
  trap : Bool
  lost : Nat
  deriving DecidableEq, Repr

/-- The elements of a group after an operation `f` on each (R67): words, flags, counts under W96 with the index 64m + n. -/
def Group.mapCells (g : Group) (f : Nat → Cell → Cell) : GroupResult :=
  (List.range 1024).foldl (fun (r : GroupResult) i =>
    let old := SMap.get 0#96 g.words i
    let c := f i { word := old }
    { group := { r.group with words := SMap.set 0#96 r.group.words i c.word,
                              flags := if c.lost then r.group.flags ||| 2 ^ i else r.group.flags },
      tally := (if c.range then r.tally.event 0x1005 0xB i else r.tally).count c.kind 0xB i,
      trap := r.trap || (W96.isNan c.word && !W96.isNan old),
      lost := if c.lost then r.lost ||| 2 ^ i else r.lost })
    { group := g, tally := {}, trap := false, lost := 0 }

/-- The scale line of block `b` of an operand (R71). -/
def lineAddr (base first b : Nat) : Nat := base + 64 * (b / 60 - first / 60)

/-- The lines an operand needs, each with the first block it serves. -/
def linesNeeded (first blocks : Nat) : List Nat :=
  (List.range ((first + blocks - 1) / 60 - first / 60 + 1)).map (fun i => 60 * (first / 60 + i))

/-- The first line of an operand that fails its comparison (R53, R72). -/
def lineMiss (m : Mem) (base tag first blocks : Nat) : Option ScaleMiss :=
  (linesNeeded first blocks).findSome? (fun b =>
    let line := Mem.read m (lineAddr base first b) 64
    if scaleLineOk line tag b then none
    else some { expected := tag % 65536 + 65536 * (60 * (b / 60) % 65536), found := leNat (slice line 60 4) })

/-- The nan_trap of R68: the stop after a NaN made in a group. -/
def State.trapStop (s : State) (n idx g : Nat) (trap : Bool) : State :=
  if trap && bit (s.word (pnaPage n) Reg.PNA_MMA_CTL) 0 then s.refuse n 0x300B idx g else s

/-- The multiplication of an `MMA` whose lines have passed. -/
def State.mmaRun (s : State) (n : Nat) (q : QEntry) (l : Launch) : State :=
  let p := s.pinna n
  let f := mFields q.word.toNat
  let fm := fmtOf f.fmta
  let bb := fm.blockBytes
  let scaled := mmaScaled f.fmta
  let scale (base first b : Nat) : Nat :=
    if scaled then (Mem.byte p.spad (lineAddr base first b + b % 60)).toNat else 127
  let bA := q.s (f.sn + 1)
  let bB := q.s (f.sn + 2)
  let rows := (List.range f.kb).map (fun j => (List.range 16).map (fun m =>
    readBlock fm (Mem.read p.spad (q.a f.ra + (16 * j + m) * bb) bb) (scale (q.a f.rsa) bA (bA + 16 * j + m))))
  let cols := (List.range f.kb).map (fun j => (List.range 64).map (fun k =>
    readBlock fm (Mem.read p.spad (q.a f.rb + (64 * j + k) * bb) bb) (scale (q.a f.rsb) bB (bB + 64 * j + k))))
  let zero : MBlock := { ks := [], vals := [], hasNan := false, hasInf := false, scale := 127 }
  let g0 := p.group f.group
  let g : Group := { g0 with attr := if g0.attr = SliceAttr.none then (if fm == .slice then SliceAttr.slice else SliceAttr.nonSlice)
                           else g0.attr }
  let kblocks : List (List MBlock × List MBlock) := rows.zip cols
  let r := g.mapCells (fun i c => kblocks.foldl (fun c x =>
    c.block fm l.proth f.shift (nth zero x.1 (i / 64)) (nth zero x.2 (i % 64))) c)
  let d : Int := if fm == .e4m3 then 27 else 29
  let extra := if fm == .e4m3 || fm == .e5m2 then
      (kblocks.map (fun x => (x.1.foldl (fun t a => x.2.foldl (fun t b => max t (bandsOf d a b)) t) 1) - 1)).sum
    else 0
  -- 0x1002 for the first block read with scale code 0xFF
  let bad := (List.range f.kb).findSome? (fun j =>
    ((nth [] rows j).zipIdx.findSome? (fun x => if x.1.scale = 0xFF then some (bA + 16 * j + x.2) else none)) <|>
    ((nth [] cols j).zipIdx.findSome? (fun x => if x.1.scale = 0xFF then some (bB + 64 * j + x.2) else none)))
  let t := match bad with
    | some b => ((({} : Tally).event 0x1002 0xB (32 * b)).join r.tally)
    | none => r.tally
  let s1 := (s.setPinna n (p.setGroup f.group r.group)).pinnaTally n t
  let s2 := (s1.bump (pnaPage n) Reg.PNA_MMA_DONE).bump (pnaPage n) Reg.PNA_BAND_EXTRA extra
  s2.trapStop n q.pc f.group r.trap

/-- An `MMA` at the head of its queue: the state of its group, the slice attribute, the scale lines, the products
(R72, R73, R134). -/
def State.mmaPerform (s : State) (n : Nat) (q : QEntry) (l : Launch) : State :=
  let p := s.pinna n
  let f := mFields q.word.toNat
  let g := p.group f.group
  let slice := f.fmta == 0xC
  match g.state with
  | .closed | .inTree => s.refuse n 0x3003 q.pc f.group
  | .invalid => s.refuse n 0x3005 q.pc f.group
  | .opened =>
    if (g.attr == .slice && !slice) || (g.attr == .nonSlice && slice) then s.refuse n 0x3006 q.pc f.group
    else
      let tags := q.s f.sn
      let miss := if mmaScaled f.fmta then
          (lineMiss p.spad (q.a f.rsa) (tags % 65536) (q.s (f.sn + 1)) (16 * f.kb)) <|>
          (lineMiss p.spad (q.a f.rsb) (tags / 65536) (q.s (f.sn + 2)) (64 * f.kb))
        else none
      match miss with
      | some m =>
        let s1 := s.setPinna n { p.setGroup f.group { g with state := .invalid } with miss := p.miss <|> some m }
        (s1.raise (pnaPage n) 0x3010 q.pc f.group).raise (pnaPage n) 0x2009 m.expected m.found
      | none => s.mmaRun n q l

def execMma (n : Nat) (ph : ArrPhase) (s : State) : Host.Outcome State Fault Refusal :=
  match ph with
  | .issue => matIssue s n 0x40 mmaCheck
  | .perform arr => performArr s n 0x40 arr (fun _ _ => true) (fun s q l => s.mmaPerform n q l)

/-! `GOPEN` (R74). -/

def gopenCheck (w : Nat) (q : QEntry) (_ : Launch) : Option Nat :=
  let fmt := bits w 55 52
  let fill := bit w 47
  let bcast := bit w 46
  if bits w 41 0 ≠ 0 ∨ (!fill ∧ (fmt ≠ 0 ∨ bcast)) then some 0x3007
  else if fill ∧ 3 < fmt then some 0x3002
  else if fill ∧ !inSpad (q.a (bits w 45 42)) (gopenSize w) then some 0x3008
  else none

/-- A group filled with exact conversions of plain elements (R74, R78): a non-finite element becomes NaN and is
counted. -/
def fillGroup (vals : Nat → Val) : GroupResult :=
  (({ state := .opened } : Group)).mapCells (fun i c =>
    match vals i with
    | .nan => c.addNan false
    | .inf _ => c.addNan true
    | v => { c with word := w96OfVal v })

def State.gopenPerform (s : State) (n : Nat) (q : QEntry) (_ : Launch) : State :=
  let p := s.pinna n
  let w := q.word.toNat
  let g := groupOf w
  match (p.group g).state with
  | .opened | .inTree => s.refuse n 0x3004 q.pc g
  | _ =>
    if bit w 47 then
      let fmt := bits w 55 52
      let bcast := bit w 46
      let bs := Mem.read p.spad (q.a (bits w 45 42)) (gopenSize w)
      let r := fillGroup (fun i => vElem fmt bs (if bcast then i % 64 else i))
      ((s.setPinna n (p.setGroup g r.group)).pinnaTally n r.tally).trapStop n q.pc g r.trap
    else s.setPinna n (p.setGroup g { state := .opened })

def execGopen (n : Nat) (ph : ArrPhase) (s : State) : Host.Outcome State Fault Refusal :=
  match ph with
  | .issue => matIssue s n 0x48 gopenCheck
  | .perform arr => performArr s n 0x48 arr (fun _ _ => true) (fun s q l => s.gopenPerform n q l)

/-! `GCLOSE` (R75, R76, R97). -/

def gcloseCheck (w : Nat) (q : QEntry) (_ : Launch) : Option Nat :=
  let f := gcFields w
  let fm := fmtOf f.fmt
  let block := fm.isBlock
  let tag := q.s f.sn % 65536
  let row0 := q.s (f.sn + 1)
  let col0 := q.s (f.sn + 2)
  let R := q.s (f.sn + 3)
  if bits w 22 16 ≠ 0 ∨ 1 < f.rnd ∨ 1 < f.ssrc ∨ 28 < f.sn then some 0x3007
  else if 0xA < f.fmt then some 0x3002
  else if 2 ^ 48 ≤ (row0 + 15) * R + col0 + 63 ∨ R < col0 + 64 ∨ (block ∧ (col0 % 32 ≠ 0 ∨ R % 32 ≠ 0 ∨ tag = 0)) then
    some 0x3007
  else if (if block then q.a f.rd % 8 ≠ 0 ∨ q.a f.rs % 64 ≠ 0 ∨ !inSpad (q.a f.rd) (32 * fm.blockBytes) ∨ !inSpad (q.a f.rs) 64
           else q.a f.rd % vWidth f.fmt ≠ 0 ∨ !inSpad (q.a f.rd) (1024 * vWidth f.fmt)) then some 0x3008
  else none

/-- The exponent records of a slice group (R97): the code of the refusal, if any, or e and nonfinite of each record. -/
def sliceRecords (m : Mem) (a : Nat) : Except Nat (List (Int × Bool)) :=
  if a % 4 ≠ 0 ∨ !inSpad a 320 then .error 0x3008
  else
    let ws := (List.range 80).map (fun i => Mem.readLe m (a + 4 * i) 4)
    let rs := ws.map (fun w => (signed 16 w, bit w 16))
    if ws.any (fun w => bits w 31 17 != 0) || rs.any (fun r => decide (r.1 < -1073) || decide (1024 < r.1)) then .error 0x3007
    else .ok rs

/-- What a block of 32 outputs adds to the ledger. -/
def Block.wrote (b : Block) (f : Fmt) : Wrote :=
  { elem := b.elems.length,
    zero := if b.scale = 0xFF then 0
            else (b.elems.filter (fun c => let v := decodeElem f c; !v.nonFinite && v.asInt.1 == 0)).length,
    sat := b.tally.saturated, flush := b.tally.flushed,
    nonfin := if b.scale = 0xFF then b.elems.length else (b.elems.filter (fun c => (decodeElem f c).nonFinite)).length }

/-- The tile of a `GCLOSE` in a block format under a given scale code, or under computed scales. -/
def closeBlocks (fm : Fmt) (f : GCFields) (rnd : Rnd) (code : Option Nat) (vals : List (Val × Nat)) : List Block :=
  (List.range 32).map (fun b =>
    let xs := (vals.drop (32 * b)).take 32
    match code with
    | some c => convertBlock fm f.ovfInf rnd c xs
    | none => quantizeBlock fm f.rule f.ovfInf rnd xs)

/-- The tally of several blocks in order. -/
def blocksTally (bs : List Block) : Tally := bs.foldl (fun t b => t.join b.tally) {}

/-- The conversion of a `GCLOSE`'s tile and its writes (R76, R171, R172, R175). `vals` lists the elements row by row with
their indices. -/
def State.closeTile (s : State) (n : Nat) (q : QEntry) (l : Launch) (vals : List (Val × Nat)) : State :=
  let p := s.pinna n
  let f := gcFields q.word.toNat
  let fm := fmtOf f.fmt
  let tag := q.s f.sn % 65536
  let rnd : Rnd := if f.rnd = 1 then .stoch l.seed (BitVec.ofNat 32 (tag * 65536 + f.stream)) l.proth else .rne
  if fm.isBlock then
    let part := l.ctx / 8
    let est := f.ssrc == 1
    let code := if est then some (s.estFld part f.slot 55 48) else none
    let bs1 := closeBlocks fm f rnd code vals
    let sat1 := (blocksTally bs1).saturated
    let strict := est && s.estFld part f.slot 8 8 == 1 && decide (0 < sat1)
    let retry := strict && decide (code.getD 0 < 0xFE)
    let bs := if retry then closeBlocks fm f rnd (code.map (· + 1)) vals else bs1
    let t := blocksTally bs
    let s1 := if retry then (s.estRetry part f.slot).raise (pnaPage n) 0x1104 f.slot sat1 else s
    let s2 := if strict && (!retry || decide (0 < t.saturated)) then s1.raise (pnaPage n) 0x1105 f.slot t.saturated else s1
    let s3 := if est then s2.estObserve part f.slot (maxAbs (vals.map Prod.fst)) t.saturated else s2
    let data := bs.flatMap (fun b => leBytes fm.blockBytes (packElems fm.width b.elems))
    let line := scaleLine (bs.map (fun b => b.scale)) tag 0
    let w := bs.foldl (fun w b => w.add (b.wrote fm)) {}
    let p1 := { p with spad := Mem.write (Mem.write p.spad (q.a f.rd) data) (q.a f.rs) line }
    ((s3.setPinna n (p1.setGroup f.group {})).pinnaTally n t).ledgerAdd l.ctx f.fmt w
  else
    let r := vals.foldl (fun (r : VResult) x =>
      let (c, k) := convert fm false rnd x.2 x.1.res
      r.push fm f.fmt c k x.2 (vWidth f.fmt) c) {}
    let p1 := { p with spad := Mem.write p.spad (q.a f.rd) r.data }
    ((s.setPinna n (p1.setGroup f.group {})).pinnaTally n r.tally).ledgerAdd l.ctx f.fmt r.wrote

/-- Whether a `GCLOSE` will convert under an estimator slot: the others it would be refused with first do not hold (R73,
R170, R173). -/
def State.closeWaits (s : State) (n : Nat) (q : QEntry) (l : Launch) : Bool :=
  let f := gcFields q.word.toNat
  let g := (s.pinna n).group f.group
  g.state == .opened && g.attr != .slice && f.ssrc == 1 && s.estUsable l.ctx f.slot f.fmt

/-- A `GCLOSE` at the head of its queue. Of several conditions that a slice group's `GCLOSE` fails, those of R76 at issue
come first, then the format 0x3002, the address of the records 0x3008, and the records 0x3007. An element that is NaN only
because a record has nonfinite = 1 raises 0x1003 (both DESIGN CHOICE, log entry 108). -/
def State.gclosePerform (s : State) (n : Nat) (q : QEntry) (l : Launch) : State :=
  let p := s.pinna n
  let f := gcFields q.word.toNat
  let g := p.group f.group
  let idx (i : Nat) : Nat := (q.s (f.sn + 1) + i / 64) * q.s (f.sn + 3) + q.s (f.sn + 2) + i % 64
  let word (i : Nat) : Val := W96.val (SMap.get 0#96 g.words i)
  match g.state with
  | .closed | .inTree => s.refuse n 0x3003 q.pc f.group
  | .invalid => s.refuse n 0x3005 q.pc f.group
  | .opened =>
    if f.ssrc = 1 ∧ !s.estUsable l.ctx f.slot f.fmt then s.refuse n 0x3007 q.pc f.group
    else if g.attr = .slice then
      if 3 < f.fmt then s.refuse n 0x3002 q.pc f.group
      else match sliceRecords p.spad (q.a f.rs) with
        | .error c => s.refuse n c q.pc f.group
        | .ok rs =>
          s.closeTile n q l ((List.range 1024).map (fun i =>
            let r := nth (0, false) rs (i / 64)
            let c := nth (0, false) rs (16 + i % 64)
            (if r.2 || c.2 then .nan else (word i).scale (r.1 + c.1 - 14), idx i)))
    else s.closeTile n q l ((List.range 1024).map (fun i => (word i, idx i)))

/-- Whether a `GCLOSE` can proceed: a slot it converts under has recorded its seed (R173). -/
def State.gcloseReady (s : State) (n : Nat) (q : QEntry) (l : Launch) : Bool :=
  !s.closeWaits n q l || s.estSeeded (l.ctx / 8) (gcFields q.word.toNat).slot l.seed

def execGclose (n : Nat) (ph : ArrPhase) (s : State) : Host.Outcome State Fault Refusal :=
  match ph with
  | .issue => matIssue s n 0x49 gcloseCheck
  | .perform arr => performArr s n 0x49 arr (s.gcloseReady n) (fun s q l => s.gclosePerform n q l)

/-! `GSPILL` and `GFILL` (R77, R78). -/

/-- The size of a frond's shared memory (R122). -/
def frondMemSize : Nat := 6291456

/-- The check of an image at issue (R77, R78). -/
def imageCheck (spill : Bool) (w : Nat) (q : QEntry) (_ : Launch) : Option Nat :=
  let width := bits w 55 52
  let a := q.a (bits w 45 42)
  let size := spillSize w
  let bound := if bit w 46 then frondMemSize else spadSize
  if bits w 36 16 ≠ 0 ∨ (!spill ∧ bit w 47) ∨ (spill ∧ width = 1 ∧ 30 < bits w 41 37) then some 0x3007
  else if width ≠ 0xB ∧ width ≠ 1 then some 0x3002
  else if a % 64 ≠ 0 ∨ bound < a + size then some 0x3008
  else none

/-- The image memory an instruction names, and a write to it. -/
def State.imageMem (s : State) (n w : Nat) : Mem :=
  if bit w 46 then (s.frond (frondOfPinna n)).mem else (s.pinna n).spad
def State.setImageMem (s : State) (n w : Nat) (m : Mem) : State :=
  if bit w 46 then s.setFrond (frondOfPinna n) { s.frond (frondOfPinna n) with mem := m }
  else s.setPinna n { s.pinna n with spad := m }

/-- The slice attribute's byte in a W96 image. -/
def SliceAttr.code : SliceAttr → Nat
  | .none => 0
  | .slice => 1
  | .nonSlice => 2

/-- A W96 spill image (R78). -/
def spillImage (g : Group) : List Byte :=
  ((List.range 1024).flatMap (fun i => leBytes 12 (SMap.get 0#96 g.words i).toNat)) ++ leBytes 128 g.flags
    ++ leBytes 64 g.attr.code

/-- A W96 word as `GFILL` restores it: an exp of 0 is zero (R36, R78). -/
def fillWord (x : W96) : W96 := if W96.exp x = 0 then 0#96 else x

/-- The words of a W96 image at address `a`, with the count of those flushed (R36, R78). -/
def fillImage (m : Mem) (a : Nat) : SMap W96 × Tally :=
  (List.range 1024).foldl (fun r i =>
    let x : W96 := BitVec.ofNat 96 (Mem.readLe m (a + 12 * i) 12)
    (SMap.set 0#96 r.1 i (fillWord x), if W96.denormal x then r.2.count .flushed 0xB i else r.2)) ([], {})

def State.gspillPerform (s : State) (n : Nat) (q : QEntry) (l : Launch) : State :=
  let w := q.word.toNat
  let gi := groupOf w
  let g := (s.pinna n).group gi
  let a := q.a (bits w 45 42)
  let after (s : State) : State := if bit w 47 then s else s.setPinna n ((s.pinna n).setGroup gi {})
  match g.state with
  | .closed | .inTree => s.refuse n 0x3003 q.pc gi
  | .invalid => s.refuse n 0x3005 q.pc gi
  | .opened =>
    if bits w 55 52 = 0xB then after (s.setImageMem n w (Mem.write (s.imageMem n w) a (spillImage g)))
    else if g.attr = .slice then s.refuse n 0x3002 q.pc gi
    else
      let sn := bits w 41 37
      let rnd : Rnd := .stoch l.seed (BitVec.ofNat 32 (q.s sn % 65536 * 65536 + bits w 15 0)) l.proth
      let r := (List.range 1024).foldl (fun (r : VResult) i =>
        let (c, k) := convert .bf16 false rnd (q.s (sn + 1) + i) (W96.val (SMap.get 0#96 g.words i)).res
        r.push .bf16 1 c k (q.s (sn + 1) + i) 2 c) {}
      let s1 := s.setImageMem n w (Mem.write (s.imageMem n w) a r.data)
      after ((s1.pinnaTally n r.tally).ledgerAdd l.ctx 1 r.wrote)

def execGspill (n : Nat) (ph : ArrPhase) (s : State) : Host.Outcome State Fault Refusal :=
  match ph with
  | .issue => matIssue s n 0x4A (imageCheck true)
  | .perform arr => performArr s n 0x4A arr (fun _ _ => true) (fun s q l => s.gspillPerform n q l)

def State.gfillPerform (s : State) (n : Nat) (q : QEntry) (_ : Launch) : State :=
  let p := s.pinna n
  let w := q.word.toNat
  let gi := groupOf w
  let a := q.a (bits w 45 42)
  let m := s.imageMem n w
  match (p.group gi).state with
  | .opened | .inTree => s.refuse n 0x3004 q.pc gi
  | _ =>
    if bits w 55 52 = 0xB then
      let attr := (Mem.byte m (a + 12416)).toNat
      if 2 < attr then s.refuse n 0x3007 q.pc gi
      else
        let r := fillImage m a
        (s.setPinna n (p.setGroup gi { state := .opened,
                                       attr := match attr with
                                         | 0 => .none
                                         | 1 => .slice
                                         | _ => .nonSlice,
                                       words := r.1, flags := Mem.readLe m (a + 12288) 128 })).pinnaTally n r.2
    else
      let bs := Mem.read m a 2048
      let r := fillGroup (fun i => vElem 1 bs i)
      ((s.setPinna n (p.setGroup gi r.group)).pinnaTally n r.tally).trapStop n q.pc gi r.trap

def execGfill (n : Nat) (ph : ArrPhase) (s : State) : Host.Outcome State Fault Refusal :=
  match ph with
  | .issue => matIssue s n 0x4B (imageCheck false)
  | .perform arr => performArr s n 0x4B arr (fun _ _ => true) (fun s q l => s.gfillPerform n q l)

/-! The split-K tree (R80 to R83, R188). -/

/-- The description s[N] of a tree (R80). -/
structure TreeSpec where
  p0 : Nat
  np : Nat
  f0 : Nat
  nf : Nat
  deriving DecidableEq, Repr

def treeSpec (w : Nat) : TreeSpec := { p0 := bits w 4 0, np := bits w 9 5, f0 := bits w 14 10, nf := bits w 19 15 + 1 }

/-- Whether pinna `n` of context `c` may issue `GREDUCE` with a description (R80). -/
def State.treeSpecOk (s : State) (n c w : Nat) : Bool :=
  let t := treeSpec w
  bits w 31 20 == 0 && decide (1 ≤ t.np) && decide (t.p0 + t.np ≤ 24) && decide (t.f0 + t.nf ≤ 32)
    && decide (2 ≤ t.np * t.nf)
    && (List.range t.nf).all (fun i => s.partOfQuarter (quarterOfFrond (t.f0 + i)) == c / 8)
    && decide (t.p0 ≤ n % 24) && decide (n % 24 < t.p0 + t.np) && decide (t.f0 ≤ n / 24) && decide (n / 24 < t.f0 + t.nf)

/-- What a participant does next: it is finished with the stage, waits for a rank, or sends to a rank (R81; the chain of
R188 in Prothallus mode). -/
inductive TreeMove where
  | finished
  | skip
  | await (rank : Nat)
  | send (rank : Nat)
  deriving DecidableEq, Repr

def treeMove (proth : Bool) (rank size level : Nat) : TreeMove :=
  if proth then
    if rank ≠ 0 then .send 0 else if level < size then .await level else .finished
  else if size ≤ 2 ^ (level - 1) then .finished
  else if rank % 2 ^ level = 0 then
    (if rank + 2 ^ (level - 1) < size then .await (rank + 2 ^ (level - 1)) else .skip)
  else .send (rank - 2 ^ (level - 1))

/-- The participant's rank and the number of ranks in the stage it is in. -/
def treeRank (t : TreeSpec) (n : Nat) (across : Bool) : Nat × Nat :=
  if across then (n / 24 - t.f0, t.nf) else (n % 24 - t.p0, t.np)

/-- The pinna with a given rank of the stage, seen from pinna `n`. -/
def treePinna (t : TreeSpec) (n : Nat) (across : Bool) (rank : Nat) : Nat :=
  if across then (t.f0 + rank) * 24 + t.p0 else n / 24 * 24 + t.p0 + rank

/-- The count of the elements whose flags a tree addition set, of those that are not NaN (R55, R81). -/
def lostTally (g : Group) (lost : Nat) : Tally :=
  (List.range 1024).foldl (fun t i =>
    if lost.testBit i && !W96.isNan (SMap.get 0#96 g.words i) then t.count .inexact 0xB i else t) {}

/-- A tally without its inexact counts. -/
def Tally.noInexact (t : Tally) : Tally := { t with inexact := 0, marks := t.marks.filter (fun m => m.1 ≠ 3) }

/-- The participant goes on until it waits for a tile, has sent its own, or is the root with the result (R81). -/
def State.treeAdvance (s : State) (n : Nat) : Nat → State
  | 0 => s
  | fuel + 1 =>
    match (s.pinna n).treeRun, (s.pinna n).launch with
    | some run, some l =>
      let p := s.pinna n
      let t := treeSpec run.spec.toNat
      let r := treeRank t n run.cross
      match treeMove l.proth r.1 r.2 run.level with
      | .await _ => s
      | .skip => State.treeAdvance (s.setPinna n { p with treeRun := some { run with level := run.level + 1 } }) n fuel
      | .send k =>
        let g := p.group run.group
        let tile : Tile := { src := n, dst := treePinna t n run.cross k, spec := run.spec, words := g.words,
                             flags := g.flags, lost := run.lost, job := l.job, pc := run.pc, group := run.group }
        let s1 := s.setPinna n { p.setGroup run.group {} with treeRun := none }
        { s1 with treeNet := s1.treeNet ++ [tile] }
      | .finished =>
        if run.cross then
          let g := p.group run.group
          let s1 := s.setPinna n { p.setGroup run.group { g with state := .opened } with treeRun := none }
          s1.pinnaTally n (lostTally g run.lost)
        else State.treeAdvance (s.setPinna n { p with treeRun := some { run with cross := true, level := 1 } }) n fuel
    | _, _ => s

/-- Steps of the longest tree: 31 levels of each chain, and the change of stage. -/
def treeFuel : Nat := 16

/-- The check of a `GREDUCE` at issue (R80): reserved bits, then the description of the tree. -/
def State.greduceCheck (s : State) (n w : Nat) (q : QEntry) (l : Launch) : Option Nat :=
  if bits w 55 52 ≠ 0 ∨ bits w 42 0 ≠ 0 then some 0x3007
  else if !s.treeSpecOk n l.ctx (q.s (bits w 47 43)) then some 0x3009
  else none

/-- A pinna joins the tree with a `GREDUCE` at the head of its array's queue (R73, R80, R81). -/
def State.greducePerform (s : State) (n : Nat) (q : QEntry) (_ : Launch) : State :=
  let p := s.pinna n
  let w := q.word.toNat
  let gi := groupOf w
  let g := p.group gi
  match g.state with
  | .closed | .inTree => s.refuse n 0x3003 q.pc gi
  | .invalid => s.refuse n 0x3005 q.pc gi
  | .opened =>
    let run : TreeRun := { spec := BitVec.ofNat 32 (q.s (bits w 47 43)), group := gi, pc := q.pc, cross := false, level := 1,
                           lost := 0, since := s.ticks }
    (s.setPinna n { p.setGroup gi { g with state := .inTree } with treeRun := some run }).treeAdvance n treeFuel

/-- The `GREDUCE`s of a pinna join their trees one at a time, in issue order, since the pinna has one tree port (log entry
46). -/
def Pinna.treeFree (p : Pinna) (q : QEntry) : Bool :=
  p.treeRun.isNone && p.queue.find? (fun x => fOp x.word.toNat == 0x4C) == some q

def execGreduce (x : ArrStep) (s : State) : Host.Outcome State Fault Refusal :=
  match x.ph with
  | .issue => matIssue s x.n 0x4C (s.greduceCheck x.n)
  | .perform arr => performArr s x.n 0x4C arr (fun q _ => (s.pinna x.n).treeFree q) (fun s q l => s.greducePerform x.n q l)

/-- A partner's tile added element by element into the participant's own group, its own word as w (R81). -/
def State.treeAdd (s : State) (n : Nat) (run : TreeRun) (l : Launch) (tile : Tile) : State :=
  let p := s.pinna n
  let g := p.group run.group
  let r := g.mapCells (fun i c =>
    match W96.val (SMap.get 0#96 tile.words i) with
    | .nan => c.addNan false
    | .fin neg m e => c.add l.proth (if neg then -(m : Int) else m) e
    | .inf _ => c.addNan true)
  let t := r.tally.noInexact
  let g1 := { r.group with flags := r.group.flags ||| tile.flags }
  let run1 := { run with level := run.level + 1, lost := run.lost ||| tile.lost ||| r.lost, since := s.ticks }
  let s1 := (s.setPinna n { p.setGroup run.group g1 with treeRun := some run1 }).pinnaTally n t
  let s2 := s1.trapStop n run.pc run.group r.trap
  s2.treeAdvance n treeFuel

/-- Both ends of a tile whose description differs stop with 0x3009 (R83); the sender only while it still runs the
command it sent from. -/
def State.treeMismatch (s : State) (n : Nat) (run : TreeRun) (tile : Tile) : State :=
  let s1 := s.refuse n 0x3009 run.pc run.group
  match (s1.pinna tile.src).launch with
  | some l => if l.job = tile.job then s1.refuse tile.src 0x3009 tile.pc tile.group else s1
  | none => s1

/-- The rank that a participant waits for. -/
def State.treeAwaits (s : State) (n : Nat) : Option (TreeRun × Launch × Nat) :=
  match (s.pinna n).treeRun, (s.pinna n).launch with
  | some run, some l =>
    let t := treeSpec run.spec.toNat
    let r := treeRank t n run.cross
    match treeMove l.proth r.1 r.2 run.level with
    | .await k => some (run, l, treePinna t n run.cross k)
    | _ => none
  | _, _ => none

/-- A tile reaches the port of a pinna (R83): before the pinna has issued `GREDUCE` it waits at the port, which holds
one; then the first tile that is the awaited partner's, or whose description differs, is compared and added or refused. -/
def execGreduceTileReceived (n : Nat) (s : State) : Host.Outcome State Fault Refusal :=
  if ¬ n < 768 then .fault .noSuchUnit
  else
    let p := s.pinna n
    match s.treeAwaits n with
    | none =>
      match p.treePort, s.treeNet.find? (fun t => t.dst == n) with
      | none, some t => .next { s.setPinna n { p with treePort := some t } with treeNet := s.treeNet.erase t }
      | _, _ => notEnabled "no tile can reach the port"
    | some (run, l, from_) =>
      let wanted (t : Tile) : Bool := t.dst == n && (t.src == from_ || t.spec != run.spec)
      let act (s : State) (t : Tile) : State := if t.spec = run.spec then s.treeAdd n run l t else s.treeMismatch n run t
      match p.treePort with
      | some t =>
        if wanted t then .next (act (s.setPinna n { p with treePort := none }) t)
        else match s.treeNet.find? wanted with
          | some t => .next (act { s with treeNet := s.treeNet.erase t } t)
          | none => notEnabled "no awaited tile has arrived"
      | none => match s.treeNet.find? wanted with
        | some t => .next (act { s with treeNet := s.treeNet.erase t } t)
        | none => notEnabled "no awaited tile has arrived"

/-- Ticks of 5 ns in a limit of `PNA_TREE_TIMEOUT`, whose unit is 1,024 cycles of 1.6 GHz (R82, R139). -/
def State.treeLimit (s : State) (n : Nat) : Nat := 128 * s.fld (pnaPage n) Reg.PNA_TREE_TIMEOUT 23 0

/-- A participant has waited beyond its limit (R82). -/
def execTreeTimeout (n : Nat) (s : State) : Host.Outcome State Fault Refusal :=
  if ¬ n < 768 then .fault .noSuchUnit
  else match s.treeAwaits n with
    | none => notEnabled "the pinna does not wait in a tree"
    | some (run, _, _) =>
      if s.treeLimit n = 0 then notEnabled "the limit is disabled"
      else if s.ticks ≤ run.since + s.treeLimit n then notEnabled "the limit has not passed"
      else .next (s.refuse n 0x300A run.pc run.group)

end Sys2Proof.Machine
end

