-- ==== Sys2Proof/Machine/Scalar.lean ====
section
/-!
DEFINITION. Control, scalar and synchronisation instructions of a pinna (03_matrix_and_accumulation.md, R60, R61, R86;
06_data_movement.md, R139).
-/
namespace Sys2Proof.Machine

/-- A scalar instruction of opcode `op`, held while a `VCOMPRESS` owes it a register (R107). -/
def scalarInstr (s : State) (n op : Nat) (eff : Nat → State) : Host.Outcome State Fault Refusal :=
  if ¬ n < 768 then .fault .noSuchUnit
  else if !s.pinnaRuns n then notEnabled "the pinna does not run"
  else if fOp (s.pinna n).fetch ≠ op then notEnabled "another instruction stands at the program counter"
  else if (s.pinna n).heldByCompress (s.pinna n).fetch 0 then notEnabled "a register waits for a VCOMPRESS"
  else .next (eff (s.pinna n).fetch)

/-- A refusal of the instruction at the program counter that names no group. -/
def State.refuseHere (s : State) (n code : Nat) : State := s.refuse n code (s.pinna n).pc 0

/-- `NOP`; a reserved opcode is refused with 0x300D (R58, R60, R139). -/
def execNop (n : Nat) (s : State) : Host.Outcome State Fault Refusal :=
  if ¬ n < 768 then .fault .noSuchUnit
  else if !s.pinnaRuns n then notEnabled "the pinna does not run"
  else if reservedOp (fOp (s.pinna n).fetch) then .next (s.refuseHere n 0x300D)
  else if fOp (s.pinna n).fetch ≠ 0x00 then notEnabled "another instruction stands at the program counter"
  else .next (s.advance n)

/-- `HALT`, once every earlier instruction has completed (R60, R86). -/
def execHalt (n : Nat) (s : State) : Host.Outcome State Fault Refusal :=
  if ¬ n < 768 then .fault .noSuchUnit
  else if !s.pinnaRuns n then notEnabled "the pinna does not run"
  else if fOp (s.pinna n).fetch ≠ 0x01 then notEnabled "another instruction stands at the program counter"
  else if !(s.pinna n).queue.isEmpty || (s.pinna n).treeRun.isSome then notEnabled "earlier instructions have not completed"
  else
    let p := s.pinna n
    let s1 := (s.openAtHalt n p.pc).pinnaReport n none
    .next (s1.setPinna n { (s1.pinna n).quit .idle with pc := (loopEnd p.loops (p.pc + 1)).2 % 8192 })

/-- The zeroing of the accumulator file and of the masks completes (R86, R117). -/
def execAccZeroingDone (n : Nat) (s : State) : Host.Outcome State Fault Refusal :=
  if ¬ n < 768 then .fault .noSuchUnit
  else if !(s.pinna n).zeroing then notEnabled "no zeroing is in progress"
  else .next (s.setPinna n { s.pinna n with groups := [], masks := [], zeroing := false })

def execSli (n : Nat) (s : State) : Host.Outcome State Fault Refusal :=
  scalarInstr s n 0x02 (fun w =>
    (s.setPinna n ((s.pinna n).setS (fD w) (BitVec.ofNat 32 (fImm w)))).advance n)

/-- The result of a scalar ALU operation (R60). -/
def saluResult (op : Nat) (x y : BitVec 32) : Option (BitVec 32) :=
  match op with
  | 0 => some (x + y)
  | 1 => some (x - y)
  | 2 => some (x &&& y)
  | 3 => some (x ||| y)
  | 4 => some (x ^^^ y)
  | 5 => some (x <<< (y.toNat % 32))
  | 6 => some (x >>> (y.toNat % 32))
  | 7 => some (x * y)
  | 8 => some (if x.toInt ≤ y.toInt then x else y)
  | 9 => some (if x.toInt ≤ y.toInt then y else x)
  | _ => none

def execSalu (n : Nat) (s : State) : Host.Outcome State Fault Refusal :=
  scalarInstr s n 0x03 (fun w =>
    let p := s.pinna n
    let y := if bit (fSub w) 4 then BitVec.ofNat 32 (fImm w) else p.sreg (fB w)
    match saluResult (fSub w % 16) (p.sreg (fA w)) y with
    | some r => (s.setPinna n (p.setS (fD w) r)).advance n
    | none => s.refuseHere n 0x3007)

def execAalu (n : Nat) (s : State) : Host.Outcome State Fault Refusal :=
  scalarInstr s n 0x04 (fun w =>
    let p := s.pinna n
    if 16 ≤ fD w ∨ (!bit (fSub w) 0 ∧ 16 ≤ fA w) then s.refuseHere n 0x3007
    else
      let v := if bit (fSub w) 0 then BitVec.ofNat 24 (p.sreg (fA w)).toNat
               else p.areg (fA w) + BitVec.ofNat 24 (fImm w)
      (s.setPinna n (p.setA (fD w) v)).advance n)

/-- `LOOP` (R60, R61). -/
def execLoop (n : Nat) (s : State) : Host.Outcome State Fault Refusal :=
  scalarInstr s n 0x05 (fun w =>
    let p := s.pinna n
    let c := fD w % 8
    let len := fSub w * 16 + bits w 31 28
    let trips := if bit (fD w) 3 then (p.sreg (fA w)).toNat else bits w 27 0
    if len = 0 ∨ 8191 < p.pc + len ∨ 8 ≤ p.loops.length ∨ p.loops.any (fun l => l.counter == c) then s.refuseHere n 0x300E
    else if trips = 0 then
      let r := loopEnd p.loops (p.pc + 1 + len)
      s.goTo n r.1 r.2
    else
      s.goTo n ({ counter := c, start := p.pc + 1, stop := p.pc + 1 + len, left := trips - 1 } :: p.loops) (p.pc + 1))

/-- The condition of a `BR` (R60). -/
def brTaken (cond : Nat) (x : BitVec 32) : Option Bool :=
  match cond with
  | 0 => some true
  | 1 => some (x == 0#32)
  | 2 => some (x != 0#32)
  | 3 => some (decide (x.toInt < 0))
  | 4 => some (decide (0 ≤ x.toInt))
  | _ => none

/-- `BR`: a target outside the body of an active loop ends that loop (R61). -/
def execBr (n : Nat) (s : State) : Host.Outcome State Fault Refusal :=
  scalarInstr s n 0x06 (fun w =>
    let p := s.pinna n
    let t := bits w 12 0
    match brTaken (fSub w % 8) (p.sreg (fA w)) with
    | none => s.refuseHere n 0x3007
    | some false => s.advance n
    | some true => s.goTo n (p.loops.filter (fun l => decide (l.start ≤ t) && decide (t < l.stop))) t)

/-- The scratchpad word that `SLD` and `SST` address. -/
def Pinna.wordAddr (p : Pinna) (w : Nat) : Nat := (p.areg (fA w) + BitVec.ofNat 24 (fImm w)).toNat

/-- Whether a queued vector instruction writes (or, for a store, reads) the word (R107). -/
def Pinna.heldByVector (p : Pinna) (a : Nat) (store : Bool) : Bool :=
  p.queue.any (fun q =>
    let f := vFields q.word.toNat
    decide (0x80 ≤ f.op) && ((f.writes q).any (fun r => cross r.1 r.2 a 4) || (store && (f.reads q).any (fun r => cross r.1 r.2 a 4))))

/-- A load or store of a scratchpad word (R60, R107). -/
def wordInstr (s : State) (n op : Nat) (store : Bool) (eff : Nat → Nat → State) : Host.Outcome State Fault Refusal :=
  if ¬ n < 768 then .fault .noSuchUnit
  else if !s.pinnaRuns n then notEnabled "the pinna does not run"
  else
    let p := s.pinna n
    let w := p.fetch
    if fOp w ≠ op then notEnabled "another instruction stands at the program counter"
    else if p.heldByCompress w 0 then notEnabled "a register waits for a VCOMPRESS"
    else if 16 ≤ fA w then .next (s.refuseHere n 0x3007)
    else if p.wordAddr w % 4 ≠ 0 ∨ spadSize < p.wordAddr w + 4 then .next (s.refuseHere n 0x3008)
    else if p.heldByVector (p.wordAddr w) store then notEnabled "an earlier vector instruction touches the word"
    else .next (eff w (p.wordAddr w))

def execSld (n : Nat) (s : State) : Host.Outcome State Fault Refusal :=
  wordInstr s n 0x07 false (fun w a =>
    let p := s.pinna n
    (s.setPinna n (p.setS (fD w) (BitVec.ofNat 32 (Mem.readLe p.spad a 4)))).advance n)

def execSst (n : Nat) (s : State) : Host.Outcome State Fault Refusal :=
  wordInstr s n 0x08 true (fun w a =>
    let p := s.pinna n
    (s.setPinna n { p with spad := Mem.writeLe p.spad a 4 (p.sreg (fB w)).toNat }).advance n)

/-! Synchronisation (R139). -/

/-- The pinna stalls at the instruction (R139). -/
def State.stallAt (s : State) (n : Nat) (w : Stall) : State := s.setPinna n { s.pinna n with stall := some w }

def Frond.engine (f : Frond) (e : Nat) : Engine := SMap.get {} f.engines e
def Frond.setEngine (f : Frond) (e : Nat) (x : Engine) : Frond := { f with engines := SMap.set {} f.engines e x }

/-- `DSUB`: the descriptor goes to the queue of a frond engine, and the ticket to s[d]. -/
def State.dsub (s : State) (n w : Nat) (l : Launch) : State :=
  let p := s.pinna n
  let a := p.wordAddr w
  let e := fSub w % 4
  let f := frondOfPinna n
  if fSub w / 4 ≠ 0 ∨ 16 ≤ fA w then s.refuseHere n 0x3007
  else if a % 64 ≠ 0 ∨ spadSize < a + 64 then s.refuseHere n 0x3008
  else
    let fr := s.frond f
    let en := fr.engine e
    if 32 ≤ en.queue.length then s.stallAt n .queue
    else
      let k := SMap.get 0 p.submitted e + 1
      let t := e * 2 ^ 30 + k % 2 ^ 30
      let d : QDesc := { bytes := Mem.read p.spad a 64, addr := a, submitter := .pinna n l.job t p.pc, ctx := l.ctx,
                         seed := l.seed, proth := l.proth, sealArg := none }
      let p1 := { p.setS (fD w) (BitVec.ofNat 32 t) with submitted := SMap.set 0 p.submitted e k }
      ((s.setFrond f (fr.setEngine e { en with queue := en.queue ++ [d] })).setPinna n p1).advance n

def execDsub (n : Nat) (s : State) : Host.Outcome State Fault Refusal :=
  if ¬ n < 768 then .fault .noSuchUnit
  else if !s.pinnaRuns n then notEnabled "the pinna does not run"
  else if fOp (s.pinna n).fetch ≠ 0x20 then notEnabled "another instruction stands at the program counter"
  else if !(s.pinna n).queue.isEmpty then notEnabled "earlier instructions have not written the scratchpad"
  else match (s.pinna n).launch with
    | none => notEnabled "the pinna does not run"
    | some l => .next (s.dsub n (s.pinna n).fetch l)

/-- `DWAIT`. -/
def execDwait (n : Nat) (s : State) : Host.Outcome State Fault Refusal :=
  scalarInstr s n 0x21 (fun w =>
    let p := s.pinna n
    let t := (p.sreg (fA w)).toNat
    let e := t / 2 ^ 30
    let k := t % 2 ^ 30
    if k = 0 ∨ SMap.get 0 p.submitted e < k then s.refuseHere n 0x3007
    else if k ≤ SMap.get 0 p.done e then s.advance n
    else s.stallAt n .ticket)

/-- `DFENCE`. -/
def execDfence (n : Nat) (s : State) : Host.Outcome State Fault Refusal :=
  scalarInstr s n 0x22 (fun _ =>
    let p := s.pinna n
    if (List.range 4).all (fun e => SMap.get 0 p.submitted e == SMap.get 0 p.done e) then s.advance n
    else s.stallAt n .fence)

/-- Byte offset of a frond flag on its `FRD` page. -/
def flagOff (i : Nat) : Nat := Reg.FRD_FLAG + 4 * i

/-- `FLAGADD`. -/
def execFlagadd (n : Nat) (s : State) : Host.Outcome State Fault Refusal :=
  scalarInstr s n 0x23 (fun w =>
    let p := s.pinna n
    let pg := Page.frd (frondOfPinna n)
    let o := flagOff (fImm w % 64)
    (s.setWord pg o ((s.word pg o + (p.sreg (fA w)).toNat) % 2 ^ 32)).advance n)

/-- Whether the condition of a `FLAGWAIT` holds. -/
def State.flagReached (s : State) (n w : Nat) : Bool :=
  decide (((s.pinna n).sreg (fA w)).toNat ≤ s.word (.frd (frondOfPinna n)) (flagOff (fImm w % 64)))

/-- The pinna begins to wait for a flag, or goes on waiting. -/
def State.flagStall (s : State) (n : Nat) : State :=
  let p := s.pinna n
  if p.stall = some .flag then s else s.setPinna n { p with stall := some .flag, waitedFrom := s.ticks }

/-- `FLAGWAIT`. -/
def execFlagwait (n : Nat) (s : State) : Host.Outcome State Fault Refusal :=
  scalarInstr s n 0x24 (fun w => if s.flagReached n w then s.advance n else s.flagStall n)

/-- A `FLAGWAIT` has waited beyond its limit (R139, R146). -/
def execFlagTimeout (n : Nat) (s : State) : Host.Outcome State Fault Refusal :=
  if ¬ n < 768 then .fault .noSuchUnit
  else if !(s.pinnaRuns n && (s.pinna n).stall == some .flag && fOp (s.pinna n).fetch == 0x24) then
    notEnabled "the pinna does not wait for a flag"
  else if s.treeLimit n = 0 then notEnabled "the limit is disabled"
  else if s.ticks < (s.pinna n).waitedFrom + s.treeLimit n then notEnabled "the limit has not passed"
  else if s.flagReached n (s.pinna n).fetch then notEnabled "the flag has reached the value"
  else
    let i := (s.pinna n).pc
    .next ((s.raise (pnaPage n) 0x200C i 0).stopPinna n 0x200C i (i, 0))

end Sys2Proof.Machine
end

