-- ==== Sys2Proof/Machine/Commands.lean ====
section
/-!
DEFINITION. Doorbells, the start of commands, and LAUNCH, FENCE, SIGNAL and CAPTURE_MARK (14_tenancy.md, R354 to R360,
R364; 15_host_interface.md, R377; 18_management_and_replay.md, R457, R459).
-/
namespace Sys2Proof.Machine

/-! Doorbells (R354, R377). -/

/-- A doorbell that is not accepted: counted and reported, unless the context is FREE or TEARDOWN. -/
def State.ignoreBell (s : State) (x fn c off : Nat) : State :=
  match (s.ctx c).state with
  | .free | .teardown => s
  | _ => (s.bump (.hif x) (hifCounter 3)).raiseLimited msTicks fn (.hif x) 0xD003 c off

/-- A doorbell of function `fn` at `off`, for the queue whose registers are at `o`, accepted or not. -/
def State.bellTake (s : State) (x fn c o off len value : Nat) (eff : State → State) : State :=
  if len ≠ 4 ∨ 4096 ≤ value ∨ (s.ctx c).state ≠ .active ∨ !s.qEn c o then s.ignoreBell x fn c off else eff s

/-- A write of a VF's doorbell page. -/
def bellWrite (s : State) (r : Requester) (c o off len value : Nat) (eff : State → State) :
    Host.Outcome State Fault Refusal :=
  match r with
  | .host x fn _ =>
    if ¬ c < 32 then .fault .noSuchUnit
    else if fn ≠ c + 1 ∨ !s.canAsk r then notEnabled "the function cannot make requests now"
    else if s.tdiRefuses r then .next (s.barRefuse r off)
    else .next (s.bellTake x fn c o off len value eff)
  | _ => notEnabled "doorbells are written through a VF"

/-- A new tail, if it is legal (R354). -/
def State.newTail (s : State) (c o v : Nat) : State :=
  let n := s.qSize c o
  let d := (v + n - s.qTail c o % n) % n
  let m := (s.qHead c o + 2 * n - 1 - s.qTail c o % n) % n
  if v < n ∧ 1 ≤ d ∧ d ≤ m then s.setTail c o v else s.faultCtx c 1

def execSqDoorbell (r : Requester) (c q len value : Nat) (s : State) : Host.Outcome State Fault Refusal :=
  if ¬ q < 4 then .fault .noSuchUnit
  else bellWrite s r c (sqOff q) (0x40 * q) len value (fun s => s.newTail c (sqOff q) value)

/-- Records returned by a write of the completion queue's head, if it is legal (R354). -/
def State.cqReturn (s : State) (c v : Nat) : State :=
  let n := s.qSize c Reg.CTX_CQ
  let d := (v + n - s.qHead c Reg.CTX_CQ % n) % n
  if v < n ∧ d ≤ s.cqUsed c then (s.setHead c Reg.CTX_CQ v).drainRecords c else s.faultCtx c 1

def execCqHeadReturn (r : Requester) (c len value : Nat) (s : State) : Host.Outcome State Fault Refusal :=
  bellWrite s r c Reg.CTX_CQ 0x100 len value (fun s => s.cqReturn c value)

/-! Legality of entries (R355). -/

/-- The frond engine that quadword 2 names. -/
def entryEngine (e : List Byte) : Nat × Nat := (bits (qword e 2) 52 48, bits (qword e 2) 54 53)

/-- The pinnae that a LAUNCH names, in increasing number. -/
def launchPinnae (e : List Byte) : List Nat :=
  let w := qword e 3
  (List.range (bits w 9 5 + 1)).flatMap (fun i =>
    ((List.range 24).filter (fun k => bit w (10 + k))).map (fun k => 24 * (bits w 4 0 + i) + k))

/-- Whether quadwords `from` to 7 are 0. -/
def zeroFrom (e : List Byte) (q : Nat) : Bool := leNat (e.drop (8 * q)) == 0

/-- Whether a frond belongs to the partition. -/
def State.frondIn (s : State) (p f : Nat) : Bool := decide (f < 32) && s.partOfQuarter (quarterOfFrond f) == p

/-- A legal descriptor address for the frond engine of quadword 2: `n` bytes, a multiple of 64, in a space that the
engine reaches. -/
def State.frondDescOk (s : State) (c : Nat) (e : List Byte) (n : Nat) : Bool :=
  let w := qword e 2
  let a := bits w 43 0
  let sp := bits w 46 44
  let f := (entryEngine e).1
  !bit w 47 && s.frondIn (c / 8) f && a % 64 == 0 && !(sp == 2 && (decide (a / 2 ^ 25 ≠ 0) || decide (23 < bits a 24 20)))
    && s.holds { ctx := c, frond := some f } sp a n

/-- Whether an entry is a legal command of context `c` (R355). -/
def State.entryLegal (s : State) (c : Nat) (e : List Byte) : Bool :=
  let w2 := qword e 2
  let w3 := qword e 3
  leNat (slice e 2 6) == 0 && decide (((e.getD 1 0#8).toNat) < 4) && (match cmdOf e with
  | 1 =>
    let sp := bits w2 46 44
    decide (sp < 2) && !bit w2 47 && bits w2 63 61 == 0 && bits w3 63 34 == 0 && zeroFrom e 5
      && (List.range (bits w3 9 5 + 1)).all (fun i => s.frondIn (c / 8) (bits w3 4 0 + i))
      && s.holds { ctx := c } sp (bits w2 43 0) (8 * (bits w2 60 48 + 1))
  | 2 =>
    let n := 64 * (bits w3 7 0 + 1)
    let mode := bits w3 9 8
    bits w2 63 59 == 0 && decide (mode < 3) && decide (bits w3 13 10 < 9) && bits w3 63 14 == 0 && zeroFrom e 6
      && (if bit w2 55 then
            let sp := bits w2 46 44
            !bit w2 47 && bits w2 54 48 == 0 && bits w2 56 56 == s.portOfCtx c && bits w2 43 0 % 64 == 0
              && s.holds { ctx := c } sp (bits w2 43 0) n
          else bits w2 58 56 == 0 && mode == 0 && s.frondDescOk c e n)
  | 3 => bits w2 63 55 == 0 && bits w3 63 2 == 0 && decide (w3 < 3) && zeroFrom e 4 && s.frondDescOk c e 64
  | 4 => bits w2 63 55 == 0 && zeroFrom e 3 && s.frondDescOk c e 64
  | 5 => bits w2 63 55 == 0 && bits w3 63 16 == 0 && zeroFrom e 4 && s.frondDescOk c e (64 * (bits w3 15 0 + 1))
  | 6 => bits w2 63 4 == 0 && zeroFrom e 3
  | 7 =>
    let sp := bits w2 46 44
    !bit w2 47 && bits w2 63 49 == 0 && bits (qword e 4) 63 32 == 0 && zeroFrom e 5 && bits w2 43 0 % 8 == 0
      && s.queueHolds c sp (bits w2 43 0) 8
  | 8 => zeroFrom e 6
  | _ => false)

/-! The start of a command (R356). -/

/-- The engine an entry names, for commands 2 to 5. -/
def entryEngineId (e : List Byte) : EngineId :=
  let w := qword e 2
  if cmdOf e = 2 ∧ bit w 55 then .host (bits w 56 56) (bits w 58 57) else .frond (entryEngine e).1 (entryEngine e).2

/-- The engine with a given name, and its replacement. -/
def State.engine (s : State) : EngineId → Engine
  | .frond f e => (s.frond f).engine e
  | .host x e => SMap.get {} (s.port x).engines e
def State.setEngine (s : State) : EngineId → Engine → State
  | .frond f e, g => s.setFrond f ((s.frond f).setEngine e g)
  | .host x e, g => s.setPort x { s.port x with engines := SMap.set {} (s.port x).engines e g }

/-- The engine's page, its number there, and the block number under which its numeric events are counted. -/
def EngineId.page : EngineId → Page
  | .frond f _ => .frd f
  | .host x _ => .hif x
def EngineId.num : EngineId → Nat
  | .frond _ e => e
  | .host _ e => e
def EngineId.blk (e : EngineId) : Nat := e.page.id * 4 + e.num
def EngineId.exists : EngineId → Bool
  | .frond f e => decide (f < 32) && decide (e < 4)
  | .host x e => decide (x < 2) && decide (e < 4)
def EngineId.frond? : EngineId → Option Nat
  | .frond f _ => some f
  | .host _ _ => none

/-- Whether a pinna is idle, with its zeroing complete, and no LAUNCH that has started is about to load it. -/
def State.pinnaIdle (s : State) (n : Nat) : Bool :=
  let p := s.pinna n
  p.launch.isNone && !p.zeroing && s.ctxs.all (fun x => x.2.jobs.all (fun j => j.begun || !j.named.contains n))

/-- Whether the resources of a legal entry are free (R356). -/
def State.entryReady (s : State) (e : List Byte) : Bool :=
  match cmdOf e with
  | 1 => (launchPinnae e).all s.pinnaIdle
  | 2 | 3 | 4 | 5 => decide ((s.engine (entryEngineId e)).queue.length < 32)
  | _ => true

/-- A queue that can go on: in use, not empty, and not behind a FENCE of its own (R354, R356). -/
def State.queueOpen (s : State) (c q : Nat) : Bool :=
  s.qEn c (sqOff q) && s.qHead c (sqOff q) != s.qTail c (sqOff q)
    && !(s.ctx c).jobs.any (fun j => j.queue == q && cmdOf j.entry == 6)

/-- The read of the entry at the head of a queue. -/
def State.readEntry (s : State) (c q : Nat) : State × Option (List Byte) :=
  let o := sqOff q
  let a := s.qBase c o + 64 * s.qHead c o
  if s.queueHolds c (s.qSpace c o) a 64 then s.readSpace { ctx := c } (s.qSpace c o) a 64 else (s, none)

/-- Whether queue `q` of context `c` has something to start: a read that fails, an illegal entry with room for its
record, or a command whose resources are free (log entry 15). -/
def State.canStart (s : State) (c q : Nat) : Bool :=
  s.queueOpen c q && (match (s.readEntry c q).2 with
    | none => true
    | some e => decide (0 < s.cqFree c) && (!s.entryLegal c e || s.entryReady e))

/-- Contexts whose commands may start (R352, R360, R362). -/
def State.ctxStarts (s : State) (c : Nat) : Bool :=
  let x := s.ctx c
  x.state == .active && !x.resetting && !(s.part (c / 8)).resetting && !s.haltedPart (c / 8)

/-- The next queue in the rotation of R356. -/
def State.nextStart (s : State) (p : Nat) : Option (Nat × Nat) :=
  (List.range 8).findSome? (fun i =>
    let c := 8 * p + ((s.part p).turn + i) % 8
    if !s.ctxStarts c then none
    else (List.range 4).findSome? (fun k =>
      let q := ((s.ctx c).turn + k) % 4
      if s.canStart c q then some (c, q) else none))

/-- The command of an entry that has been read starts, or ends at once: 0xE102 where a replay diverges (R459), 0xA00A
where it is illegal. -/
def State.startEntry (s : State) (c q : Nat) (e : List Byte) : State :=
  let idx := s.qHead c (sqOff q)
  let s1 := s.setHead c (sqOff q) ((idx + 1) % s.qSize c (sqOff q))
  let s2 := s1.capRecord c 2 (submitBody q idx e)
  let x := s2.ctx c
  let cmd := cmdOf e
  let waitFor := (x.jobs.filter (fun j =>
    if cmd = 6 then bit (qword e 2) j.queue else cmd == 7 && j.queue == q)).map (fun j => j.id)
  let id := s2.nextJob
  let j : Job := { id := id, ctx := c, queue := q, index := idx, entry := e, waitFor := waitFor,
                   named := if cmd = 1 then launchPinnae e else [] }
  let s3 : State := { s2.setCtx c { x with jobs := x.jobs ++ [j] } with nextJob := id + 1 }
  let r : State × Bool := if s3.capMode c = 2 then s3.replaySubmit c q e else (s3, true)
  if !r.2 then r.1.endJobEvent c id 0xE102 idx 1
  else if !s.entryLegal c e then
    -- an illegal entry names no pinnae that anything waits for
    (r.1.updJob c id (fun j => { j with named := [] })).endJobEvent c id 0xA00A idx (cmdOf e)
  else r.1

/-- One start of a partition's scheduler (R356). -/
def execCommandStart (p : Nat) (s : State) : Host.Outcome State Fault Refusal :=
  if ¬ p < 4 then .fault .noSuchUnit
  else match s.nextStart p with
    | none => notEnabled "no queue of the partition has a command that can start"
    | some (c, q) =>
      let s1 := (s.setPart p { s.part p with turn := (c + 1) % 8 }).setCtx c { s.ctx c with turn := (q + 1) % 4 }
      match s1.readEntry c q with
      | (s2, none) => .next (s2.faultCtx c 2)
      | (s2, some e) => .next (s2.startEntry c q e)

/-! Commands that have started. -/

/-- The meaning of an event of a started command: the command must exist, have the code `cmd` and satisfy `q`. -/
def onJob (s : State) (id cmd : Nat) (q : Nat → Job → Bool) (eff : Nat → Job → State) : Host.Outcome State Fault Refusal :=
  match s.job id with
  | none => notEnabled "no started command has this number"
  | some (c, j) =>
    if cmdOf j.entry ≠ cmd then notEnabled "the command is of another kind"
    else if s.haltedPart (c / 8) then notEnabled "the partition or the device is halted"
    else if !q c j then notEnabled "the command does not stand there"
    else .next (eff c j)

/-- A pinna loaded and started (R355). -/
def State.loadPinna (s : State) (n : Nat) (image : List Byte) (c : Nat) (j : Job) : State :=
  let p := s.pinna n
  let imem := (List.range (image.length / 8)).foldl (fun m i =>
    SMap.set 0#64 m i (BitVec.ofNat 64 (leNat (slice image (8 * i) 8)))) []
  let w := qword j.entry 4
  let sregs := SMap.set 0#32 (SMap.set 0#32 (SMap.set 0#32 [] 0 (BitVec.ofNat 32 w)) 1 (BitVec.ofNat 32 (w / 2 ^ 32)))
    2 (BitVec.ofNat 32 n)
  s.setPinna n { p with imem := imem, sregs := sregs, aregs := [], masks := [], pc := 0, seq := .running,
                        loops := [], queue := [], halted := false, stall := none, submitted := [], done := [],
                        tally := {}, miss := none,
                        launch := some { job := j.id, ctx := c, seed := entrySeed j.entry, proth := (s.ctx c).proth } }

/-- The 64 flags of a frond zeroed (R140). -/
def State.zeroFlags (s : State) (f : Nat) : State :=
  (List.range 64).foldl (fun s i => s.setWord (.frd f) (flagOff i) 0) s

/-- A LAUNCH loads its image, after the digest check of a joint context (R355, R364). A bus error on the image ends it
with 0x200A (log entry 16). -/
def State.launch (s : State) (c : Nat) (j : Job) : State :=
  let w2 := qword j.entry 2
  let w3 := qword j.entry 3
  match s.readSpace { ctx := c } (bits w2 46 44) (bits w2 43 0) (8 * (bits w2 60 48 + 1)) with
  | (s1, none) => s1.endJob c j.id 0x200A 0
  | (s1, some image) =>
    let x := s1.ctx c
    let digest := sha384 image
    let allowed := match x.policy with
      | some p => p.programs.contains digest
      | none => false
    if x.joint ∧ !allowed then s1.endJobEvent c j.id 0xA007 j.index (leNat (digest.take 4))
    else
      let s2 := s1.updJob c j.id (fun j => { j with begun := true, pinnae := j.named })
      let s3 := (List.range (bits w3 9 5 + 1)).foldl (fun s i => s.zeroFlags (bits w3 4 0 + i)) s2
      j.named.foldl (fun s n => s.loadPinna n image c j) s3

def execLaunch (job : Nat) (s : State) : Host.Outcome State Fault Refusal :=
  onJob s job 1 (fun _ j => !j.begun) (fun c j => s.launch c j)

/-- The stop of the lowest-numbered pinna that stopped. -/
def firstStop (l : List (Nat × Nat × Nat × Nat)) : Option (Nat × Nat × Nat × Nat) :=
  l.foldl (fun o x => match o with
    | some y => if x.1 < y.1 then some x else some y
    | none => some x) none

/-- The end of a LAUNCH (R357, R358). A replayed input that differed ends it with 0xE102 where no code of R357 does
(R459). -/
def State.launchEnd (s : State) (c : Nat) (j : Job) : State :=
  match firstStop j.stops with
  | some (n, code, a, b) => s.endJob c j.id code (n % 1024 + a % 65536 * 65536 + b % 2 ^ 32 * 2 ^ 32)
  | none => match j.miss with
    | some (_, m) => s.endJob c j.id 0x2009 (detailOf m.expected m.found)
    | none => match j.result with
      | some (code, d) => s.endJob c j.id code d
      | none => s.endJob c j.id 0 0

def execLaunchComplete (job : Nat) (s : State) : Host.Outcome State Fault Refusal :=
  onJob s job 1 (fun _ j => j.begun && j.pinnae.isEmpty) (fun c j => s.launchEnd c j)

/-- Whether remote accumulates that queues of a context issued, as the mask of a FENCE names them, are still on their way to
a stack (R17). -/
def State.accumulating (s : State) (c mask : Nat) : Bool :=
  s.stackTab.any (fun x => x.2.inbox.any (fun m => m.ctx == c && (match m.queue with
    | some q => bit mask q
    | none => false)))

/-- A FENCE whose commands have all completed, with all that they sent to the stacks' adders. -/
def execFence (job : Nat) (s : State) : Host.Outcome State Fault Refusal :=
  onJob s job 6 (fun c j => j.waitFor.isEmpty && !s.accumulating c (qword j.entry 2)) (fun c j => s.endJob c j.id 0 0)

/-- Space and address of a SIGNAL. -/
def signalAt (j : Job) : Nat × Nat := (bits (qword j.entry 2) 46 44, bits (qword j.entry 2) 43 0)

/-- A SIGNAL write; a bus error ends it with 0x200A (log entry 16). -/
def execSignalWrite (job : Nat) (s : State) : Host.Outcome State Fault Refusal :=
  onJob s job 7 (fun _ j => j.waitFor.isEmpty && !bit (qword j.entry 2) 48) (fun c j =>
    match s.writeSpace { ctx := c } (signalAt j).1 (signalAt j).2 (leBytes 8 (qword j.entry 3)) with
    | (s1, true) => s1.endJob c j.id 0 0
    | (s1, false) => s1.endJob c j.id 0x200A 0)

/-- 200 MHz cycles of a microsecond. -/
def usTicks : Nat := 200

/-- The key of a SIGNAL's polls among the noted moments. -/
def pollKey (job : Nat) : Nat := 2 ^ 62 + job

/-- One poll of a SIGNAL wait; polls come at least 1 µs apart (R355). -/
def execSignalWait (job : Nat) (s : State) : Host.Outcome State Fault Refusal :=
  onJob s job 7 (fun _ j => j.waitFor.isEmpty && bit (qword j.entry 2) 48 && s.rateOpen (pollKey job) usTicks) (fun c j =>
    match s.readSpace { ctx := c } (signalAt j).1 (signalAt j).2 8 with
    | (s1, none) => s1.endJob c j.id 0x200A 0
    | (s1, some bs) =>
      if qword j.entry 3 ≤ leNat bs then s1.endJob c j.id 0 0
      else (s1.updJob c j.id (fun j => { j with waits := true, since := if j.waits then j.since else s.ticks })).rateNote
        (pollKey job))

/-- The timeout of a SIGNAL wait, in µs from its first poll (R355). -/
def execSignalTimeout (job : Nat) (s : State) : Host.Outcome State Fault Refusal :=
  onJob s job 7 (fun _ j => j.waits && qword j.entry 4 != 0 && decide (j.since + usTicks * qword j.entry 4 ≤ s.ticks)) (fun c j =>
    s.endJobEvent c j.id 0xA00B j.index (qword j.entry 4))

/-- CAPTURE_MARK: a MARK record while the context captures (R355, R457). -/
def execCaptureMark (job : Nat) (s : State) : Host.Outcome State Fault Refusal :=
  onJob s job 8 (fun _ _ => true) (fun c j => (s.capRecord c 5 (slice j.entry 16 32)).endJob c j.id 0 0)

end Sys2Proof.Machine
end

