-- ==== Sys2Proof/Machine/DmaCheck.lean ====
section
/-!
DEFINITION. Geometry of a tensor descriptor and its checks at issue (06_data_movement.md, R126 to R133, R142, R143;
14_tenancy.md, R368).
-/
namespace Sys2Proof.Machine

/-! Geometry (R127 to R129, R132). -/

/-- The width in bits of an element of a format code, slice operands among them; 0 for a code without elements here. -/
def codeWidth (c : Nat) : Nat := if c = 0xC then 8 else ((Fmt.ofCode c).map Fmt.width).getD 0

/-- Whether a code names a block format. -/
def codeBlock (c : Nat) : Bool := ((Fmt.ofCode c).map Fmt.isBlock).getD false

/-- Whether a code names a format that a descriptor may hold on a side. -/
def codeKnown (c : Nat) : Bool := c == 0xC || (Fmt.ofCode c).isSome

/-- A descriptor that slices (R130): it converts to format 0xC. -/
def Desc.slices (d : Desc) : Bool := d.fmtOut == 0xC && d.fmtIn != 0xC
/-- The slice count and the exponent source of a slicing descriptor (R126). -/
def Desc.planes (d : Desc) : Nat := if bit d.tag 0 then 8 else 4
def Desc.expSource (d : Desc) : Nat := bits d.tag 2 1

/-- Space, address and format code of the memory side and of the dense side (R126). -/
def Desc.memSide (d : Desc) : Nat × Nat × Nat :=
  if d.sside then (d.dstSpace, d.dst, d.fmtOut) else (d.srcSpace, d.src, d.fmtIn)
def Desc.denseSide (d : Desc) : Nat × Nat × Nat :=
  if d.sside then (d.srcSpace, d.src, d.fmtIn) else (d.dstSpace, d.dst, d.fmtOut)

/-- Extents of the dimensions in use, and the number of elements. -/
def Desc.exts (d : Desc) : List Nat := d.ext.take d.ndim
def Desc.count (d : Desc) : Nat := d.exts.foldl (· * ·) 1
def Desc.ext0 (d : Desc) : Nat := nth 0 d.ext 0
def Desc.ext1 (d : Desc) : Nat := nth 0 d.ext 1
/-- The runs of dimension 0: Q of R128. -/
def Desc.runs (d : Desc) : Nat := d.exts.tail.foldl (· * ·) 1

/-- Coordinates of a run number in the dimensions from 1 on. -/
def runCoords : List Nat → Nat → List Nat
  | [], _ => []
  | e :: es, r => r % e :: runCoords es (r / e)

/-- Coordinate of dimension 1 of element `n`. -/
def Desc.coord1 (d : Desc) (n : Nat) : Nat := if d.ndim < 2 then 0 else n / d.ext0 % d.ext1

/-- The offset of element `n` in logical order (R127). -/
def Desc.offset (d : Desc) (n : Nat) : Nat :=
  let cs := runCoords d.exts.tail (n / d.ext0)
  ((d.org : Int) + (n % d.ext0 : Nat) + ((cs.zip d.st.tail).foldl (fun t x => t + (x.1 : Int) * x.2) 0)).toNat

/-- Least and greatest offset (R132). -/
def Desc.spans (d : Desc) : List Int := (d.exts.tail.zip d.st.tail).map (fun x => ((x.1 : Int) - 1) * x.2)
def Desc.lo (d : Desc) : Int := d.spans.foldl (fun t x => t + min 0 x) (d.org : Int)
def Desc.hi (d : Desc) : Int := d.spans.foldl (fun t x => t + max 0 x) ((d.org : Int) + d.ext0 - 1)

/-- The position of element `n` on the dense side (R128). -/
def Desc.densePos (d : Desc) (n : Nat) : Nat :=
  if d.tiled then
    let i0 := n % d.ext0
    32 * (i0 / 32 * d.runs + n / d.ext0) + i0 % 32
  else n

/-- The position of element `n` on the source and on the destination side, in elements from the side's base. -/
def Desc.srcPos (d : Desc) (n : Nat) : Nat := if d.sside then d.densePos n else d.offset n
def Desc.dstPos (d : Desc) (n : Nat) : Nat := if d.sside then d.offset n else d.densePos n

/-- Bytes of the dense data: whole blocks, or elements; no planes are counted here. -/
def Desc.denseBytes (d : Desc) : Nat :=
  let c := d.denseSide.2.2
  if codeBlock c then ceilDiv d.count 32 * (4 * codeWidth c) else d.count * codeWidth c / 8

/-- The address of scale line 0 on each side (R129). -/
def Desc.memLine0 (d : Desc) : Nat := 64 * d.sline
def Desc.denseLine0 (d : Desc) : Nat := alignUp (d.denseSide.2.1 + d.denseBytes) 64
def Desc.srcLine0 (d : Desc) : Nat := if d.sside then d.denseLine0 else d.memLine0
def Desc.dstLine0 (d : Desc) : Nat := if d.sside then d.memLine0 else d.denseLine0

/-- Byte footprint of the memory side relative to its base: first byte and end. -/
def Desc.memFoot (d : Desc) : Int × Int :=
  let w : Int := codeWidth d.memSide.2.2
  (d.lo * w / 8, (d.hi + 1) * w / 8)

/-- Byte footprint of the dense side relative to its base; nothing for an exponent-only descriptor. -/
def Desc.denseFoot (d : Desc) : Option (Int × Int) :=
  if d.slices then
    (if d.expSource = 2 then none else some (0, (d.planes - 1) * (32 * d.stream) + d.count))
  else some (0, d.denseBytes)

/-- The 80 bytes that a seal mode adds to a side in a host window (R368). -/
def sealGrow (q : QDesc) (space : Nat) : Int :=
  if q.sealArg.isSome ∧ (space = 4 ∨ space = 5) then 80 else 0

/-! Checks (R131). -/

/-- Offset of a statistics slot on the `FRD` page (R145). -/
def statOff (n : Nat) : Nat := Reg.FRD_STAT + 32 * (n - 1)

/-- Whether the statistics slot of a descriptor is allowed (R130, R142, R143). -/
def State.statOk (s : State) (e : EngineId) (d : Desc) : Bool :=
  if d.stat = 0 then true
  else match e with
    | .host _ _ => false
    | .frond f _ =>
      let pg := Page.frd f
      let o := statOff d.stat
      d.fmtIn != d.fmtOut
        && (s.fld pg o 165 165 == 0 || s.fld pg o 164 160 == d.ctx)
        && !(s.fld pg Reg.FRD_STAT_CHAN 5 0 == d.stat && decide (4096 < d.ext1))

/-- Whether an address has no bit above the fields of its space (R125). -/
def addrFields (space a : Nat) : Bool :=
  match space with
  | 2 => decide (a < 2 ^ 25) && decide (bits a 24 20 < 24)
  | 3 => decide (a < 2 ^ 23)
  | _ => true

/-- Step 2 of R131. -/
def State.descFields (s : State) (e : EngineId) (q : QDesc) (d : Desc) : Bool :=
  let blk := codeBlock d.fmtIn || codeBlock d.fmtOut
  let m := d.memSide
  let converts := d.fmtIn != d.fmtOut && codeBlock d.fmtOut
  let used := d.st.take d.ndim
  d.reservedOk && decide (1 ≤ d.ndim) && decide (d.ndim ≤ 5)
    && (d.ext.drop d.ndim).all (· == 0) && (d.st.drop (max d.ndim 1)).all (· == 0)
    && decide (d.rnd < 2) && decide (d.ssrc < 3)
    && (d.ssrc != 0 || d.sarg == 0) && (d.ssrc == 0 || converts)
    && (d.ssrc != 1 || (decide (d.sarg < 64) && e.frond?.isSome && s.estUsable q.ctx d.sarg d.fmtOut))
    && (if d.slices then
          !d.sside && d.ndim == 2 && d.tiled && (d.ext1 == 16 || d.ext1 == 64) && d.rnd == 0 && d.ssrc == 0
            && bits d.tag 15 3 == 0 && d.expSource != 3 && (d.expSource == 2 || decide (d.ext0 * d.ext1 ≤ 32 * d.stream))
        else !blk || d.tag != 0)
    && addrFields d.srcSpace d.src && addrFields d.dstSpace d.dst
    && (if d.slices then addrFields d.dstSpace (64 * d.sline)
        else !codeBlock m.2.2 || addrFields m.1 (64 * d.sline))
    && (if codeBlock m.2.2 then
          d.org % 32 == 0 && d.ext0 % 32 == 0 && m.2.1 % 8 == 0 && (used.drop 1).all (fun x => x % 32 == 0)
        else !codeKnown m.2.2 || m.2.1 % (codeWidth m.2.2 / 8) == 0)
    && (!d.tiled || d.ext0 % 32 == 0)
    && s.statOk e d
    && (match q.sealArg with
        | some _ => d.fmtIn == d.fmtOut && d.ndim == 1 && !blk && decide (d.count * codeWidth d.fmtIn / 8 ≤ 16777216)
        | none => true)

/-- Step 3 of R131: a legal pair of formats (R130). -/
def Desc.pairOk (d : Desc) : Bool :=
  let num (c : Nat) : Bool := decide (c ≤ 0xA)
  (num d.fmtIn && num d.fmtOut) || (d.fmtOut == 0xC && (d.fmtIn == 0xC || d.fmtIn == 0 || d.fmtIn == 3))

/-- For whom an engine makes the accesses of a descriptor (R289, R369): class 5 for key 8, and for any key of a
single-owner context (log entry 17). -/
def State.descAccess (s : State) (e : EngineId) (q : QDesc) : Access :=
  { ctx := q.ctx, frond := e.frond?,
    cls := match q.sealArg with
      | some a => if a.key = 8 ∨ !(s.ctx q.ctx).joint then 5 else 0
      | none => 0 }

/-- The lines of a run of bytes of a view, as stack and line. -/
def State.linesOf (s : State) (p space a n : Nat) : List (Option (Nat × Nat)) :=
  if n = 0 then []
  else (List.range ((a + n - 1) / 64 - a / 64 + 1)).map (fun i =>
    (s.resolve p space (64 * (a / 64 + i))).map (fun x => (x.1, x.2 / 64)))

/-- Whether every line of a run lies in a region, sealed or ordinary as asked. -/
def State.runSealed (s : State) (p space a n : Nat) (want : Bool) : Bool :=
  (s.linesOf p space a n).all (fun l => match l with
    | some (k, line) => (match s.regionAt k line with
      | some r => (s.region r).sealedBit == want
      | none => false)
    | none => false)

/-- First byte of the source and of the destination of a plain one-dimensional copy, and its length. -/
def Desc.srcStart (d : Desc) : Nat := d.src + (if d.sside then 0 else d.org * codeWidth d.fmtIn / 8)
def Desc.dstStart (d : Desc) : Nat := d.dst + (if d.sside then d.org * codeWidth d.fmtOut / 8 else 0)
def Desc.bytes (d : Desc) : Nat := d.count * codeWidth d.fmtIn / 8

/-- The region rules of R368 on a sealing or unsealing descriptor: a host window on the right side, and the regions that
an unseal may write. `kind` is the header's kind. -/
def State.sealSpaces (s : State) (q : QDesc) (d : Desc) (kind : Nat) : Bool :=
  match q.sealArg with
  | none => true
  | some a =>
    let x := s.ctx q.ctx
    let host (sp : Nat) : Bool := sp == 4 || sp == 5
    let dev (sp : Nat) : Bool := sp == 0 || sp == 1
    if a.opening then
      host d.srcSpace && dev d.dstSpace &&
        (if a.key = 8 then kind == 3 || !x.joint || s.runSealed (q.ctx / 8) d.dstSpace d.dstStart d.bytes true
         else !x.joint || s.runSealed (q.ctx / 8) d.dstSpace d.dstStart d.bytes false)
    else dev d.srcSpace && host d.dstSpace

/-- Steps 1 to 8 of R131: 0, or the code of the first failure. The dense data with their scale lines are one footprint from
the dense address on, so that in the stack-local view they stay in one stack's window (R125). -/
def State.descCheck (s : State) (e : EngineId) (q : QDesc) (d : Desc) (kind : Nat) : Nat :=
  let a := s.descAccess e q
  let m := d.memSide
  let n := d.denseSide
  let mf := d.memFoot
  let mGrow := sealGrow q m.1
  let nGrow := sealGrow q n.1
  let memBlk := codeBlock m.2.2
  let blo := (d.lo / 32).toNat
  let bhi := (d.hi / 32).toNat
  if d.ctx ≠ q.ctx then 0x2007
  else if !s.descFields e q d then 0x2003
  else if !d.pairOk then 0x2004
  else if d.exts.any (· == 0) then 0x2001
  else if !(s.reachable a m.1 m.2.1 && s.reachable a n.1 n.2.1 && (!memBlk || s.reachable a m.1 d.memLine0)
      && (!d.slices || s.reachable a n.1 (64 * d.sline)) && s.sealSpaces q d kind) then 0x2005
  else if d.lo < 0 ∨ (2 ^ 48 : Int) - 1 < d.hi then 0x2008
  else if !(s.inBound a m.1 m.2.1 mf.1 (mf.2 + mGrow)
      && (match d.denseFoot with
          | some f => s.inBound a n.1 n.2.1 f.1 (f.2 + nGrow)
          | none => true)
      && (!memBlk || s.inBound a m.1 d.memLine0 (64 * (blo / 60) : Nat) (64 * (bhi / 60) + 64 : Nat))
      && (!codeBlock n.2.2 || s.inBound a n.1 n.2.1 0 (d.denseLine0 - n.2.1 + 64 * ceilDiv (ceilDiv d.count 32) 60 : Nat))
      && (!d.slices || s.inBound a n.1 (64 * d.sline) 0 (4 * d.ext1 : Nat))) then 0x2002
  else match d.denseFoot with
    | some f =>
      if m.1 = n.1 ∧ (m.2.1 : Int) + mf.1 < n.2.1 + f.2 ∧ (n.2.1 : Int) + f.1 < m.2.1 + mf.2 then 0x2006 else 0
    | none => 0

/-! The end of a descriptor. -/

/-- Ticket of a descriptor's event (R146). -/
def QDesc.ticket (q : QDesc) : Nat :=
  match q.submitter with
  | .pinna _ _ t _ => t
  | .job _ _ => 0

/-- The fault register of an engine's page (R145, R398). -/
def State.dmaFault (s : State) (e : EngineId) (q : QDesc) (code : Nat) : State :=
  match e with
  | .frond f k =>
    let src := match q.submitter with
      | .pinna n _ _ _ => n % 24
      | .job _ _ => 31
    s.setFld (.frd f) Reg.FRD_DMA_FAULT 31 0 (code + k * 2 ^ 16 + src * 2 ^ 18)
  | .host x k => s.setFld (.hif x) Reg.HIF_DMA_FAULT 31 0 (code + k * 2 ^ 16 + q.ctx * 2 ^ 18)

def State.dmaDone (s : State) : EngineId → State
  | .frond f _ => s.bump (.frd f) Reg.FRD_DMA_DONE
  | .host x _ => s.bump (.hif x) Reg.HIF_DMA_DONE

/-- The queued descriptors of a pinna discarded in every engine of its frond (R140). -/
def State.discardOf (s : State) (f n : Nat) : State :=
  (List.range 4).foldl (fun s k =>
    let g := (s.frond f).engine k
    s.setFrond f ((s.frond f).setEngine k { g with queue := g.queue.filter (fun d => match d.submitter with
      | .pinna m _ _ _ => m != n
      | .job _ _ => true) })) s

/-- What the end of a descriptor does to the pinna that submitted it (R139, R140). -/
def State.pinnaDesc (s : State) (e : EngineId) (n job pc code : Nat) (args : Nat × Nat) : State :=
  let p := s.pinna n
  if (p.launch.map (fun l => l.job)) ≠ some job then s
  else
    let s1 := s.setPinna n { p with done := SMap.set 0 p.done e.num (SMap.get 0 p.done e.num + 1) }
    if 0x2001 ≤ code ∧ code ≤ 0x200A then
      (s1.stopPinna n code pc args).discardOf (frondOfPinna n) n
    else s1

/-- Descriptor `i` of a command as its engine's queue holds it (R355, R368). -/
def State.jobQDesc (s : State) (c : Nat) (j : Job) (i : Nat) : QDesc :=
  let w3 := qword j.entry 3
  let w5 := qword j.entry 5
  let mode := bits w3 9 8
  { bytes := nth [] j.descs i, addr := j.descAddr + 64 * i, submitter := .job j.id i, ctx := c,
    seed := entrySeed j.entry, proth := (s.ctx c).proth,
    sealArg := if mode = 0 then none
               else some { opening := mode == 2, key := bits w3 13 10, obj := qword j.entry 4,
                           chunk := (bits w5 31 0 + i) % 2 ^ 32, count := bits w5 63 32 } }

/-- The DMA command that started first among those with descriptors that their engine's queue has not taken yet. -/
def State.feeder (s : State) (e : EngineId) : Option (Nat × Job) :=
  (s.ctxs.flatMap (fun x => x.2.jobs.map (fun j => (x.1, j)))).foldl (fun r x =>
    let j := x.2
    if cmdOf j.entry = 2 ∧ j.begun ∧ j.result.isNone ∧ j.nextDesc < j.descs.length ∧ entryEngineId j.entry = e then
      (match r with
       | some y => if y.2.id < j.id then some y else some x
       | none => some x)
    else r) none

/-- An engine's queue of 32 takes the descriptors of DMA commands, in order, as far as it has room (R138; log entry 18). -/
def State.feed (s : State) (e : EngineId) : State :=
  (List.range 32).foldl (fun s _ =>
    let g := s.engine e
    if 32 ≤ g.queue.length then s
    else match s.feeder e with
      | none => s
      | some (c, j) =>
        (s.updJob c j.id (fun x => { x with nextDesc := x.nextDesc + 1 })).setEngine e
          { g with queue := g.queue ++ [s.jobQDesc c j j.nextDesc] }) s

/-- The queued descriptors of a command discarded: its first failed descriptor ends it (R355). -/
def State.dropJob (s : State) (e : EngineId) (id : Nat) : State :=
  let g := s.engine e
  s.setEngine e { g with queue := g.queue.filter (fun q => match q.submitter with
    | .job k _ => k != id
    | .pinna _ _ _ _ => true) }

/-- What the end of a descriptor does to the command that issued it (R355, R358). -/
def State.jobDesc (s : State) (e : EngineId) (c id i code nel : Nat) (args : Nat × Nat) : State :=
  match findJob (s.ctx c).jobs id with
  | none => s
  | some j =>
    if code = 0x200A then (s.dropJob e id).endJob c id code (nel % 2 ^ 48 + i % 256 * 2 ^ 48)
    else if code ≠ 0 then (s.dropJob e id).endJob c id code (detailOf args.1 args.2)
    else match j.result with
      | some (code, d) => (s.dropJob e id).endJob c id code d
      | none => if i + 1 < j.descs.length then s.feed e else s.endJob c id 0 0

/-- Whether an engine is held by a halted partition or device (R310). -/
def State.engineHalted (s : State) (e : EngineId) : Bool :=
  match e with
  | .frond f _ => s.haltedPart (s.partOfQuarter (quarterOfFrond f))
  | .host _ _ => s.haltDev

/-- The end of the descriptor that an engine runs: its event on `pg` and the engine's fault register, unless `quiet`, and
its submitter. An engine that an alarm of its own reads has halted stopped with its descriptor (R310). -/
def State.endDesc (s : State) (e : EngineId) (q : QDesc) (pg : Page) (code nel : Nat) (args : Nat × Nat) (quiet : Bool) :
    State :=
  if s.engineHalted e then s
  else
  let g := s.engine e
  let s1 := s.setEngine e { g with running := none, lines := [], held := none }
  let s2 := if code = 0 then s1.dmaDone e
            else if quiet then s1
            else (s1.dmaFault e q code).raise pg code args.1 args.2
  match q.submitter with
  | .pinna n job _ pc => s2.pinnaDesc e n job pc code args
  | .job id i => s2.jobDesc e q.ctx id i code nel args

/-- The end with a code of R146. A descriptor that a Context reset ends raises no event (R144). -/
def State.failDesc (s : State) (e : EngineId) (q : QDesc) (code nel : Nat) : State :=
  s.endDesc e q e.page code nel (q.addr, q.ticket) (code == 0x200B && (s.ctx q.ctx).state != .teardown)

end Sys2Proof.Machine
end

