-- ==== Sys2Proof/Machine/Dma.lean ====
section
/-!
DEFINITION. The DMA engines: the start of a descriptor, its scale-line check, the movement and conversion of its
elements, statistics, sealed chunks, and its end (06_data_movement.md, R129 to R143; 08_training_numerics.md, R170 to
R175; 04_slice_arithmetic.md, R90 to R93; 14_tenancy.md, R365 to R368; 18_management_and_replay.md, R457, R459).
-/
namespace Sys2Proof.Machine

/-! Start (R131, R133). -/

/-- The source scale lines a descriptor needs, in the order of first use. -/
def Desc.linesNeeded (d : Desc) : List Nat :=
  if codeBlock d.fmtIn then
    ((List.range (ceilDiv d.count 32)).map (fun g => d.srcPos (32 * g) / 32 / 60)).eraseDups
  else []

/-- What the check of the scale lines found. -/
inductive LinesResult where
  | ok (lines : SMap (List Byte))
  | miss (expected found : Nat)
  | busError
  deriving DecidableEq, Repr

/-- The scale-line check of R133. -/
def State.checkLines (s : State) (a : Access) (d : Desc) : State × LinesResult :=
  d.linesNeeded.foldl (fun (r : State × LinesResult) l =>
    match r.2 with
    | .ok lines =>
      (match r.1.readSpace a d.srcSpace (d.srcLine0 + 64 * l) 64 with
       | (s1, none) => (s1, .busError)
       | (s1, some bs) =>
         if scaleLineOk bs d.tag (60 * l) then (s1, .ok (SMap.set [] lines l bs))
         else (s1, .miss (d.tag + 60 * l % 65536 * 65536) (leNat (slice bs 60 4))))
    | _ => r) (s, .ok [])

/-- Where a descriptor's source lies in a host window, its first byte. -/
def Desc.fromHost (d : Desc) : Bool := d.srcSpace == 4 || d.srcSpace == 5

/-- The kind byte of the header that an unseal finds; none is a bus error. -/
def State.chunkKind (s : State) (a : Access) (q : QDesc) (d : Desc) : Option Nat :=
  match q.sealArg with
  | some x =>
    if x.opening ∧ d.fromHost ∧ s.holds a d.srcSpace d.srcStart 64 then
      (s.readSpace a d.srcSpace d.srcStart 64).2.map (fun h => (h.getD 4 0#8).toNat)
    else some 0
  | none => some 0

/-- The statistics slot takes its owner when step 2 has passed (R142). -/
def State.ownSlot (s : State) (e : EngineId) (d : Desc) : State :=
  match e with
  | .frond f _ => if d.stat = 0 then s else s.setFld (.frd f) (statOff d.stat) 165 160 (d.ctx + 32)
  | .host _ _ => s

/-- What a descriptor takes of the estimator slot it names, once the slot has recorded its seed: the code and the strict
field, under which it converts whatever is written to the slot after (R171, R173, R176). -/
def State.estTake (s : State) (q : QDesc) (d : Desc) : Option (Nat × Bool) :=
  let p := q.ctx / 8
  if d.ssrc = 1 ∧ s.estSeeded p d.sarg q.seed then some (s.estFld p d.sarg 55 48, s.estFld p d.sarg 8 8 == 1) else none

/-- A descriptor at the head of its queue: checked, and running if it passes. -/
def State.startDesc (s : State) (e : EngineId) (q : QDesc) : State :=
  let d := Desc.ofBytes q.bytes
  let a := s.descAccess e q
  let g := s.engine e
  let s1 := (s.setEngine e { g with queue := g.queue.drop 1, running := some q, lines := [], held := none }).feed e
  match s1.chunkKind a q d with
  | none => s1.failDesc e q 0x200A 0
  | some kind =>
    let code := s1.descCheck e q d kind
    let s2 := if code = 0x2007 ∨ code = 0x2003 then s1 else s1.ownSlot e d
    if code ≠ 0 then s2.failDesc e q code 0
    else match s2.checkLines a d with
      | (s3, .busError) => s3.failDesc e q 0x200A 0
      | (s3, .miss x y) => s3.endDesc e q e.page 0x2009 0 (x, y) false
      | (s3, .ok lines) => s3.setEngine e { s3.engine e with lines := lines, held := s3.estTake q d }

def execDmaDescriptorStart (e : EngineId) (s : State) : Host.Outcome State Fault Refusal :=
  if !e.exists then .fault .noSuchUnit
  else if s.engineHalted e then notEnabled "the engine is halted"
  else if (s.engine e).running.isSome then notEnabled "the engine runs a descriptor"
  else match (s.engine e).queue with
    | [] => notEnabled "the queue of the engine is empty"
    | q :: _ => .next (s.startDesc e q)

/-! Reading the source. -/

/-- A reader of one space that keeps the lines it has read. -/
structure Reader where
  s : State
  cache : SMap (List Byte) := []
  deriving DecidableEq, Repr

/-- The line with a given number. -/
def Reader.line (r : Reader) (a : Access) (space l : Nat) : Reader × Option (List Byte) :=
  let bs := SMap.get [] r.cache l
  if bs.isEmpty then
    match r.s.readSpace a space (64 * l) 64 with
    | (s1, none) => ({ r with s := s1 }, none)
    | (s1, some bs) => ({ s := s1, cache := SMap.set [] r.cache l bs }, some bs)
  else (r, some bs)

/-- `w` bits from a bit address on. -/
def Reader.bits (r : Reader) (a : Access) (space at_ w : Nat) : Reader × Option Nat :=
  let b0 := at_ / 8
  let b1 := (at_ + w - 1) / 8
  let pick (bs : List Byte) (l0 : Nat) : Nat := leNat (bs.drop (b0 - 64 * l0)) >>> (at_ % 8) % 2 ^ w
  match r.line a space (b0 / 64) with
  | (r1, none) => (r1, none)
  | (r1, some x) =>
    if b1 / 64 = b0 / 64 then (r1, some (pick x (b0 / 64)))
    else match r1.line a space (b1 / 64) with
      | (r2, none) => (r2, none)
      | (r2, some y) => (r2, some (pick (x ++ y) (b0 / 64)))

/-- An element that has been read: its offset, code, and the scale code of its block. -/
structure Elem where
  o : Nat
  code : Nat
  scale : Nat
  deriving DecidableEq, Repr

/-- The first `want` elements in logical order, up to the first that cannot be read, at the latest `stop_`; the flag tells
of a bus error. -/
def State.readElems (s : State) (a : Access) (d : Desc) (lines : SMap (List Byte)) (stop_ : Option Nat) (want : Nat) :
    State × List Elem × Bool :=
  let w := codeWidth d.fmtIn
  let r := (List.range want).foldl (fun (x : Reader × List Elem × Bool) n =>
    if x.2.2 then x
    else if stop_ = some n then (x.1, x.2.1, true)
    else
      let k := d.srcPos n
      match x.1.bits a d.srcSpace (8 * d.src + k * w) w with
      | (r1, none) => (r1, x.2.1, true)
      | (r1, some c) =>
        let b := k / 32
        let sc := if codeBlock d.fmtIn then ((SMap.get [] lines (b / 60)).getD (b % 60) 0#8).toNat else 127
        (r1, { o := d.offset n, code := c, scale := sc } :: x.2.1, false)) ({ s := s }, [], false)
  (r.1.s, r.2.1.reverse, r.2.2)

/-- Elements in groups of `k`. -/
def groupsOf {α : Type} (k : Nat) : Nat → List α → List (List α)
  | 0, _ => []
  | fuel + 1, l => if l.isEmpty then [] else l.take k :: groupsOf k fuel (l.drop k)

/-- The bytes of the source elements in logical order. -/
def Desc.sourceBytes (d : Desc) (es : List Elem) : List Byte :=
  (groupsOf 32 (es.length + 1) es).flatMap (fun g =>
    leBytes (ceilDiv (g.length * codeWidth d.fmtIn) 8) (packElems (codeWidth d.fmtIn) (g.map (fun e => e.code))))

/-! Conversion. -/

/-- A destination byte with the first and the last element that have bits in it. -/
structure DByte where
  first : Nat
  last : Nat
  addr : Nat
  val : Byte
  deriving DecidableEq, Repr

/-- A converted group: its first element and count, its bytes, the scale it needs written (block number and code), its
elements' kinds, indices and sums, the events of its load, and the tally of the whole group. -/
structure Out32 where
  n0 : Nat
  cnt : Nat
  /-- elements of the whole group, of which `cnt` have been read -/
  need : Nat
  bytes : List DByte
  scale : Option (Nat × Nat)
  kinds : List Kind
  idx : List Nat
  wrote : List Wrote
  load : Tally
  full : Tally
  deriving DecidableEq, Repr

/-- floor(ε² × 2^32) of an element of exact value `x` written as `code` (R141). -/
def nseOf (f : Fmt) (x : Val) (code : Nat) (k : Kind) : Nat :=
  match k, x with
  | .flushed, .fin _ m e =>
    let u := e - f.minExp
    if u < 0 then m * m * 2 ^ 32 / 2 ^ (2 * u.natAbs) else m * m * 2 ^ (32 + 2 * u.toNat)
  | .inexact, .fin _ m e =>
    let g := f.grid ((log2 m : Int) + e)
    match decodeElem f code with
    | .fin _ mq eq =>
      let u := min e (min eq g)
      let dist := ((m * 2 ^ (e - u).toNat : Nat) : Int) - (mq * 2 ^ (eq - u).toNat : Nat)
      dist.natAbs * dist.natAbs * 2 ^ 32 / 2 ^ (2 * (g - u).toNat)
    | _ => 0
  | _, _ => 0

/-- The bytes of a packed group at a bit position: byte j of a group of `cnt` elements of `w` bits from byte address `at_`
on; padding belongs to the last element. -/
def packedBytes (n0 cnt w at_ nbytes : Nat) (codes : List Nat) : List DByte :=
  let v := packElems w codes
  (List.range nbytes).map (fun j =>
    { first := n0 + min (8 * j / w) (cnt - 1), last := n0 + min ((8 * j + 7) / w) (cnt - 1), addr := at_ + j,
      val := BitVec.ofNat 8 (v >>> (8 * j)) })

/-- How a descriptor converts: rounding, and the scale code if it is supplied. -/
structure Mode where
  rnd : Rnd
  code : Option Nat
  deriving DecidableEq, Repr

/-- A group of at most 32 consecutive elements converted or copied (R130, R38 to R44). A last dense block of fewer than 32
elements has its scale computed from the elements present, and its other places are written 0 and counted nowhere (DESIGN
CHOICE, log entry 109). -/
def Desc.convertGroup (d : Desc) (m : Mode) (n0 : Nat) (es : List Elem) : Out32 :=
  let cnt := es.length
  let need := min 32 (d.count - n0)
  let w := codeWidth d.fmtOut
  let at_ := 8 * d.dst + d.dstPos n0 * w
  let copy := d.fmtIn == d.fmtOut
  let blkIn := codeBlock d.fmtIn
  let load : Tally := if !copy && blkIn && es.any (fun e => e.scale == 0xFF) then
      ({} : Tally).event 0x1002 d.fmtOut ((es.find? (fun e => e.scale == 0xFF)).map (fun e => e.o) |>.getD 0) else {}
  let vals := es.map (fun e =>
    (if blkIn then decodeScaled (fmtOf d.fmtIn) e.scale e.code else decodeElem (fmtOf d.fmtIn) e.code, e.o))
  let idx := es.map (fun e => e.o)
  if codeBlock d.fmtOut then
    let f := fmtOf d.fmtOut
    let nbytes := 4 * w
    if copy then
      { n0 := n0, cnt := cnt, need := need, bytes := packedBytes n0 need w (at_ / 8) nbytes (es.map (fun e => e.code)),
        scale := some (d.dstPos n0 / 32, (es.head?.map (fun e => e.scale)).getD 0),
        kinds := [], idx := idx, wrote := [], load := {}, full := {} }
    else
      let b := match m.code with
        | some c => convertBlock f d.ovfInf m.rnd c vals
        | none => quantizeBlock f (if d.rule = 1 then .ocp else .fit) d.ovfInf m.rnd vals
      let nanBlk := b.scale == 0xFF
      let wrote := (vals.zip (b.elems.zip b.kinds)).map (fun x =>
        Wrote.one f x.2.1 x.2.2 nanBlk (nseOf f (x.1.1.scale (127 - (b.scale : Int))) x.2.1 x.2.2))
      { n0 := n0, cnt := cnt, need := need, bytes := packedBytes n0 need w (at_ / 8) nbytes b.elems,
        scale := some (d.dstPos n0 / 32, b.scale), kinds := b.kinds, idx := idx, wrote := wrote, load := load,
        full := b.tally }
  else
    -- plain elements, each at its own place
    let f := fmtOf d.fmtOut
    let cs : List (Nat × Kind) := if copy then es.map (fun e => (e.code, .exact))
              else vals.map (fun v => convert f d.ovfInf m.rnd v.2 v.1.res)
    let bytes := (cs.zipIdx.map (fun c =>
      let n := n0 + c.2
      packedBytes n 1 w ((8 * d.dst + d.dstPos n * w) / 8) (w / 8) [c.1.1])).flatten
    if copy then
      { n0 := n0, cnt := cnt, need := need, bytes := bytes, scale := none, kinds := [], idx := idx, wrote := [], load := {}, full := {} }
    else
      { n0 := n0, cnt := cnt, need := need, bytes := bytes, scale := none, kinds := cs.map Prod.snd, idx := idx,
        wrote := (vals.zip cs).map (fun x => Wrote.one f x.2.1 x.2.2 false (nseOf f x.1.1 x.2.1 x.2.2)),
        load := load,
        full := (cs.zip idx).foldl (fun t c => t.count c.1.2 d.fmtOut c.2) {} }

/-! Slicing (R90 to R93, R130). -/

/-- The record and slices of a line (R90): e, nonfinite, the slices of each plane in order, and how each element is
counted (R91): in a line with a NaN or an infinity every element as NaN, of which a NaN and an infinity raise their events
and a finite one raises none. `supplied` is a record read from memory; the finite elements of a line that only its record
makes zero are counted nowhere (DESIGN CHOICE, log entry 109). -/
def sliceLine (n : Nat) (xs : List Val) (supplied : Option (Int × Bool)) : Int × Bool × List (List Nat) × List Kind :=
  let zeros := List.replicate n (xs.map (fun _ => 0))
  if xs.any (fun x => x.nonFinite) then
    (0, true, zeros, xs.map (fun x => match x with
      | .nan => .nan false
      | .inf _ => .nan true
      | .fin _ _ _ => .nanKept))
  else
    let a := maxAbs xs
    let e : Int := match supplied with
      | some r => r.1
      | none => if a.1 = 0 then 0 else (log2 a.1 : Int) + a.2 + 1
    if (supplied.map Prod.snd).getD false then (e, true, zeros, xs.map (fun _ => .exact))
    else
      let ts := xs.map (fun x => match x with
        | .fin neg m xe =>
          let u := xe + 7 * n - e
          let t0 := if u < 0 then m / 2 ^ u.natAbs else m * 2 ^ u.toNat
          let exceeds := decide (2 ^ (7 * n) ≤ t0)
          let t := if exceeds then 2 ^ (7 * n) - 1 else t0
          let exact := decide (0 ≤ u) || m % 2 ^ u.natAbs == 0
          (neg, t, if exceeds then Kind.saturated
                   else if m != 0 && t == 0 then Kind.flushed
                   else if exact then Kind.exact else Kind.inexact)
        | _ => (false, 0, Kind.exact))
      let planes := (List.range n).map (fun i => ts.map (fun t =>
        let dg := t.2.1 / 2 ^ (7 * (n - 1 - i)) % 128
        if t.1 then (256 - dg) % 256 else dg))
      (e, false, planes, ts.map (fun t => t.2.2))

/-- A line of a slicing descriptor, elements `n0` to `n0 + cnt - 1`. -/
def Desc.sliceGroup (d : Desc) (n0 : Nat) (es : List Elem) (supplied : Option (Int × Bool)) : Out32 :=
  let n := d.planes
  let i1 := n0 / d.ext0
  let cnt := es.length
  let xs := es.map (fun e => decodeElem (fmtOf d.fmtIn) e.code)
  let r := sliceLine n xs supplied
  let idx := es.map (fun e => e.o)
  let planes := if d.expSource = 2 then [] else
    (r.2.2.1.zipIdx.map (fun p => p.1.zipIdx.map (fun c =>
      ({ first := n0 + c.2, last := n0 + c.2, addr := d.dst + 32 * d.stream * p.2 + d.densePos (n0 + c.2),
         val := BitVec.ofNat 8 c.1 } : DByte)))).flatten
  let word := ofSigned 16 r.1 + (if r.2.1 then 65536 else 0)
  let record := if d.expSource = 1 then [] else
    (leBytes 4 word).zipIdx.map (fun b =>
      ({ first := n0, last := n0 + cnt - 1, addr := 64 * d.sline + 4 * i1 + b.2, val := b.1 } : DByte))
  let counted := d.expSource != 2
  let zeroAt (k : Nat) : Bool := r.2.2.1.all (fun p => nth 0 p k == 0)
  -- a line that itself holds a NaN or an infinity
  let bad := xs.any (fun x => x.nonFinite)
  { n0 := n0, cnt := cnt, need := cnt, bytes := planes ++ record, scale := none,
    kinds := if counted then r.2.2.2 else [], idx := idx,
    wrote := if counted then r.2.2.2.zipIdx.map (fun k =>
        { elem := 1, zero := if !bad && zeroAt k.2 then 1 else 0, sat := if k.1 == .saturated then 1 else 0,
          flush := if k.1 == .flushed then 1 else 0, nonfin := if bad then 1 else 0 }) else [],
    load := {},
    full := if counted then (r.2.2.2.zip idx).foldl (fun t k => t.count k.1 0xC k.2) {} else {} }

/-- The records that a descriptor with supplied exponents reads, one for each line, up to a bus error (R130). -/
def State.readRecords (s : State) (a : Access) (d : Desc) (k : Nat) : State × List (Int × Bool) :=
  let r := (List.range k).foldl (fun (x : Reader × List (Int × Bool) × Bool) i =>
    if x.2.2 then x
    else match x.1.bits a d.dstSpace (8 * (64 * d.sline + 4 * i)) 32 with
      | (r1, none) => (r1, x.2.1, true)
      | (r1, some v) => (r1, (signed 16 v, bit v 16) :: x.2.1, false)) ({ s := s }, [], false)
  (r.1.s, r.2.1.reverse)

/-! Writing the destination. -/

/-- Elements of a group below element `k`. -/
def Out32.below (g : Out32) (k : Nat) : Nat := min (k - g.n0) g.cnt

/-- What the elements below `k` count (R54 to R57). -/
def Out32.tally (g : Out32) (fmt k : Nat) : Tally :=
  if g.below k = 0 then {}
  else if g.below k = g.cnt then g.load.join g.full
  else g.load.join (((g.kinds.zip g.idx).take (g.below k)).foldl (fun t c => t.count c.1 fmt c.2) {})

/-- The elements that are converted together: a line when slicing, else a block of 32. -/
def Desc.unit (d : Desc) : Nat := if d.slices then d.ext0 else 32

/-- Whether a unit is written in full or not at all after a bus error: its scale is computed from its data, or it is a
sliced line (R135). -/
def Desc.whole (d : Desc) : Bool := d.slices || (codeBlock d.fmtOut && d.fmtIn != d.fmtOut && d.ssrc == 0)

/-- The count of elements written when element `k` fails (R135): no byte holds a bit of it or of a later one. -/
def Desc.cut (d : Desc) (k : Nat) : Nat :=
  let w := codeWidth d.fmtOut
  if d.count ≤ k then d.count
  else if d.whole then k / d.unit * d.unit
  else if codeBlock d.fmtOut then k / 32 * 32 + (k % 32 * w / 8) * 8 / w
  else k

/-- The count of elements written when a teardown ends the descriptor at boundary `m` (R136). -/
def Desc.boundary (d : Desc) (m : Nat) : Nat :=
  let w := codeWidth d.fmtOut
  let k := if d.slices ∧ d.expSource = 2 then ceilDiv (4096 * m) 4 * d.ext0
           else if d.slices then ceilDiv (4096 * m) d.planes
           else alignUp (ceilDiv (8 * 4096 * m) w) (if w = 6 then 4 else if w = 4 then 2 else 1)
  min k d.count

/-- Bytes gathered by line, in the order in which the lines are first met. -/
def byLine (bs : List DByte) : List (Nat × List DByte) :=
  (bs.map (fun b => b.addr / 64)).eraseDups.map (fun l => (l, bs.filter (fun b => b.addr / 64 == l)))

def lineBytes (bs : List DByte) : List (Nat × Byte) := bs.map (fun b => (b.addr % 64, b.val))

/-- Lines written one after the other up to the first bus error, which names its line. -/
def State.writeLines (s : State) (a : Access) (space : Nat) (ls : List (Nat × List DByte)) :
    State × Option (Nat × List DByte) :=
  ls.foldl (fun (r : State × Option (Nat × List DByte)) l =>
    match r.2 with
    | some _ => r
    | none => match r.1.writeEnabled a space l.1 (lineBytes l.2) with
      | (s1, true) => (s1, none)
      | (s1, false) => (s1, some l)) (s, none)

/-- The destination bytes of the elements below `k` written. When a write gives a bus error, the elements from the first
in its line on are not written (R135): the count of elements written, and whether a write failed. -/
def State.writeElems (s : State) (a : Access) (d : Desc) (gs : List Out32) (k : Nat) :
    State × Nat × Bool :=
  let all := gs.flatMap (fun g => g.bytes)
  let upTo (k : Nat) : List DByte := all.filter (fun b => decide (b.last < k))
  match s.writeLines a d.dstSpace (byLine (upTo k)) with
  | (s1, none) => (s1, k, false)
  | (_, some l) =>
    let k1 := d.cut (l.2.foldl (fun m b => min m b.first) k)
    let r := (s.writeLines a d.dstSpace (byLine (upTo k1))).1
    -- the write that failed leaves its events
    ((r.writeEnabled a d.dstSpace l.1 (lineBytes l.2)).1, k1, true)

/-- The scale lines of the blocks that are complete among the elements below `k` (R129, R135), of either side: after a bus
error or an abort those of the memory side too (DESIGN CHOICE, log entry 109). False is a bus error. -/
def State.writeScales (s : State) (a : Access) (d : Desc) (gs : List Out32) (k : Nat) : State × Bool :=
  let done := (gs.filter (fun g => decide (g.n0 + g.need ≤ k))).filterMap (fun g => g.scale)
  let lines := (done.map (fun b => b.1 / 60)).eraseDups
  lines.foldl (fun (r : State × Bool) l =>
    if !r.2 then r
    else
      let mine := (done.filter (fun b => b.1 / 60 == l)).map (fun b => (b.1 % 60, BitVec.ofNat 8 b.2))
      let rest := if d.sside then [] else ((List.range 60).filter (fun i => !mine.any (fun b => b.1 == i))).map (fun i => (i, 0#8))
      let tail := (leBytes 2 d.tag ++ leBytes 2 (60 * l % 65536)).zipIdx.map (fun b => (60 + b.2, b.1))
      r.1.writeEnabled a d.dstSpace (d.dstLine0 / 64 + l) (mine ++ rest ++ tail)) (s, true)

/-- Elements counted in a statistics slot of a frond, each with its entry of the channel table (R141, R143). -/
def State.statAdd (s : State) (f slot : Nat) (es : List (Nat × Wrote)) : State :=
  let pg := Page.frd f
  let o := statOff slot
  let t := es.foldl (fun t w => t.add w.2) ({} : Wrote)
  let cap (s : State) (hi lo n : Nat) : State :=
    s.setFld pg o hi lo (min (s.fld pg o hi lo + n) (2 ^ (hi + 1 - lo) - 1))
  let s1 := cap (cap (cap (cap (cap (cap s 31 0 t.elem) 63 32 t.zero) 95 64 t.sat) 127 96 t.nonfin) 159 128 t.flush)
    255 192 t.nse
  if s.fld pg Reg.FRD_STAT_CHAN 5 0 ≠ slot then s1
  else
    let base := s.fld pg Reg.FRD_STAT_CHAN 22 10 * 1024
    es.foldl (fun s w =>
      let a := base + 16 * w.1
      if frondMemSize < a + 16 then s
      else
        let fr := s.frond f
        let put (m : Mem) (a n add : Nat) : Mem := Mem.writeLe m a n (min (Mem.readLe m a n + add) (256 ^ n - 1))
        s.setFrond f { fr with mem := put (put (put fr.mem a 8 w.2.nse) (a + 8) 4 w.2.elem) (a + 12) 4 w.2.sat }) s1

/-- The statistics of a descriptor's elements below `k`. -/
def State.addStats (s : State) (e : EngineId) (d : Desc) (gs : List Out32) (k : Nat) : State :=
  match e with
  | .host _ _ => s
  | .frond f _ =>
    if d.stat = 0 then s
    else s.statAdd f d.stat
      (gs.flatMap (fun g => (g.wrote.take (g.below k)).zipIdx.map (fun w => (d.coord1 (g.n0 + w.2), w.1))))

/-! The end of the movement. -/

/-- The INPUT record of a completed descriptor with a source in a host window, and its comparison in replay (R457,
R459). -/
def State.inputRecord (s : State) (q : QDesc) (d : Desc) (bytes : List Byte) : State :=
  let c := q.ctx
  if !d.fromHost then s
  else
    let body := leBytes 8 q.addr ++ leBytes 8 bytes.length ++ sha384 bytes
    if s.capMode c = 2 then
      let diverges (s : State) : State :=
        let id := match q.submitter with
          | .pinna _ job _ _ => job
          | .job id _ => id
        let s1 := (s.bump (.ctx c) 0x118).raise (.ctx c) 0xE102 (q.addr / 64) 2
        s1.updJob c id (fun j => { j with result := some (0xE102, detailOf (q.addr / 64) 2) })
      match s.capNext c 6 (fun b => leNat (slice b 16 8) == q.addr) with
      | none => diverges s
      | some r => if slice r.bytes 32 48 = sha384 bytes then s.capUse c r else diverges (s.capUse c r)
    else s.capRecord c 6 body

/-- The command on whose behalf a descriptor runs. -/
def QDesc.jobId (q : QDesc) : Nat :=
  match q.submitter with
  | .pinna _ job _ _ => job
  | .job id _ => id

/-- The converted groups of the elements read, under a supplied scale code if there is one. -/
def Desc.groups (d : Desc) (q : QDesc) (es : List Elem) (recs : List (Int × Bool)) (code : Option Nat) : List Out32 :=
  let rnd : Rnd := if d.rnd = 1 then .stoch q.seed (BitVec.ofNat 32 (d.tag * 65536 + d.stream)) q.proth else .rne
  let gs := (groupsOf d.unit (es.length + 1) es).zipIdx
  if d.slices then
    (gs.filter (fun g => g.1.length == d.ext0)).filterMap (fun g =>
      if d.expSource = 1 then (recs[g.2]?).map (fun x => d.sliceGroup (d.ext0 * g.2) g.1 (some x))
      else some (d.sliceGroup (d.ext0 * g.2) g.1 none))
  else gs.map (fun g => d.convertGroup { rnd := rnd, code := code } (32 * g.2) g.1)

/-- Elements that a list of groups saturates. -/
def saturatedIn (gs : List Out32) : Nat := gs.foldl (fun t g => t + g.full.saturated) 0

/-- The scale code under which a descriptor converts: what it holds of its estimator slot, or its constant. A constant
0xFF converts each element times 2^-128 and is written as the scale (DESIGN CHOICE, log entry 109). -/
def State.convertCode (s : State) (e : EngineId) (d : Desc) : Option Nat :=
  if d.ssrc = 1 then some (((s.engine e).held.map Prod.fst).getD 0) else if d.ssrc = 2 then some d.sarg else none

/-- One run of the element phase: the state after its reads and writes, the elements read, their groups, the count of
elements written, and whether no bus error was met. -/
structure Pass where
  s : State
  es : List Elem
  gs : List Out32
  k : Nat
  ok : Bool
  deriving DecidableEq, Repr

/-- The element phase: elements read up to `fail` and converted under a code, then written with their scale lines, up to
the boundary of a teardown if there is one (R135, R136). -/
def State.runPass (s : State) (e : EngineId) (q : QDesc) (d : Desc) (fail bound code : Option Nat) : Pass :=
  let a := s.descAccess e q
  let want := match bound with
    | some k => min d.count (alignUp k d.unit)
    | none => d.count
  let r := s.readElems a d (s.engine e).lines fail want
  let recs := if d.slices ∧ d.expSource = 1 then r.1.readRecords a d (r.2.1.length / d.ext0) else (r.1, [])
  let gs := d.groups q r.2.1 recs.2 code
  let have_ := gs.foldl (fun t g => t + g.cnt) 0
  let short := r.2.2 || decide (have_ < want)
  let wr := recs.1.writeElems a d gs (min (bound.getD d.count) (if short then d.cut have_ else have_))
  let sc := if codeBlock d.fmtOut then wr.1.writeScales a d gs wr.2.1 else (wr.1, true)
  { s := sc.1, es := r.2.1, gs := gs, k := wr.2.1, ok := !(short || wr.2.2 || !sc.2) }

/-- The element phase with the strict retry of R175: a first run that saturates an element is run once more, reads and
writes alike, under the code plus 1. -/
def State.runStrict (s : State) (e : EngineId) (q : QDesc) (d : Desc) (fail bound : Option Nat) : Pass :=
  let code := s.convertCode e d
  let p := s.runPass e q d fail bound code
  let sat := saturatedIn p.gs
  if !(d.ssrc == 1 && (((s.engine e).held.map Prod.snd).getD false) && p.ok && bound.isNone && decide (0 < sat)) then p
  else if 0xFE ≤ code.getD 0 then { p with s := p.s.raise e.page 0x1105 d.sarg sat }
  else
    let r := ((p.s.estRetry (q.ctx / 8) d.sarg).raise e.page 0x1104 d.sarg sat).runPass e q d none none (code.map (· + 1))
    let sat2 := saturatedIn r.gs
    if sat2 = 0 then r else { r with s := r.s.raise e.page 0x1105 d.sarg sat2 }

/-- What the elements below `k` count: the command's counts and events, the ledger, the statistics slot, and the
estimator's observation (R54 to R57, R141, R172, R184). A descriptor that a Context reset ends counts nowhere, and one that
a teardown ends only raises its events: the context's slots and ledger have been reset (R144, R190). -/
def State.accountDesc (s : State) (e : EngineId) (q : QDesc) (d : Desc) (es : List Elem) (gs : List Out32) (k : Nat) :
    State :=
  let t := gs.foldl (fun t g => t.join (g.tally d.fmtOut k)) ({} : Tally)
  let wrote := gs.foldl (fun t g => (g.wrote.take (g.below k)).foldl Wrote.add t) ({} : Wrote)
  if (s.ctx q.ctx).resetting then s
  else
  let s0 := s.jobTally q.ctx q.jobId e.page e.blk t
  if (s.ctx q.ctx).state = .teardown then s0
  else
  let s1 := s0.ledgerAdd q.ctx d.fmtOut wrote
  let s2 := s1.addStats e d gs k
  if d.ssrc = 1 then
    s2.estObserve (q.ctx / 8) d.sarg (maxAbs ((es.take k).map (fun x =>
      if codeBlock d.fmtIn then decodeScaled (fmtOf d.fmtIn) x.scale x.code
      else decodeElem (fmtOf d.fmtIn) x.code))) t.saturated
  else s2

/-- The elements of a running descriptor moved, and the descriptor ended: `fail` is the element at which the environment
reports a bus error, `abort` the count of 4,096 B boundaries after which a teardown ends it (R135, R136). A teardown whose
boundary lies past the last byte leaves the whole descriptor written and still ends it with 0x200B (DESIGN CHOICE, log
entry 109). -/
def State.moveDesc (s : State) (e : EngineId) (q : QDesc) (fail abort : Option Nat) : State :=
  let d := Desc.ofBytes q.bytes
  let lines := (s.engine e).lines
  let p := s.runStrict e q d fail (abort.map d.boundary)
  let code : Nat := if !p.ok then 0x200A else if abort.isSome then 0x200B else 0
  let s1 := if d.fmtIn = d.fmtOut then p.s else p.s.accountDesc e q d p.es p.gs p.k
  let s2 := if code = 0 then
      s1.inputRecord q d ((d.linesNeeded.flatMap (fun l => SMap.get [] lines l)) ++ d.sourceBytes p.es) else s1
  s2.failDesc e q code p.k

/-! Sealed chunks (R367, R368). -/

/-- The base key and binding of a seal argument, if the key is held. -/
def State.sealBase (s : State) (c : Nat) (a : SealArg) : Option (List Byte × List Byte) :=
  let x := s.ctx c
  if a.key = 8 then
    (match x.policy, x.policyKey, x.grant with
     | some p, some k, _ => some (k, p.digest)
     | none, _, some (digest, k) => if a.opening then some (k, digest) else none
     | _, _, _ => none)
  else match x.owners[a.key]? with
    | some o => o.key.map (fun k => (k, o.digest))
    | none => none

/-- The chunk key (R367). -/
def chunkKey (base binding salt : List Byte) : List Byte :=
  hkdfExpand (hkdfExtract salt base) (ascii "karfort chunk" ++ binding) 32

/-- A chunk header (R367). -/
def chunkHeader (kind : Nat) (a : SealArg) (len : Nat) (salt : List Byte) : List Byte :=
  ascii "KFSL" ++ leBytes 1 kind ++ leBytes 1 a.key ++ leBytes 2 0 ++ leBytes 8 a.obj ++ leBytes 4 a.chunk
    ++ leBytes 4 a.count ++ leBytes 4 len ++ leBytes 4 0 ++ salt

def zeroIv : List Byte := List.replicate 12 0#8

/-- The chunk that seals a plaintext: chunk 0 is the kind-3 index, every other a checkpoint chunk (R369, log entry 19). -/
def sealChunk (key : List Byte) (a : SealArg) (salt plain : List Byte) : List Byte :=
  let kind := if a.chunk = 0 then 3 else 2
  let h := chunkHeader kind a plain.length salt
  if kind = 3 then h ++ plain ++ (gcmEncrypt key zeroIv (h ++ plain) []).2
  else
    let r := gcmEncrypt key zeroIv h plain
    h ++ r.1 ++ r.2

/-- Whether a header agrees with the command (R368). -/
def headerOk (h : List Byte) (a : SealArg) (len : Nat) : Bool :=
  let kind := (h.getD 4 0#8).toNat
  h.take 4 == ascii "KFSL" && decide (1 ≤ kind) && decide (kind ≤ 3) && (h.getD 5 0#8).toNat == a.key
    && leNat (slice h 8 8) == a.obj && leNat (slice h 16 4) == a.chunk && leNat (slice h 20 4) == a.count
    && leNat (slice h 24 4) == len && decide (1 ≤ len)

/-- The plaintext of a chunk, if its tag holds. -/
def openChunk (key h body tag : List Byte) : Option (List Byte) :=
  if (h.getD 4 0#8).toNat = 3 then (gcmDecrypt key zeroIv (h ++ body) [] tag).map (fun _ => body)
  else gcmDecrypt key zeroIv h body tag

/-- The end of a sealing or unsealing descriptor with 0xA009, raised on the page of the context (R373). -/
def State.failUnseal (s : State) (e : EngineId) (q : QDesc) (a : SealArg) (reason : Nat) : State :=
  s.endDesc e q (.ctx q.ctx) 0xA009 0 (a.chunk, reason) false

/-- A sealing or unsealing descriptor moved and ended. -/
def State.moveSealed (s : State) (e : EngineId) (q : QDesc) (x : SealArg) : State :=
  let d := Desc.ofBytes q.bytes
  let a := s.descAccess e q
  let n := d.bytes
  match s.sealBase q.ctx x with
  | none => s.failUnseal e q x 3
  | some (base, binding) =>
    if x.opening then
      match s.readSpace a d.srcSpace d.srcStart (n + 80) with
      | (s1, none) => s1.failDesc e q 0x200A 0
      | (s1, some bs) =>
        let h := bs.take 64
        if !headerOk h x n then s1.failUnseal e q x 1
        else
          let key := chunkKey base binding (slice h 32 32)
          match openChunk key h (slice bs 64 n) (slice bs (64 + n) 16) with
          | none =>
            -- what was written while it decrypted is overwritten with zeros
            (s1.writeSpace a d.dstSpace d.dstStart (List.replicate n 0#8)).1.failUnseal e q x 2
          | some plain =>
            match s1.writeSpace a d.dstSpace d.dstStart plain with
            | (s2, false) => s2.failDesc e q 0x200A 0
            | (s2, true) => (s2.inputRecord q d bs).failDesc e q 0 d.count
    else
      match s.readSpace a d.srcSpace d.srcStart n with
      | (s1, none) => s1.failDesc e q 0x200A 0
      | (s1, some plain) =>
        let r := s1.draw 32
        match r.1.writeSpace a d.dstSpace d.dstStart (sealChunk (chunkKey base binding r.2) x r.2 plain) with
        | (s2, false) => s2.failDesc e q 0x200A 0
        | (s2, true) => s2.failDesc e q 0 d.count

/-! The events of an engine. -/

/-- Whether the conversion of the descriptor that an engine runs may go on: it holds the code of the slot it names
(R173). -/
def State.descReady (s : State) (e : EngineId) (q : QDesc) : Bool :=
  (Desc.ofBytes q.bytes).ssrc != 1 || (s.engine e).held.isSome

/-- An event of the descriptor that an engine runs. -/
def onRunning (s : State) (e : EngineId) (eff : QDesc → Host.Outcome State Fault Refusal) : Host.Outcome State Fault Refusal :=
  if !e.exists then .fault .noSuchUnit
  else if s.engineHalted e then notEnabled "the engine is halted"
  else match (s.engine e).running with
    | none => notEnabled "the engine runs no descriptor"
    | some q => eff q

/-- Whether a context's work is being stopped (R361, R362). -/
def State.ctxEnding (s : State) (c : Nat) : Bool := (s.ctx c).state == .teardown || (s.ctx c).resetting

def execDmaDescriptorComplete (e : EngineId) (s : State) : Host.Outcome State Fault Refusal :=
  onRunning s e (fun q =>
    if s.ctxEnding q.ctx then notEnabled "the context of the descriptor is being reset or torn down"
    else if !s.descReady e q then notEnabled "the scale estimator has not folded for this step"
    else match q.sealArg with
      | some x =>
        if !x.opening ∧ !s.thl.trngOk then notEnabled "the DRBG serves no salt" else .next (s.moveSealed e q x)
      | none => .next (s.moveDesc e q none none))

/-- A bus error at element `k` of the running descriptor that no line of the model's own memory gives: a host completion
with an error, or a die network's. -/
def execDmaBusError (e : EngineId) (k : Nat) (s : State) : Host.Outcome State Fault Refusal :=
  onRunning s e (fun q =>
    if (Desc.ofBytes q.bytes).count ≤ k then .fault .noSuchUnit
    else if !s.descReady e q then notEnabled "the scale estimator has not folded for this step"
    else if q.sealArg.isSome then .next (s.failDesc e q 0x200A 0)
    else .next (s.moveDesc e q (some k) none))

/-- The running descriptor of a context that is torn down or reset ends at its boundary `m` (R136, R144, R362); one that
still waits for its estimator slot has written nothing. -/
def execDmaTeardownAbort (e : EngineId) (m : Nat) (s : State) : Host.Outcome State Fault Refusal :=
  onRunning s e (fun q =>
    if !s.ctxEnding q.ctx then notEnabled "the context of the descriptor is not being reset or torn down"
    else if q.sealArg.isSome ∨ !s.descReady e q then .next (s.failDesc e q 0x200B 0)
    else .next (s.moveDesc e q none (some m)))

/-- A host completion with an error, or a completion timeout, for the running descriptor of an engine (R378): kinds 1 to
4 of 0xD009, and the bus error at element `k`. -/
def execHostDmaErrorCompletion (x : Nat) (e : EngineId) (kind k : Nat) (s : State) : Host.Outcome State Fault Refusal :=
  if ¬ (x < 2 ∧ 1 ≤ kind ∧ kind ≤ 4) then .fault .noSuchUnit
  else onRunning s e (fun q =>
    let d := Desc.ofBytes q.bytes
    if d.srcSpace ≠ 4 + x ∧ d.dstSpace ≠ 4 + x then notEnabled "the descriptor uses no window of this port"
    else if d.count ≤ k then .fault .noSuchUnit
    else if !s.descReady e q then notEnabled "the scale estimator has not folded for this step"
    else
      let s1 := s.raise (.hif x) 0xD009 q.ctx kind
      if q.sealArg.isSome then .next (s1.failDesc e q 0x200A 0) else .next (s1.moveDesc e q (some k) none))

/-- A write of a slot's elem counter; 0 frees the slot (R142, R145). -/
def State.statElemWrite (s : State) (f slot value : Nat) : State :=
  let s1 := s.setFld (.frd f) (statOff slot) 31 0 value
  if value % 2 ^ 32 = 0 then s1.setFld (.frd f) (statOff slot) 165 160 0 else s1

def execStatSlotFree (r : Requester) (f slot value : Nat) (s : State) : Host.Outcome State Fault Refusal :=
  if ¬ (1 ≤ slot ∧ slot ≤ 63) then .fault .noSuchUnit
  else regWrite s r (.frd f) (statOff slot) true (fun s => s.statElemWrite f slot value)

/-! The DMA command (R355, R365). -/

/-- Whether the release window of a joint context is in force (R365). -/
def State.inRelease (s : State) (c : Nat) : Bool :=
  let x := s.ctx c
  match x.policy with
  | some p => p.period != 0 && decide ((s.tmb.ns - x.t0) % p.period < p.window)
  | none => false

/-- Whether a joint context may export through a descriptor (R365). -/
def State.exportOk (s : State) (c : Nat) (mode key : Nat) (d : Desc) : Bool :=
  if d.dstSpace ≠ 4 ∧ d.dstSpace ≠ 5 then true
  else mode == 1 && (key == 8 || (decide (key < (s.ctx c).owners.length) && s.inRelease c
    && s.runSealed (c / 8) d.srcSpace d.srcStart d.bytes false))

/-- A DMA command reads its descriptors and hands the first to its engine. -/
def State.dmaCommand (s : State) (c : Nat) (j : Job) : State :=
  let w2 := qword j.entry 2
  let w3 := qword j.entry 3
  let e := entryEngineId j.entry
  let n := bits w3 7 0 + 1
  match s.readSpace { ctx := c, frond := e.frond? } (bits w2 46 44) (bits w2 43 0) (64 * n) with
  | (s1, none) => s1.endJob c j.id 0x200A 0
  | (s1, some bs) =>
    let ds := groupsOf 64 (n + 1) bs
    if (s1.ctx c).joint ∧ !ds.all (fun d => s1.exportOk c (bits w3 9 8) (bits w3 13 10) (Desc.ofBytes d)) then
      s1.endJobEvent c j.id 0xA008 j.index (bits w3 13 10)
    else
      let j1 := { j with begun := true, descs := ds, descAddr := bits w2 43 0 }
      (s1.updJob c j.id (fun _ => j1)).feed e

def execDma (job : Nat) (s : State) : Host.Outcome State Fault Refusal :=
  onJob s job 2 (fun _ j => !j.begun && decide ((s.engine (entryEngineId j.entry)).queue.length < 32))
    (fun c j => s.dmaCommand c j)

end Sys2Proof.Machine
end

