-- ==== Sys2Proof/Machine/Coding.lean ====
section
/-!
DEFINITION. The line code of a link: RS(544,514) over GF(2^10), superblocks and their control word
(11_lumur_fabric.md, R255 to R257).
-/
namespace Sys2Proof.Machine

/-! The field and the code (R255). The spec names IEEE 802.3 clause 91; its field polynomial, x^10 + x^3 + 1, its generator,
the product of x + α^j for j in [0, 29], and its order, symbol 0 being the highest coefficient, are PRESUMED (log entry
114). -/

/-- A product in GF(2^10). -/
def rsMul (a b : Nat) : Nat :=
  (List.range 10).foldl (fun r i =>
    let m := if 512 ≤ r then (2 * r) ^^^ 1033 else 2 * r
    if bit b (9 - i) then m ^^^ a else m) 0

/-- A power of α = x. -/
def rsPow : Nat → Nat
  | 0 => 1
  | n + 1 => rsMul (rsPow n) 2

/-- The coefficients of the generator polynomial, highest first. -/
def rsGenerator : List Nat :=
  (List.range 30).foldl (fun p j =>
    List.zipWith (· ^^^ ·) (p ++ [0]) (0 :: p.map (rsMul (rsPow j)))) [1]

/-- The 30 parity symbols of a message: the remainder of its division by the generator. -/
def rsParity (msg : List Nat) : List Nat :=
  let g := rsGenerator.tail
  msg.foldl (fun reg m =>
    let f := m ^^^ reg.headD 0
    List.zipWith (fun r c => r ^^^ rsMul f c) (reg.tail ++ [0]) g) (List.replicate 30 0)

/-- The 544 symbols of a codeword whose 514 payload symbols hold a number. -/
def lineWord (payload : Nat) : List Nat :=
  let msg := (List.range 514).map (fun j => bits payload (10 * j + 9) (10 * j))
  msg ++ rsParity msg

/-- Symbols of a codeword that the decoder corrects at most (R257). -/
def rsCorrects : Nat := 15

/-! Superblocks (R255, R256). -/

/-- The two codewords of a superblock with a control word and 1,280 bytes of flits. -/
def lineWords (ctl : Nat) (flits : List Byte) : List Nat × List Nat :=
  (lineWord (bits ctl 19 0 + leNat (flits.take 640) * 2 ^ 20),
   lineWord (bits ctl 39 20 + leNat (flits.drop 640) * 2 ^ 20))

/-- Flit `i` of a superblock lies in codeword 0, in codeword 1, or half in each. -/
def flitIn (i : Nat) (second : Bool) : Bool := if second then decide (2 ≤ i) else decide (i ≤ 2)

/-- A control word: start, idle, ack, nak, cvc and ccnt (R256). -/
def controlWord (start idle ack : Nat) (nak : Bool) (cvc ccnt : Nat) : Nat :=
  start % 32 + idle % 32 * 2 ^ 5 + ack % 65536 * 2 ^ 10 + (if nak then 2 ^ 26 else 0) + cvc % 32 * 2 ^ 27
    + ccnt % 256 * 2 ^ 32

/-- The superblocks that carry a frame's bytes: its first flit is flit 0 of the first, and flits behind its last are idle
(log entry 29). Each is given as its start and idle fields and its flits. -/
def frameBlocks : Nat → Bool → List Byte → List (Nat × Nat × List Byte)
  | 0, _, _ => []
  | fuel + 1, first, bs =>
    if bs = [] then []
    else
      let n := min 5 (ceilDiv bs.length 256)
      let here := bs.take 1280
      (if first then 1 else 0, 31 - (2 ^ n - 1), here ++ List.replicate (1280 - here.length) 0#8)
        :: frameBlocks fuel false (bs.drop 1280)

end Sys2Proof.Machine
end

