-- ==== Sys2Proof/Machine/Cse.lean ====
section
/-!
DEFINITION. The context-state engine: CSE commands, their requests, stack parts and merges, and the division of the
staging SRAM (07_memory_and_rhizoids.md, R155 to R168).
-/
namespace Sys2Proof.Machine

/-! Requests (R158). -/

/-- A request block with its fields under the names of R158. -/
structure CseReq where
  raw : Nat
  qAddr : Nat
  qSpace : Nat
  tagK : Nat
  dst : Nat
  dstSpace : Nat
  tagV : Nat
  koff : Nat
  voff : Nat
  ksl : Nat
  vsl : Nat
  npos : Nat
  seg : Nat
  qpos : Nat
  sc : Nat
  onStacks : Nat
  fmt : Nat
  d : Nat
  g : Nat
  causal : Bool
  qstep : Bool
  ofmt : Bool
  lse : Bool
  merge : Bool
  flagEn : Bool
  flag : Nat
  deriving DecidableEq, Repr

def CseReq.ofBytes (bs : List Byte) : CseReq :=
  let n := leNat bs
  let q (i hi lo : Nat) : Nat := bits n (64 * i + hi) (64 * i + lo)
  { raw := n, qAddr := q 0 43 0, qSpace := q 0 46 44, tagK := q 0 63 48, dst := q 1 43 0, dstSpace := q 1 46 44,
    tagV := q 1 63 48, koff := q 2 36 0, voff := q 3 36 0, ksl := q 4 30 0, vsl := q 4 61 31, npos := q 5 31 0,
    seg := q 5 63 32, qpos := q 6 31 0, sc := q 6 63 32, onStacks := q 7 11 0, fmt := q 7 15 12,
    d := 32 * (q 7 18 16 + 1), g := q 7 23 19 + 1, causal := bit n 472, qstep := bit n 473, ofmt := bit n 474,
    lse := bit n 475, merge := bit n 476, flagEn := bit n 477, flag := q 7 35 30 }

/-- The reserved bits of a request block are 0. -/
def CseReq.reservedOk (r : CseReq) : Bool :=
  let q (i hi lo : Nat) : Bool := bits r.raw (64 * i + hi) (64 * i + lo) == 0
  q 0 47 47 && q 1 47 47 && q 2 63 37 && q 3 63 37 && q 4 63 62 && q 7 63 36

def CseReq.mx (r : CseReq) : Bool := r.fmt != 1
/-- The stacks named, in increasing number. -/
def CseReq.stackList (r : CseReq) : List Nat := (List.range 12).filter (fun k => bit r.onStacks k)
/-- The rank of a stack among those named. -/
def CseReq.rank (r : CseReq) (k : Nat) : Nat := (r.stackList.filter (fun j => decide (j < k))).length
/-- Bytes of a K or V row, blocks of a segment, and the bytes of its data and of its scale lines (R159). -/
def CseReq.rowBytes (r : CseReq) : Nat := r.d * codeWidth r.fmt / 8
def CseReq.dataBytes (r : CseReq) : Nat := r.seg * r.rowBytes
def CseReq.scaleBytes (r : CseReq) : Nat := if r.mx then 64 * ceilDiv (r.seg * r.d / 32) 60 else 0
/-- Footprints in a stack, as first byte and length. -/
def CseReq.foots (r : CseReq) : List (Nat × Nat) :=
  [(r.koff, r.dataBytes), (r.voff, r.dataBytes)]
    ++ (if r.mx then [(64 * r.ksl, r.scaleBytes), (64 * r.vsl, r.scaleBytes)] else [])
/-- Bytes of the results (R162, R163). -/
def CseReq.outBytes (r : CseReq) : Nat :=
  if r.merge then r.g * r.d * (if r.ofmt then 2 else 4) + (if r.lse then 4 * r.g else 0)
  else r.stackList.length * r.g * (64 + 4 * r.d)

/-- Step 1 of R160; npos and seg of 0 are refused there too (R158). -/
def CseReq.fieldsOk (r : CseReq) : Bool :=
  r.reservedOk && (r.fmt == 1 || (decide (4 ≤ r.fmt) && decide (r.fmt ≤ 7))) && (r.qSpace == 2 || r.qSpace == 3)
    && (r.dstSpace == 2 || r.dstSpace == 3) && r.onStacks != 0 && (!r.mx || (r.tagK != 0 && r.tagV != 0))
    && r.qAddr % 4 == 0 && r.dst % 64 == 0 && r.koff % 64 == 0 && r.voff % 64 == 0 && decide (r.g ≤ 16)
    && r.npos != 0 && r.seg != 0

/-- Step 2 of R160. -/
def State.cseBounds (s : State) (c f : Nat) (r : CseReq) : Bool :=
  let a : Access := { ctx := c, frond := some f }
  let spaceOk (sp addr n : Nat) : Bool := addrFields sp addr && s.holds a sp addr n
  r.stackList.all (fun k => (s.stacksOf (c / 8)).contains k) && decide (r.npos ≤ r.seg * r.stackList.length)
    && r.foots.all (fun x => decide (x.1 + x.2 ≤ stackBytes)) && spaceOk r.qSpace r.qAddr (2 * r.g * r.d)
    && spaceOk r.dstSpace r.dst r.outBytes

/-- Whether a region keeps a context's CSE reads out (R160 step 3). -/
def Region.keepsOut (g : Region) (c : Nat) : Bool :=
  g.sealedBit || g.owner != c || !(g.state == .active || g.state == .rekey)

/-- The first line of a footprint in a stack that lies in a region the context's CSE may not read. -/
def State.cseBadLine (s : State) (c k : Nat) (x : Nat × Nat) : Option Nat :=
  if x.2 = 0 then none
  else
    let lo := x.1 / 64
    let hi := (x.1 + x.2 - 1) / 64
    (List.range 64).foldl (fun (o : Option Nat) i =>
      let g := s.region i
      let first := max lo (g.base * unitLines)
      if g.live ∧ g.has k ∧ g.keepsOut c ∧ first ≤ hi ∧ first < (g.limit + 1) * unitLines then
        (match o with
         | some y => some (min y first)
         | none => some first)
      else o) none

/-- The checks of R160: none, or the code and the second argument of its event. -/
def State.cseCheck (s : State) (c f index : Nat) (r : CseReq) : Option (Nat × Nat) :=
  if !r.fieldsOk then some (0x2101, index)
  else if !s.cseBounds c f r then some (0x2102, index)
  else (r.stackList.findSome? (fun k => r.foots.findSome? (fun x => s.cseBadLine c k x))).map (fun l => (0x2103, l))

/-! Commands and requests. -/

/-- A CSE command hands its request list to its frond engine. -/
def execCse (job : Nat) (s : State) : Host.Outcome State Fault Refusal :=
  onJob s job 5 (fun _ j => !j.begun) (fun c j =>
    let w2 := qword j.entry 2
    let n := bits (qword j.entry 3) 15 0 + 1
    let f := (entryEngine j.entry).1
    match s.readSpace { ctx := c, frond := some f } (bits w2 46 44) (bits w2 43 0) (64 * n) with
    | (s1, none) => s1.endJob c j.id 0x200A 0
    | (s1, some bs) =>
      let run : CseRun := { job := j.id, ctx := c, engine := (entryEngine j.entry).2, addr := bits w2 43 0,
                            reqs := groupsOf 64 (n + 1) bs }
      let s2 := s1.updJob c j.id (fun j => { j with begun := true })
      s2.setFrond f { s2.frond f with cse := (s2.frond f).cse ++ [run] })

/-- A frond's CSE command changed, or removed. -/
def State.updCse (s : State) (f job : Nat) (g : CseRun → CseRun) : State :=
  s.setFrond f { s.frond f with cse := (s.frond f).cse.map (fun r => if r.job = job then g r else r) }
def State.dropCse (s : State) (f job : Nat) : State :=
  s.setFrond f { s.frond f with cse := (s.frond f).cse.filter (fun r => r.job ≠ job) }

/-- The command of a frond whose next request can start: the oldest of its engine, with none of its requests out. -/
def Frond.cseNext (x : Frond) : Option CseRun :=
  x.cse.find? (fun r => !r.sent && (x.cse.find? (fun q => q.engine == r.engine)).map (fun q => q.job) == some r.job)

/-- A request is checked, and its queries go to the stacks named (R160). -/
def State.cseRequest (s : State) (f : Nat) (r : CseRun) : State :=
  let bs := nth [] r.reqs r.index
  let q := CseReq.ofBytes bs
  let addr := r.addr + 64 * r.index
  match s.cseCheck r.ctx f r.index q with
  | some (code, b) =>
    ((s.raise (.frd f) code addr b).dropCse f r.job).endJob r.ctx r.job code (detailOf addr b)
  | none =>
    let rd := s.readSpace { ctx := r.ctx, frond := some f } q.qSpace q.qAddr (2 * q.g * q.d)
    let queries := rd.2.getD []
    let s1 := rd.1.updCse f r.job (fun x => { x with sent := true, queries := queries, waiting := q.stackList,
                                                     parts := [], faults := [] })
    q.stackList.foldl (fun s k =>
      let x := s.stack k
      s.setStack k { x with lanes := x.lanes ++ [{ kind := .csePart, ctx := r.ctx, job := some r.job, desc := bs,
                                                    image := queries, frond := f, index := r.index }] }) s1

def execCseRequest (f : Nat) (s : State) : Host.Outcome State Fault Refusal :=
  if ¬ f < 32 then .fault .noSuchUnit
  else if s.haltedPart (s.partOfQuarter (quarterOfFrond f)) then notEnabled "the engine is halted"
  else match (s.frond f).cseNext with
    | none => notEnabled "no request of the frond can start"
    | some r => .next (s.cseRequest f r)

/-! Stack parts (R159, R161, R164). -/

/-- One rounding to FP32, counted (R38, R54), for the output element of linear index `ix` (log entry 110). -/
def fp32 (ix : Nat) (t : Tally) (x : Res) : Tally × Val :=
  let c := convert .fp32 false .rne 0 x
  (t.count c.2 0 ix, decodeElem .fp32 c.1)

/-- What a W96 sum counts, once for its word (R54, R55): 0x1005 where the range was left, and its outcome. -/
def countSum (t : Tally) (w : WSum) (hadNan : Bool) (index : Nat) : Tally :=
  let t1 := if w.range then t.event 0x1005 0xB index else t
  t1.count (if W96.isNan w.word then .nan (!hadNan) else if w.flushed then .flushed
            else if w.lost then .inexact else .exact) 0xB index

/-- An exact sum under R66, in order. -/
def w96Sum (ix : Nat) (t : Tally) (vs : List Val) : Tally × Val :=
  let r := vs.foldl WSum.add {}
  (countSum t r (vs.any Val.isNan) ix, W96.val r.word)

/-- The larger of two values; a NaN stays. -/
def maxVal (a b : Val) : Val :=
  if a.isNan then a else if b.isNan then b else if Val.cmp a b == .lt then b else a

/-- The partial of one query (R161). -/
structure CsePart where
  m : Val
  l : Val
  o : List Val
  deriving DecidableEq, Repr

/-- One tile of query `g`: the valid positions' K and V rows. Events name output element g·d + j for a step of o[j],
and g·d for the steps of s, m and l (log entry 110). -/
def cseTile (g : Nat) (sc : Val) (q : List Val) (rows : List (List Val × List Val)) (t : Tally) (p : CsePart) :
    Tally × CsePart :=
  if rows.isEmpty then (t, p)
  else
    let ix := g * p.o.length
    let dot (k : List Val) : Val := (q.zip k).foldl (fun a x => (fmaVal x.1 x.2 a).val) (.fin false 0 0)
    let ss := rows.foldl (fun (r : Tally × List Val) kv =>
      let s := fp32 ix r.1 (mulVal sc (dot kv.1))
      (s.1, r.2 ++ [s.2])) (t, [])
    let mn := ss.2.foldl maxVal p.m
    let ex (t : Tally) (x : Val) : Tally × Val := fp32 ix t (expVal (addVal x (negVal mn)).val)
    let al : Tally × Val := match p.m with
      | .inf true => (ss.1, .fin false 0 0)
      | m => ex ss.1 m
    let es := ss.2.foldl (fun (r : Tally × List Val) s =>
      let e := ex r.1 s
      (e.1, r.2 ++ [e.2])) (al.1, [])
    let scaleAdd (i : Nat) (t : Tally) (old : Val) (xs : List Val) : Tally × Val :=
      let a := fp32 i t (mulVal old al.2)
      let w := w96Sum i a.1 xs
      let b := fp32 i w.1 w.2.res
      fp32 i b.1 (addVal a.2 b.2)
    let l := scaleAdd ix es.1 p.l es.2
    let o := p.o.zipIdx.foldl (fun (r : Tally × List Val) oj =>
      let x := scaleAdd (ix + oj.2) r.1 oj.1 ((es.2.zip rows).map (fun e => (mulVal e.1 (nth .nan e.2.2 oj.2)).val))
      (x.1, r.2 ++ [x.2])) (l.1, [])
    (o.1, { m := mn, l := l.2, o := o.2 })

/-- Whether context position `p` is valid for query `g` (R159). -/
def CseReq.valid (r : CseReq) (p g : Nat) : Bool :=
  decide (p < r.npos) && (!r.causal || decide (p ≤ r.qpos + (if r.qstep then g else 0)))

/-- What a read of a row met: a line that failed, or a scale line that did not match. -/
inductive RowFail where
  | bus (line : Nat)
  | tag (expected found : Nat)
  deriving DecidableEq, Repr

/-- The 64-byte lines of a run at stack offset `o` read, each once. -/
def Reader.stackRun (r : Reader) (a : Access) (k o n : Nat) : Reader × Except RowFail (List Byte) :=
  let base := (2 ^ 43 + k * stackBytes) / 64
  let x := (List.range ((o + n - 1) / 64 - o / 64 + 1)).foldl (fun (x : Reader × Except RowFail (List Byte)) i =>
    match x.2 with
    | .error _ => x
    | .ok bs => match x.1.line a 1 (base + o / 64 + i) with
      | (r1, none) => (r1, .error (.bus (o / 64 + i)))
      | (r1, some l) => (r1, .ok (bs ++ l))) (r, .ok [])
  (x.1, x.2.map (fun bs => (bs.drop (o % 64)).take n))

/-- Row `t` of K or V: values, after the check of its scale lines (R53, R159); 0x1002 for the first block read with
scale code 0xFF, under the format code of K and V and the block's first element in the segment (R57). -/
def Reader.row (r : Reader) (c : Tally) (a : Access) (k : Nat) (q : CseReq) (off sl tag t : Nat) :
    Reader × Tally × Except RowFail (List Val) :=
  let w := codeWidth q.fmt
  let f := fmtOf q.fmt
  let elems (bs : List Byte) : List Nat := (List.range q.d).map (fun i => unpackElem w (leNat bs) i)
  if !q.mx then
    match r.stackRun a k (off + q.rowBytes * t) q.rowBytes with
    | (r1, .error e) => (r1, c, .error e)
    | (r1, .ok bs) => (r1, c, .ok ((elems bs).map (decodeElem f)))
  else
    let b0 := q.d * t / 32
    let x := (List.range (q.d / 32)).foldl (fun (x : Reader × Except RowFail (List Nat)) i =>
      match x.2 with
      | .error _ => x
      | .ok scs =>
        let l := (b0 + i) / 60
        match x.1.stackRun a k (64 * sl + 64 * l) 64 with
        | (r1, .error e) => (r1, .error e)
        | (r1, .ok bs) =>
          if scaleLineOk bs tag (60 * l) then (r1, .ok (scs ++ [(bs.getD ((b0 + i) % 60) 0#8).toNat]))
          else (r1, .error (.tag (tag + 60 * l % 65536 * 65536) (leNat (slice bs 60 4))))) (r, .ok [])
    match x with
    | (r1, .error e) => (r1, c, .error e)
    | (r1, .ok scs) => match r1.stackRun a k (off + q.rowBytes * t) q.rowBytes with
      | (r2, .error e) => (r2, c, .error e)
      | (r2, .ok bs) =>
        let c1 := match scs.findIdx? (· == 0xFF) with
          | some i => c.event 0x1002 q.fmt (32 * (b0 + i))
          | none => c
        (r2, c1, .ok ((elems bs).zipIdx.map (fun e => decodeScaled f (nth 0 scs (e.2 / 32)) e.1)))

/-- The valid rows of a tile, read in order: K and V of each position that some query sees. -/
def Reader.tile (r : Reader) (c : Tally) (a : Access) (k : Nat) (q : CseReq) (t0 : Nat) :
    Reader × Tally × Except RowFail (List (Nat × List Val × List Val)) :=
  (List.range (min 64 (q.seg - t0))).foldl (fun (x : Reader × Tally × Except RowFail (List (Nat × List Val × List Val))) i =>
    match x.2.2 with
    | .error _ => x
    | .ok rows =>
      let p := q.rank k * q.seg + t0 + i
      if !(List.range q.g).any (fun g => q.valid p g) then x
      else match x.1.row x.2.1 a k q q.koff q.ksl q.tagK (t0 + i) with
        | (r1, c1, .error e) => (r1, c1, .error e)
        | (r1, c1, .ok kr) => match r1.row c1 a k q q.voff q.vsl q.tagV (t0 + i) with
          | (r2, c2, .error e) => (r2, c2, .error e)
          | (r2, c2, .ok vr) => (r2, c2, .ok (rows ++ [(p, kr, vr)]))) (r, c, .ok [])

/-- The queries of a request as values. -/
def CseReq.queryVals (q : CseReq) (bs : List Byte) (g : Nat) : List Val :=
  (List.range q.d).map (fun j => decodeElem .bf16 (leNat (slice bs (2 * (g * q.d + j)) 2)))

/-- A whole stack part: the partials of every query and the count of valid positions, or what stopped it. -/
def State.csePart (s : State) (k c : Nat) (q : CseReq) (queries : List Byte) :
    State × Tally × Except RowFail (List CsePart × Nat) :=
  let a : Access := { ctx := c, cls := 1 }
  let start : List CsePart := List.replicate q.g { m := .inf true, l := .fin false 0 0, o := List.replicate q.d (.fin false 0 0) }
  let sc := decodeElem .fp32 q.sc
  -- positions past npos are not read
  let used := min q.seg (q.npos - q.rank k * q.seg)
  let r := (List.range (ceilDiv used 64)).foldl
    (fun (x : Reader × Tally × Except RowFail (List CsePart × Nat)) i =>
      match x.2.2 with
      | .error _ => x
      | .ok (ps, n) => match x.1.tile x.2.1 a k q (64 * i) with
        | (r1, c, .error e) => (r1, c, .error e)
        | (r1, c, .ok rows) =>
          let y := ps.zipIdx.foldl (fun (y : Tally × List CsePart) p =>
            let mine := (rows.filter (fun w => q.valid w.1 p.2)).map (fun w => (w.2.1, w.2.2))
            let z := cseTile p.2 sc (q.queryVals queries p.2) mine y.1 p.1
            (z.1, y.2 ++ [z.2])) (c, [])
          (r1, y.1, .ok (y.2, n + rows.length))) ({ s := s }, {}, .ok (start, 0))
  (r.1.s, r.2.1, r.2.2)

/-- The FP32 word of a value that a rounding to FP32 has produced. -/
def fp32Code (v : Val) : Nat := (convert .fp32 false .rne 0 v.res).1

/-- The words m, l, o of a partial. -/
def CsePart.codes (p : CsePart) : List Nat := fp32Code p.m :: fp32Code p.l :: p.o.map fp32Code

/-- The lane command at the head of a stack's queue is a CSE part: it runs, and its partial reaches the frond. -/
def State.cseStackPart (s : State) (k : Nat) (cmd : LaneCmd) : State :=
  let q := CseReq.ofBytes cmd.desc
  let job := cmd.job.getD 0
  let x := s.stack k
  let r := (s.setStack k { x with lanes := x.lanes.drop 1 }).csePart k cmd.ctx q cmd.image
  let s1 := r.1.jobTally cmd.ctx job (.rhz k) (Page.id (.rhz k) * 4) r.2.1
  match r.2.2 with
  | .ok (ps, n) =>
    let s2 := (s1.bump (.rhz k) Reg.RHZ_CSE_DONE).bump (.rhz k) Reg.RHZ_CSE_POS n
    s2.updCse cmd.frond job (fun y => { y with waiting := y.waiting.filter (· ≠ k),
                                               parts := y.parts ++ [(k, ps.map CsePart.codes)] })
  | .error e =>
    let ev : Nat × Nat × Nat := match e with
      | .bus line => (0x2105, cmd.index, line)
      | .tag x y => (0x2104, x, y)
    (s1.raise (.rhz k) ev.1 ev.2.1 ev.2.2).updCse cmd.frond job (fun y =>
      { y with waiting := y.waiting.filter (· ≠ k), faults := y.faults ++ [(k, ev)] })

/-- Whether a stack's lanes can run a command: no zeroing, no halt (R157, R167, R310). -/
def State.lanesRun (s : State) (k : Nat) : Bool :=
  decide (k < 12) && !(s.stack k).zeroing && !s.haltedPart (s.partOfQuarter (quarterOfStack k))

/-- Whether a lane command may start: no release of its layer still reads, and no mirror copy of it is due (R231, R280). -/
def State.laneFree (s : State) (k : Nat) (cmd : LaneCmd) : Bool :=
  let x := s.stack k
  cmd.kind == .loadprog || cmd.kind == .csePart
    || (!x.releases.any (fun r => r.hdr == cmd.hdr && !r.begun) && !x.mirrors.any (fun m => m.1 == cmd.hdr))

/-- The lane command that runs: the head of the queue, which idle lanes start at once where it may start (R157, R231). -/
def State.laneRuns (s : State) (k : Nat) : Option LaneCmd :=
  match (s.stack k).lanes with
  | cmd :: _ => if s.lanesRun k && s.laneFree k cmd then some cmd else none
  | [] => none

def execCseStackPart (stack : Nat) (s : State) : Host.Outcome State Fault Refusal :=
  if ¬ stack < 12 then .fault .noSuchUnit
  else if !s.lanesRun stack then notEnabled "the lanes do not run"
  else match (s.stack stack).lanes with
    | [] => notEnabled "the lane queue is empty"
    | cmd :: _ =>
      if cmd.kind ≠ .csePart then notEnabled "another command stands at the head of the lane queue"
      else .next (s.cseStackPart stack cmd)

/-! The merge (R162, R163). -/

/-- The parts of a run in increasing stack number. -/
def CseRun.ordered (r : CseRun) (q : CseReq) : List (Nat × List (List Nat)) :=
  q.stackList.filterMap (fun k => r.parts.find? (fun p => p.1 == k))

/-- Query `g` merged: the output codes and the log-sum-exp, every conversion counted. Events name output element
g·d + j for a step of ot[j], g·d for the steps of lt, and G·d + g for the log-sum-exp, its place behind the G·d output
elements (log entry 110). -/
def cseMerge (f : Fmt) (wantLse : Bool) (nq g : Nat) (parts : List (List Nat)) (d : Nat) (t : Tally) :
    Tally × List Nat × Nat :=
  let v (c : Nat) : Val := decodeElem .fp32 c
  let mx := parts.foldl (fun m p => maxVal m (v (nth 0 p 0))) (.inf true)
  let z : Val := .fin false 0 0
  let ix := g * d
  let r := parts.foldl (fun (r : Tally × Val × List Val) p =>
    let m := v (nth 0 p 0)
    let a : Tally × Val := match m with
      | .inf true => (r.1, z)
      | m => fp32 ix r.1 (expVal (addVal m (negVal mx)).val)
    let la := fp32 ix a.1 (mulVal (v (nth 0 p 1)) a.2)
    let lt := fp32 ix la.1 (addVal r.2.1 la.2)
    let ot := r.2.2.zipIdx.foldl (fun (y : Tally × List Val) oj =>
      let x := fp32 (ix + oj.2) y.1 (mulVal (v (nth 0 p (2 + oj.2))) a.2)
      let w := fp32 (ix + oj.2) x.1 (addVal oj.1 x.2)
      (w.1, y.2 ++ [w.2])) (lt.1, [])
    (ot.1, lt.2, ot.2)) (t, z, List.replicate d z)
  let out := r.2.2.zipIdx.foldl (fun (y : Tally × List Nat) o =>
    let c := convert f false .rne 0 (divVal o.1 r.2.1)
    (y.1.count c.2 f.code (ix + o.2), y.2 ++ [c.1])) (r.1, [])
  let lse := convert .fp32 false .rne 0 (plusLn mx r.2.1)
  -- a log-sum-exp that is not asked for is not converted
  (if wantLse then out.1.count lse.2 0 (nq * d + g) else out.1, out.2, lse.1)

/-- The bytes a completed request writes, as offsets from dst. -/
def CseRun.results (r : CseRun) (q : CseReq) : Tally × List (Nat × List Byte) :=
  let ps := r.ordered q
  if q.merge then
    if !r.faults.isEmpty then ({}, [])
    else
      let f : Fmt := if q.ofmt then .bf16 else .fp32
      let w := if q.ofmt then 2 else 4
      let rows := (List.range q.g).foldl (fun (y : Tally × List Nat × List Nat) g =>
        let m := cseMerge f q.lse q.g g (ps.map (fun p => nth [] p.2 g)) q.d y.1
        (m.1, y.2.1 ++ m.2.1, y.2.2 ++ [m.2.2])) ({}, [], [])
      (rows.1, [(0, rows.2.1.flatMap (leBytes w))]
        ++ (if q.lse then [(q.g * q.d * w, rows.2.2.flatMap (leBytes 4))] else []))
  else
    ({}, ps.flatMap (fun p => p.2.zipIdx.map (fun x =>
      ((q.rank p.1 * q.g + x.2) * (64 + 4 * q.d),
       (x.1.take 2).flatMap (leBytes 4) ++ List.replicate 56 0#8 ++ (x.1.drop 2).flatMap (leBytes 4)))))

/-- The fault of the lowest-numbered stack part that was aborted. -/
def CseRun.fault (r : CseRun) : Option (Nat × Nat × Nat × Nat) := firstStop r.faults

/-- The results of a request whose parts have all ended are written; then the next request, or the end of the
command. -/
def State.cseMergeRun (s : State) (f : Nat) (r : CseRun) : State :=
  let q := CseReq.ofBytes (nth [] r.reqs r.index)
  let res := r.results q
  let a : Access := { ctx := r.ctx, frond := some f }
  let s1 := s.jobTally r.ctx r.job (.frd f) (2 ^ 20 + f) res.1
  let s2 := res.2.foldl (fun s x => (s.writeSpace a q.dstSpace (q.dst + x.1) x.2).1) s1
  match r.fault with
  | some (_, code, x, y) => (s2.dropCse f r.job).endJob r.ctx r.job code (detailOf x y)
  | none =>
    let s3 := if q.flagEn then
        s2.setWord (.frd f) (flagOff q.flag) ((s2.word (.frd f) (flagOff q.flag) + 1) % 2 ^ 32) else s2
    if r.index + 1 < r.reqs.length then
      s3.updCse f r.job (fun x => { x with index := r.index + 1, sent := false, queries := [], parts := [], faults := [] })
    else (s3.dropCse f r.job).endJob r.ctx r.job 0 0

def execCseMerge (f : Nat) (s : State) : Host.Outcome State Fault Refusal :=
  if ¬ f < 32 then .fault .noSuchUnit
  else if s.haltedPart (s.partOfQuarter (quarterOfFrond f)) then notEnabled "the engine is halted"
  else match (s.frond f).cse.find? (fun r => r.sent && r.waiting.isEmpty) with
    | none => notEnabled "no request of the frond has all its parts"
    | some r => .next (s.cseMergeRun f r)

/-! Staging SRAM (R155, R167, R168). -/

/-- `RHZ_STS` (R168): the commands that wait, whether one runs, and the zeroing. -/
def State.rhzStatus (s : State) (k : Nat) : Nat :=
  let x := s.stack k
  let runs := if (s.laneRuns k).isSome then 1 else 0
  min (x.lanes.length - runs) 16 + runs * 2 ^ 5 + (if x.zeroing then 2 ^ 6 else 0)

/-- A write of `RHZ_STAGE_SPLIT` (R168): the adders hold an open buffer while an entry is OPEN or CLOSING (R224). -/
def State.stageWrite (s : State) (stack value : Nat) : State :=
  let x := s.stack stack
  let busy := !x.lanes.isEmpty || x.entries.any (fun e => e.2.state == .opened || e.2.state == .closing)
  if bits value 4 0 + bits value 12 8 + bits value 20 16 = 24 ∧ !busy then
    ((s.setFld (.rhz stack) Reg.RHZ_STAGE_SPLIT 4 0 value).setFld (.rhz stack) Reg.RHZ_STAGE_SPLIT 12 8
      (value / 2 ^ 8)).setFld (.rhz stack) Reg.RHZ_STAGE_SPLIT 20 16 (value / 2 ^ 16)
  else s.raise (.rhz stack) 0x2106 value (s.rhzStatus stack)

def execStageSplitWrite (r : Requester) (stack value : Nat) (s : State) : Host.Outcome State Fault Refusal :=
  regWrite s r (.rhz stack) Reg.RHZ_STAGE_SPLIT true (fun s => s.stageWrite stack value)

/-- The zeroing of the staging SRAM ends (R167). -/
def execStagingZeroingDone (stack : Nat) (s : State) : Host.Outcome State Fault Refusal :=
  if ¬ stack < 12 then .fault .noSuchUnit
  else if !(s.stack stack).zeroing then notEnabled "the staging SRAM is not being zeroed"
  else .next (s.setStack stack { s.stack stack with zeroing := false })

end Sys2Proof.Machine
end

