-- ==== Sys2Proof/Machine/Fabric.lean ====
section
/-!
DEFINITION. Routes, channels and outgoing messages of the fabric, and ownership of stack ranges (11_lumur_fabric.md,
R260 to R262, R276; 09_gradient_reduction.md, R202, R204).
-/
namespace Sys2Proof.Machine

/-- The logical node identifier of the module (R284). -/
def State.node (s : State) : Nat := s.fld .fabric Reg.LML_NODE 15 0

/-- The role of the module (R277): 0 none, 1 STANDBY, 2 ADOPT, 3 ACTIVE. -/
def State.role (s : State) : Nat := s.fld .fabric Reg.LML_NODE 17 16

/-- The link that traffic for a node takes (R276). -/
def State.routeOf (s : State) (node : Nat) : Option Nat :=
  (List.range 64).findSome? (fun i =>
    let w := s.word .fabric (Reg.LML_ROUTE + 4 * i)
    if bit w 31 ∧ bits w 15 0 = node then some (if bit w 24 then bits w 23 20 else bits w 19 16) else none)

/-- Fields of the channel map of a link (R262, R283). -/
def State.vcMap (s : State) (l v : Nat) : Nat := s.word (.lml l) (Reg.LML_VC + 4 * v)

/-- The channel of a link that carries a context's group: mapped to the group, on a slot bound to the context (R202,
R262). -/
def State.channelOf (s : State) (l c group : Nat) : Option Nat :=
  ((List.range 28).map (· + 4)).find? (fun v =>
    let w := s.vcMap l v
    let k := SMap.get {} (s.link l).slots (bits w 19 16)
    bit w 31 && bits w 15 0 == group && k.bound && k.ctx == c && bits w 19 16 != 0)

/-- The link and channel that a message of a context's group to a node takes. -/
def State.pathTo (s : State) (c group node : Nat) : Option (Nat × Nat) :=
  (s.routeOf node).bind (fun l => (s.channelOf l c group).map (fun v => (l, v)))

/-- A message queued on a channel of a link. -/
def State.queueMsg (s : State) (l v : Nat) (m : Msg) : State :=
  let x := s.link l
  s.setLink l { x with tx := SMap.set [] x.tx v (SMap.get [] x.tx v ++ [m]) }

/-! Ownership of stack ranges (R204, R227). -/

/-- Whether `n` bytes at stack offset `off` lie in the stack and wholly in regions of a context, sealed ones where that is
asked. -/
def State.ownsRange (s : State) (k c off n : Nat) (wantSealed : Bool) : Bool :=
  n == 0 || (decide (off + n ≤ stackBytes) &&
    (List.range ((off + n - 1) / 2097152 - off / 2097152 + 1)).all (fun i =>
      match s.regionAt k ((off / 2097152 + i) * unitLines) with
      | some r => (s.region r).owner == c && (!wantSealed || (s.region r).sealedBit)
      | none => false))

/-- `n` bytes of a stack read by its Rhizoid for a context (class 2 of R289); the line that failed otherwise. -/
def State.rhzRead (s : State) (k c off n : Nat) : State × Except Nat (List Byte) :=
  match s.readRun k off n 2 c with
  | (s1, some bs) => (s1, .ok bs)
  | (s1, none) => (s1, .error ((s.firstBadLine k off n 2 c false).getD (off / 64)))

/-- Bytes written by a stack's Rhizoid for a context; the line that failed otherwise. -/
def State.rhzWrite (s : State) (k c off : Nat) (bs : List Byte) : State × Option Nat :=
  match s.writeRun k off 2 c bs with
  | (s1, n) => if n = bs.length then (s1, none) else (s1, some ((off + n) / 64))

end Sys2Proof.Machine
end

