-- ==== Sys2Proof/Machine/Reduce.lean ====
section
/-!
DEFINITION. Gradient reduction: arm, send and release, acceptance of contributions, the close with its outcome, and the
sampled check (09_gradient_reduction.md, R194 to R225, R485, R486).
-/
namespace Sys2Proof.Machine

/-! Geometry of a buffer (R194, R195, R205, R214). -/

def RedEntry.nspan (e : RedEntry) : Nat := ceilDiv e.nel 4096
def RedEntry.spanLen (e : RedEntry) (i : Nat) : Nat := min 4096 (e.nel - 4096 * i)
/-- Bytes of a sum, and of a contribution's element. -/
def RedEntry.sumW (e : RedEntry) : Nat := if e.typ = 0 then 2 else 4
def RedEntry.elemW (e : RedEntry) : Nat := if e.typ = 0 then 1 else if e.typ = 1 then 2 else 4
/-- cap(k) of R214. -/
def RedEntry.cap (e : RedEntry) : Nat := if e.checkK ≤ 8 then 2 ^ (8 - e.checkK) else 1
/-- Stack offset of the check slot of rank `r` for the `j`-th checked block of span `i`. -/
def RedEntry.checkAt (e : RedEntry) (i j r : Nat) : Nat :=
  e.tbl + 64 * e.nspan + ((i * e.cap + j) * (e.nranks + 2) + r) * 32 * e.elemW
/-- Bytes of the check area. -/
def RedEntry.checkBytes (e : RedEntry) : Nat := e.nspan * e.cap * (e.nranks + 2) * 32 * e.elemW
/-- Bytes that the buffer occupies at buf (R220). -/
def RedEntry.bufBytes (e : RedEntry) : Nat :=
  if e.typ = 2 then (e.nranks + 1) * e.nspan * 16384 else e.nel * e.sumW
/-- Stack offset of the row of rank `r` for span `i` of a type-2 buffer; rank nranks is the result row (R219). -/
def RedEntry.rowAt (e : RedEntry) (r i : Nat) : Nat := e.buf + (r * e.nspan + i) * 16384
/-- Stack offset of the sums of span `i`. -/
def RedEntry.sumsAt (e : RedEntry) (i : Nat) : Nat :=
  if e.typ = 2 then e.rowAt e.nranks i else e.buf + i * 4096 * e.sumW
def RedEntry.span (e : RedEntry) (i : Nat) : Span := SMap.get {} e.spans i
def RedEntry.setSpan (e : RedEntry) (i : Nat) (x : Span) : RedEntry := { e with spans := SMap.set {} e.spans i x }
def RedEntry.code (e : RedEntry) (i : Nat) : Nat := (e.codes.getD i 0#8).toNat
/-- All ranks of the buffer. -/
def RedEntry.full (e : RedEntry) : Nat := 2 ^ e.nranks - 1
/-- The ranks that span `i` takes (R222). -/
def RedEntry.takes (e : RedEntry) (i : Nat) : Nat :=
  if e.replay then ((e.recorded.find? (fun x => x.1 == i)).map Prod.snd).getD e.full else e.full
/-- Group and buffer as the first argument of the events of R225. -/
def RedEntry.arg (e : RedEntry) : Nat := e.buffer + e.group * 65536

/-- The table entry of a span (R205). -/
def RedEntry.tableBytes (e : RedEntry) (i : Nat) : List Byte :=
  let x := e.span i
  leBytes 32 x.acc ++ leBytes 8 x.weight ++ leBytes 4 x.sat ++ leBytes 2 x.maxabs ++ leBytes 1 (e.code i)
    ++ leBytes 1 x.next ++ leBytes 1 x.flags ++ leBytes 1 0 ++ leBytes 2 x.nonfin ++ leBytes 4 x.nacc ++ leBytes 8 0

/-- The sums of a span as bytes. -/
def RedEntry.sumBytes (e : RedEntry) (i : Nat) : List Byte :=
  (List.range (e.spanLen i)).flatMap (fun j =>
    leBytes e.sumW (ofSigned (8 * e.sumW) (SMap.get 0 (e.span i).sums j)))

/-! The table of a stack. -/

def Stack.entry (x : Stack) (i : Nat) : RedEntry := SMap.get {} x.entries i
def State.setEntry (s : State) (k i : Nat) (e : RedEntry) : State :=
  s.setStack k { s.stack k with entries := SMap.set {} (s.stack k).entries i e }

/-- The entry of a context, group and buffer that is not free. -/
def Stack.findEntry (x : Stack) (c group buffer : Nat) : Option Nat :=
  (x.entries.find? (fun e => e.2.state != .free && e.2.ctx == c && e.2.group == group && e.2.buffer == buffer)).map Prod.fst

/-- The first free entry. -/
def Stack.freeEntry (x : Stack) : Option Nat := (List.range 64).find? (fun i => (x.entry i).state == .free)

/-- The reduction counters (R224). -/
def redCounter (i : Nat) : Nat := 0x120 + 4 * i

/-- The earliest Rhizoid cycle in which the present moment can lie: that in which the current timebase cycle begins, or a
later one that a passed deadline has shown (R208). -/
def State.rhzCycle (s : State) : Nat := max (32 * s.ticks / 5) s.rhzNow

/-- Whether cycle `c` begins before the current timebase cycle ends. -/
def State.rhzReaches (s : State) (c : Nat) : Bool := decide (5 * c < 32 * (s.ticks + 1))

/-- Whether a stack's Rhizoid works (R167, R310). -/
def State.rhzRuns (s : State) (k : Nat) : Bool :=
  !(s.stack k).zeroing && !s.haltedPart (s.partOfQuarter (quarterOfStack k))

/-- The cycle D that contains a timebase instant (R208): 25 ns are 32 cycles. -/
def State.cycleOf (s : State) (ns : Nat) : Nat :=
  let unit : Int := (2 ^ 40 : Nat)
  let ahead : Int := (ns : Int) * unit - ((s.tmb.ns * 2 ^ 40 + s.tmb.frac : Nat) : Int)
  -- ticks × 5 ns + ahead, in cycles of 25/32 ns
  ((((5 * s.ticks : Nat) : Int) * unit + ahead) * 32 / (25 * unit)).toNat

/-! Arm (R203, R204). -/

/-- The entry that an arm descriptor describes, without what the arm reads from memory. -/
def armEntry (d c checkK : Nat) (proth : Bool) : RedEntry :=
  { ctx := c, buf := bits d 36 0, group := bits d 63 48, tbl := bits d 100 64, buffer := bits d 143 128,
    typ := bits d 145 144, kind := bits d 147 146, nranks := bits d 155 148 + 1, step := bits d 191 160,
    deadline := bits d 255 192, nel := bits d 295 256, cmin := bits d 311 304, cmax := bits d 319 312,
    quorum := bits d 367 320, thr := bits d 399 384, lowerEn := bit d 400, capture := bit d 401, replay := bit d 402,
    divide := bit d 403, chkPinna := bits d 409 405 * 24 + bits d 414 410, chkEn := bit d 415,
    recAt := 64 * bits d 446 416, target := bits d 484 448, fwdBuffer := bits d 500 485, fwdRank := bits d 508 501,
    checkK := checkK, proth := proth }

/-- The bits of an arm descriptor that are reserved (R203). -/
def armReserved (d : Nat) : Bool :=
  bits d 47 37 == 0 && bits d 111 101 == 0 && bits d 127 116 == 0 && bits d 159 156 == 0 && bits d 303 296 == 0
    && bits d 383 376 == 0 && !bit d 447 && bits d 511 509 == 0

/-- The checks of R204 that need no read: whether an arm is legal. -/
def State.armLegal (s : State) (k d : Nat) (e : RedEntry) : Bool :=
  let c := e.ctx
  let x := s.ctx c
  armReserved d && (s.stacksOf (c / 8)).contains k
    && decide (e.typ < 3) && decide (e.kind < 3) && !(e.kind == 1 && e.typ == 1) && ((e.typ == 2) == e.proth)
    && e.buf % 64 == 0 && e.tbl % 64 == 0 && e.nel % 32 == 0 && decide (32 ≤ e.nel) && decide (e.nel ≤ 2 ^ 37)
    && decide (e.cmin ≤ e.cmax) && decide (e.cmax ≤ 0xFE) && (e.kind != 1 || decide (e.cmax ≤ 0xF6))
    && decide (bits d 414 410 < 24) && s.frondIn (c / 8) (bits d 409 405)
    && (!e.divide || e.kind == 2) && (!x.joint || e.kind != 2)
    && s.ownsRange k c e.buf e.bufBytes x.joint
    && s.ownsRange k c e.tbl (64 * e.nspan + e.checkBytes) x.joint
    && (!(e.capture || e.replay) || s.ownsRange k c e.recAt (64 + 64 * e.nspan) x.joint)

/-- The decision record that a replay reads (R221, R222): the ranks of the spans it lists; `ok none` if it does not
belong to the buffer. -/
def State.readDecision (s : State) (k : Nat) (e : RedEntry) : State × Except Nat (Option (List (Nat × Nat))) :=
  match s.rhzRead k e.ctx e.recAt 64 with
  | (s1, .error l) => (s1, .error l)
  | (s1, .ok h) =>
    let n := leNat (slice h 12 4)
    if leNat (slice h 0 2) ≠ e.group ∨ leNat (slice h 2 2) ≠ e.buffer ∨ leNat (slice h 4 4) ≠ e.step
        ∨ leNat (slice h 8 4) ≠ e.nspan ∨ e.nspan < n then (s1, .ok none)
    else match s1.rhzRead k e.ctx (e.recAt + 64) (64 * n) with
      | (s2, .error l) => (s2, .error l)
      | (s2, .ok bs) => (s2, .ok (some ((List.range n).map (fun j =>
          (leNat (slice bs (64 * j) 4), leNat (slice bs (64 * j + 32) 32))))))

/-- A `REDUCE` command ended by a code of R225 on the page of its stack; a stack outside the partition reports on the
partition's first (log entry 20). -/
def State.redFail (s : State) (k c id code a1 a2 : Nat) : State :=
  let at_ := if (s.stacksOf (c / 8)).contains k then k else (s.stacksOf (c / 8)).headD 0
  (s.raise (.rhz at_) code a1 a2).endJob c id code (detailOf a1 a2)

/-- The descriptor of a `REDUCE` or `UPDATE` command, with the bytes that follow it. -/
def State.frondDesc (s : State) (c : Nat) (j : Job) (off n : Nat) : State × Option (List Byte) :=
  let w2 := qword j.entry 2
  let a : Access := { ctx := c, frond := some (entryEngine j.entry).1 }
  let at_ := bits w2 43 0 + off
  if s.holds a (bits w2 46 44) at_ n then s.readSpace a (bits w2 46 44) at_ n else (s, none)

/-- The address of a command's descriptor. -/
def descAddrOf (j : Job) : Nat := bits (qword j.entry 2) 43 0

/-- The stack offset / 64 of byte `off` of a command's descriptor; a descriptor outside the stacks has none, and the value
is then free (log entry 24). -/
def State.descLine (s : State) (c : Nat) (j : Job) (off : Nat) : State × Nat :=
  match s.resolve (c / 8) (bits (qword j.entry 2) 46 44) (descAddrOf j + off) with
  | some (_, o) => (s, o / 64)
  | none => s.drawWord

/-- The codes that an arm gives to the spans (R204, R213): init_code, or the table's next fields; 0 in type 2. -/
def State.armCodes (s : State) (k d : Nat) (e : RedEntry) : State × Except Nat (List Byte) :=
  if e.typ = 2 then (s, .ok (List.replicate e.nspan 0#8))
  else if bit d 404 then (s, .ok (List.replicate e.nspan (BitVec.ofNat 8 (bits d 375 368))))
  else match s.rhzRead k e.ctx e.tbl (64 * e.nspan) with
    | (s1, .error l) => (s1, .error l)
    | (s1, .ok bs) => (s1, .ok ((List.range e.nspan).map (fun i => bs.getD (64 * i + 47) 0#8)))

/-- The releases that wait for a buffer to be OPEN at a step (none: to be freed) wait no longer (R248). -/
def State.noteReady (s : State) (k c group buffer : Nat) (step : Option Nat) : State :=
  let x := s.stack k
  let mine (r : Release) : Bool := r.ctx == c && (match r.closed with
    | some b => b.group == group && b.buffer == buffer
        && (match step with
          | some n => n == (r.step + 1) % 2 ^ 32
          | none => true)
    | none => false)
  if x.releases.any mine then
    s.setStack k { x with releases := x.releases.map (fun r => if mine r then { r with ready := true } else r) }
  else s

/-- Whether an update or skip of a buffer is queued in a stack (R231). -/
def Stack.laneBusy (x : Stack) (c group buffer : Nat) : Bool :=
  x.lanes.any (fun l => l.ctx == c && (l.kind == .update || l.kind == .skip) && (match l.closed with
    | some b => b.group == group && b.buffer == buffer
    | none => false))

/-- Whether the arm of a command is held by the update or skip of the CLOSED entry it reuses (R231). -/
def State.armHeld (s : State) (c : Nat) (j : Job) : Bool :=
  match (s.frondDesc c j 0 64).2 with
  | none => false
  | some bs =>
    let d := leNat bs
    (s.stack (bits d 115 112)).laneBusy c (bits d 63 48) (bits d 143 128)

/-- An arm operation. The checks of the codes 0x5001 and 0x5002 come before its reads (log entry 21). -/
def State.redArm (s : State) (c : Nat) (j : Job) : State :=
  match s.frondDesc c j 0 64 with
  | (s1, none) => s1.endJob c j.id 0x200A 0
  | (s1, some bs) =>
    let d := leNat bs
    let k := bits d 115 112
    let e := armEntry d c (s1.fld (.rhz k) Reg.RHZ_RED_CTL 4 0) (s1.ctx c).proth
    let illegal (s : State) : State := s.redFail k c j.id 0x5001 e.arg (descAddrOf j / 64)
    if !s1.armLegal k d e then illegal s1
    else
      let x := s1.stack k
      let old := x.findEntry c e.group e.buffer
      let busy : Bool := match old with
        | some i => (x.entry i).state != .closed || decide (e.step ≤ (x.entry i).step)
        | none => x.freeEntry.isNone
      if busy then s1.redFail k c j.id 0x5002 e.arg e.step
      else
        let failBus (s : State) (line : Nat) : State := s.redFail k c j.id 0x500E e.arg line
        let level2 := if e.kind = 1 then s1.frondDesc c j 64 4 else (s1, some [])
        match level2 with
        | (s2, none) => let x := s2.descLine c j 64
                        failBus x.1 x.2
        | (s2, some w) =>
          let e1 := { e with fwdNode := leNat (slice w 0 2), fwdStack := bits (leNat (slice w 2 2)) 3 0 }
          if e.kind = 1 ∧ 11 < e1.fwdStack then illegal s2
          else
            let rec_ := if e.replay then s2.readDecision k e else (s2, .ok (some []))
            match rec_ with
            | (s3, .error l) => failBus s3 l
            | (s3, .ok none) => illegal s3
            | (s3, .ok (some rs)) =>
              match s3.armCodes k d e with
              | (s4, .error l) => failBus s4 l
              | (s4, .ok codes) =>
                let i := (old <|> (s4.stack k).freeEntry).getD 0
                let e2 := { e1 with state := .opened, codes := codes, recorded := rs, cycle := s4.cycleOf e.deadline,
                                    level2 := (old.map (fun i => ((s4.stack k).entry i).level2)).getD false }
                ((s4.setEntry k i e2).noteReady k c e.group e.buffer (some e.step)).endJob c j.id 0 0

/-- The operation of a `REDUCE` entry. -/
def redOp (j : Job) : Nat := bits (qword j.entry 3) 1 0

def execRedArm (job : Nat) (s : State) : Host.Outcome State Fault Refusal :=
  onJob s job 3 (fun c j => redOp j == 0 && !s.armHeld c j) (fun c j => s.redArm c j)

/-! Release of an entry (R485). -/

def State.redRelease (s : State) (c : Nat) (j : Job) : State :=
  match s.frondDesc c j 0 64 with
  | (s1, none) => s1.endJob c j.id 0x200A 0
  | (s1, some bs) =>
    let d := leNat bs
    let k := bits d 115 112
    let group := bits d 63 48
    let buffer := bits d 143 128
    let a1 := buffer + group * 65536
    let reserved := d - group * 2 ^ 48 - k * 2 ^ 112 - buffer * 2 ^ 128
    if reserved ≠ 0 ∨ !(s1.stacksOf (c / 8)).contains k then s1.redFail k c j.id 0x5001 a1 (descAddrOf j / 64)
    else match (s1.stack k).findEntry c group buffer with
      | none => s1.redFail k c j.id 0x5002 a1 0
      | some i =>
        if ((s1.stack k).entry i).state ≠ .closed then s1.redFail k c j.id 0x5002 a1 ((s1.stack k).entry i).step
        else ((s1.setEntry k i {}).noteReady k c group buffer none).endJob c j.id 0 0

def execRedRelease (job : Nat) (s : State) : Host.Outcome State Fault Refusal :=
  onJob s job 3 (fun _ j => redOp j == 2) (fun c j => s.redRelease c j)

/-! Contributions (R198, R199). -/

/-- The header of a contribution or partial. -/
structure Contrib where
  kind : Nat
  group : Nat
  buffer : Nat
  step : Nat
  src : Nat
  rank : Nat
  weight : Nat
  span : Nat
  nblk : Nat
  code : Nat
  sat : Nat
  maxabs : Nat
  count : Nat
  nonfin : Nat
  stack : Nat
  deriving DecidableEq, Repr

def Contrib.ofBytes (bs : List Byte) : Contrib :=
  let d := leNat (bs.take 64)
  { kind := bits d 7 0, group := bits d 23 8, buffer := bits d 39 24, step := bits d 71 40, src := bits d 87 72,
    rank := bits d 95 88, weight := bits d 127 96, span := bits d 159 128, nblk := bits d 166 160, code := bits d 175 168,
    sat := bits d 191 176, maxabs := bits d 207 192, count := bits d 216 208, nonfin := bits d 239 224,
    stack := bits d 243 240 }

def Contrib.bytes (h : Contrib) : List Byte :=
  leBytes 64 (h.kind + h.group <<< 8 + h.buffer <<< 24 + h.step <<< 40 + h.src <<< 72 + h.rank <<< 88 + h.weight <<< 96
    + h.span <<< 128 + h.nblk <<< 160 + h.code <<< 168 + h.sat <<< 176 + h.maxabs <<< 192 + h.count <<< 208
    + h.nonfin <<< 224 + h.stack <<< 240)

/-- Bytes of an element of a payload. -/
def Contrib.elemW (h : Contrib) : Nat := if h.kind = 1 then 1 else if h.kind = 2 ∨ h.kind = 0x12 then 2 else 4

/-- A contribution or partial on its way to a stack of this module, for a context. -/
def State.toStack (s : State) (k : Nat) (m : Inbound) : State :=
  let x := s.stack k
  s.setStack k { x with inbox := x.inbox ++ [m] }

/-- A contribution or partial handed over: to a stack of this module, or to the path to another node. -/
def State.handOver (s : State) (path : Option (Nat × Nat)) (k : Nat) (m : Inbound) : State :=
  match path with
  | none => s.toStack k m
  | some (l, v) => s.queueMsg l v { bytes := m.bytes }

/-! Send (R200, R201). -/

/-- A send descriptor with its fields under the names of R200. -/
structure SendDesc where
  raw : Nat
  src : Nat
  srcSpace : Nat
  fmt : Nat
  typ : Nat
  codes : Nat
  codesSpace : Nat
  group : Nat
  buffer : Nat
  dst : Nat
  stack : Nat
  rank : Nat
  step : Nat
  weight : Nat
  span0 : Nat
  nspan : Nat
  nel : Nat
  tag : Nat
  stream : Nat
  rnd : Nat
  stat : Nat
  deriving DecidableEq, Repr

def SendDesc.ofBytes (bs : List Byte) : SendDesc :=
  let d := leNat bs
  { raw := d, src := bits d 43 0, srcSpace := bits d 46 44, fmt := bits d 50 47, typ := bits d 52 51,
    codes := bits d 107 64, codesSpace := bits d 110 108, group := bits d 127 112, buffer := bits d 143 128,
    dst := bits d 159 144, stack := bits d 163 160, rank := bits d 171 164, step := bits d 223 192,
    weight := bits d 255 224, span0 := bits d 287 256, nspan := bits d 319 288, nel := bits d 359 320,
    tag := bits d 399 384, stream := bits d 415 400, rnd := bits d 417 416, stat := bits d 423 418 }

def SendDesc.reservedOk (d : SendDesc) : Bool :=
  bits d.raw 63 53 == 0 && !bit d.raw 111 && bits d.raw 191 172 == 0 && bits d.raw 383 360 == 0
    && bits d.raw 511 424 == 0

def SendDesc.arg (d : SendDesc) : Nat := d.buffer + d.group * 65536
def SendDesc.spanLen (d : SendDesc) (i : Nat) : Nat := min 4096 (d.nel - 4096 * i)
/-- Elements that the send reads. -/
def SendDesc.count (d : SendDesc) : Nat := min ((d.span0 + d.nspan) * 4096) d.nel - d.span0 * 4096
def SendDesc.width (d : SendDesc) : Nat := codeWidth d.fmt / 8

/-- Whether a send is legal, apart from the codes it reads (R201). -/
def State.sendLegal (s : State) (c f : Nat) (d : SendDesc) : Bool :=
  let a : Access := { ctx := c, frond := some f }
  d.reservedOk && decide (d.srcSpace < 4) && decide (d.codesSpace < 4) && decide (d.typ < 3)
    && (if d.typ = 2 then d.fmt == 0 else decide (d.fmt < 3))
    && decide (d.stack < 12) && decide (1 ≤ d.weight) && decide (d.weight < 2 ^ 24) && decide (1 ≤ d.nspan)
    && d.nel % 32 == 0 && decide (32 ≤ d.nel) && decide (d.nel ≤ 2 ^ 37) && decide (d.rnd < 2)
    && (d.rnd != 1 || d.tag != 0) && decide (d.span0 + d.nspan ≤ ceilDiv d.nel 4096)
    && (d.dst != s.node || (s.stacksOf (c / 8)).contains d.stack)
    && (d.stat == 0 || s.fld (.frd f) (statOff d.stat) 165 165 == 0 || s.fld (.frd f) (statOff d.stat) 164 160 == c)
    && addrFields d.srcSpace d.src && addrFields d.codesSpace d.codes
    && s.holds a d.srcSpace d.src (d.count * d.width)
    && s.reachable a d.codesSpace d.codes && s.inBound a d.codesSpace d.codes d.span0 (d.span0 + d.nspan : Nat)

/-- A send that its check ends (R201, R225). -/
def State.sendFail (s : State) (f c id code a1 a2 : Nat) : State :=
  (s.raise (.frd f) code a1 a2).endJob c id code (detailOf a1 a2)

/-- A send that a bus error ends after `n` of its spans (R201); a halted partition's send has stopped (R310). -/
def State.sendBusError (s : State) (f c : Nat) (j : Job) (n : Nat) : State :=
  if s.haltedPart (c / 8) then s else (s.raise (.frd f) 0x200A (descAddrOf j) 0).endJob c j.id 0x200A n

/-- A span quantized (R201): each element's code, kind and what it adds to statistics. A non-finite source of types 0 and
1 is written as 0; type 2 copies. -/
def SendDesc.quantize (d : SendDesc) (rnd : Rnd) (code i : Nat) (bs : List Byte) : List (Nat × Kind × Wrote) :=
  let w := d.width
  (List.range (d.spanLen i)).map (fun j =>
    let c0 := leNat (slice bs (w * j) w)
    let v := decodeElem (fmtOf d.fmt) c0
    if d.typ = 2 then (c0, .exact, Wrote.one .fp32 c0 .exact false 0)
    else
      let f : Fmt := if d.typ = 0 then .int8 else .bx16
      if v.nonFinite then (0, .nan (!v.isNan), { elem := 1, nonfin := 1 })
      else
        let y := v.scale (127 - (code : Int))
        let r := convert f false rnd (4096 * i + j) y.res
        (r.1, r.2, Wrote.one f r.1 r.2 false (nseOf f y r.1 r.2)))

/-- One span sent; none is a bus error of the gradient's read. -/
def State.sendSpan (s : State) (c f : Nat) (j : Job) (d : SendDesc) (path : Option (Nat × Nat)) (i code : Nat) :
    State × Bool :=
  let a : Access := { ctx := c, frond := some f }
  let n := d.spanLen i
  match s.readSpace a d.srcSpace (d.src + (i - d.span0) * 4096 * d.width) (n * d.width) with
  | (s1, none) => (s1, false)
  | (s1, some bs) =>
    let rnd : Rnd := if d.rnd = 1 then
        .stoch (entrySeed j.entry) (BitVec.ofNat 32 (d.tag * 65536 + d.stream)) (s1.ctx c).proth else .rne
    let es := d.quantize rnd code i bs
    let w := if d.typ = 0 then 1 else if d.typ = 1 then 2 else 4
    let f2 := if d.typ = 0 then Fmt.int8 else if d.typ = 1 then Fmt.bx16 else Fmt.fp32
    let sum := es.foldl (fun t e => t.add e.2.2) ({} : Wrote)
    let t := es.zipIdx.foldl (fun t e => t.count e.1.2.1 f2.code (4096 * i + e.2)) ({} : Tally)
    let h : Contrib := { kind := d.typ + 1, group := d.group, buffer := d.buffer, step := d.step, src := s1.node,
                         rank := d.rank, weight := d.weight, span := i, nblk := n / 32 - 1, code := if d.typ = 2 then 0 else code,
                         sat := sum.sat, maxabs := 0, count := 1, nonfin := sum.nonfin, stack := d.stack }
    let s2 := s1.handOver path d.stack
      { ctx := c, sender := .engine f (entryEngine j.entry).2, queue := some j.queue,
        bytes := h.bytes ++ es.flatMap (fun e => leBytes w e.1) }
    let s3 := if d.typ = 2 then s2
      else (s2.jobTally c j.id (.frd f) (EngineId.blk (.frond f (entryEngine j.entry).2)) t).ledgerAdd c f2.code sum
    (if d.stat = 0 then s3 else s3.statAdd f d.stat (es.map (fun e => (0, e.2.2))), true)

/-- A send operation. -/
def State.redSend (s : State) (c : Nat) (j : Job) : State :=
  let f := (entryEngine j.entry).1
  match s.frondDesc c j 0 64 with
  | (s1, none) => s1.endJob c j.id 0x200A 0
  | (s1, some bs) =>
    let d := SendDesc.ofBytes bs
    let a : Access := { ctx := c, frond := some f }
    let illegal (s : State) : State := s.sendFail f c j.id 0x500C d.arg (descAddrOf j / 64)
    if !s1.sendLegal c f d then illegal s1
    else
      let rd := if d.typ = 2 then (s1, some (List.replicate d.nspan 0#8))
                else s1.readSpace a d.codesSpace (d.codes + d.span0) d.nspan
      match rd with
      | (s2, none) => s2.sendBusError f c j 0
      | (s2, some codes) =>
        let home := d.dst = s2.node
        let path := s2.pathTo c d.group d.dst
        if d.typ ≠ 2 ∧ codes.any (· == 0xFF#8) then illegal s2
        else if ¬ home ∧ path.isNone then s2.sendFail f c j.id 0x500D d.arg d.dst
        else
          let s3 := if d.stat = 0 then s2 else s2.setFld (.frd f) (statOff d.stat) 165 160 (c + 32)
          let r := (List.range d.nspan).foldl (fun (r : State × Nat × Bool) i =>
            if !r.2.2 then r
            else match r.1.sendSpan c f j d (if home then none else path) (d.span0 + i) (codes.getD i 0#8).toNat with
              | (s4, true) => (s4, i + 1, true)
              | (s4, false) => (s4, i, false)) (s3, 0, true)
          if r.2.2 then r.1.endJob c j.id 0 0
          else r.1.sendBusError f c j r.2.1

def execRedSend (job : Nat) (s : State) : Host.Outcome State Fault Refusal :=
  onJob s job 3 (fun _ j => redOp j == 1) (fun c j => s.redSend c j)

/-! Residency (R207). -/

/-- Bytes of the staging SRAM that a resident span takes. -/
def RedEntry.residentBytes (e : RedEntry) : Nat := if e.typ = 0 then 8256 else 16448

/-- The resident spans of a stack: entry, span, order of the last acceptance, bytes. -/
def Stack.residents (x : Stack) : List (Nat × Nat × Nat × Nat) :=
  x.entries.flatMap (fun e => (e.2.spans.filter (fun p => p.2.resident)).map (fun p =>
    (e.1, p.1, p.2.last, e.2.residentBytes)))

/-- A line that a read or write for an entry failed on, kept for its close (R211). -/
def RedEntry.noteBus (e : RedEntry) (line : Option Nat) : RedEntry := { e with busError := e.busError <|> line }

/-- A resident span written to memory and its place freed. -/
def State.evictSpan (s : State) (k i sp : Nat) : State :=
  let e := (s.stack k).entry i
  let w1 := s.rhzWrite k e.ctx (e.sumsAt sp) (e.sumBytes sp)
  let w2 := w1.1.rhzWrite k e.ctx (e.tbl + 64 * sp) (e.tableBytes sp)
  let e1 := ((e.noteBus w1.2).noteBus w2.2).setSpan sp { e.span sp with resident := false, sums := [] }
  w2.1.setEntry k i e1

/-- The oldest resident spans written out until `need` bytes fit. -/
def State.makeRoom (s : State) (k need : Nat) : Nat → State
  | 0 => s
  | fuel + 1 =>
    let rs := (s.stack k).residents
    let cap := s.fld (.rhz k) Reg.RHZ_STAGE_SPLIT 4 0 * 2 ^ 20
    if (rs.foldl (fun t r => t + r.2.2.2) 0) + need ≤ cap then s
    else match rs with
      | [] => s
      | r :: rest =>
        let o := rest.foldl (fun a b => if b.2.2.1 < a.2.2.1 then b else a) r
        State.makeRoom (s.evictSpan k o.1 o.2.1) k need fuel

/-- A span made resident: with zero sums if it is untouched, with the sums read back otherwise. -/
def State.bringSpan (s : State) (k i sp : Nat) : State :=
  let e := (s.stack k).entry i
  let x := e.span sp
  if x.resident then s
  else
    let s1 := s.makeRoom k e.residentBytes ((s.stack k).residents.length + 1)
    let e1 := (s1.stack k).entry i
    if !bit x.flags 0 then s1.setEntry k i (e1.setSpan sp { e1.span sp with resident := true, sums := [] })
    else match s1.rhzRead k e.ctx (e.sumsAt sp) (e.spanLen sp * e.sumW) with
      | (s2, .error l) => s2.setEntry k i ((e1.noteBus (some l)).setSpan sp { e1.span sp with resident := true, sums := [] })
      | (s2, .ok bs) =>
        let sums := (List.range (e.spanLen sp)).foldl (fun m j =>
          SMap.set 0 m j (signed (8 * e.sumW) (leNat (slice bs (e.sumW * j) e.sumW)))) []
        s2.setEntry k i (e1.setSpan sp { e1.span sp with resident := true, sums := sums })

/-! Selection (R214). -/

/-- Whether a block of the buffer is selected under a check key. -/
def selected (key : BitVec 256) (group step block k : Nat) : Bool :=
  let e := aesEncrypt (leBytes 32 key.toNat) (leBytes 2 group ++ leBytes 4 step ++ leBytes 5 block ++ leBytes 5 0)
  leNat (e.take 4) % 2 ^ k == 0

/-- The checked blocks of a span. -/
def RedEntry.picksOf (e : RedEntry) (key : BitVec 256) (sp : Nat) : List Nat :=
  (((List.range (e.spanLen sp / 32)).map (· + 128 * sp)).filter (fun b => selected key e.group e.step b e.checkK)).take e.cap

/-! Acceptance (R206). -/

/-- Whether the kind of a message fits a buffer's type. -/
def kindFits (typ kind : Nat) : Bool :=
  match typ with
  | 0 => kind == 1
  | 1 => kind == 2 || kind == 0x12
  | _ => kind == 3 || kind == 0x13

/-- Row 4 of R206: whether the header is one that the buffer can take. -/
def RedEntry.contribOk (e : RedEntry) (h : Contrib) (n : Nat) : Bool :=
  kindFits e.typ h.kind && decide (h.span < e.nspan) && h.nblk + 1 == e.spanLen h.span / 32
    && n == 64 + e.spanLen h.span * h.elemW && decide (h.rank < e.nranks) && decide (1 ≤ h.weight)
    && (decide (0x10 ≤ h.kind) || decide (h.weight < 2 ^ 24)) && (e.typ == 2 || h.code == e.code h.span)

/-- A discard by an entry: counted, and reported once per buffer and step. -/
def State.redDiscard (s : State) (k i counter code a1 a2 : Nat) : State :=
  let e := (s.stack k).entry i
  let s1 := s.bump (.rhz k) (redCounter counter)
  if e.raised.contains code then s1
  else (s1.setEntry k i { e with raised := code :: e.raised }).raise (.rhz k) code a1 a2

/-- The raw copies of a payload's checked blocks written to their slots (R215). -/
def State.copyPicks (s : State) (k i : Nat) (h : Contrib) (payload : List Byte) : State :=
  let e := (s.stack k).entry i
  (e.span h.span).picks.zipIdx.foldl (fun s b =>
    let n := 32 * e.elemW
    match s.rhzWrite k e.ctx (e.checkAt h.span b.2 h.rank) (slice payload ((b.1 - 128 * h.span) * n) n) with
    | (s1, err) => s1.setEntry k i (((s1.stack k).entry i).noteBus err)) s

/-- An accepted contribution. -/
def State.redAccept (s : State) (k i : Nat) (h : Contrib) (payload : List Byte) : State :=
  let e0 := (s.stack k).entry i
  let first := !bit (e0.span h.span).flags 0
  let picks := if first then e0.picksOf (s.stack k).checkKey h.span else (e0.span h.span).picks
  let w := h.elemW
  let vals := (List.range (e0.spanLen h.span)).map (fun j => signed (8 * w) (leNat (slice payload (w * j) w)))
  -- the sums
  let s1 : State := if e0.typ = 2 then
      match s.rhzWrite k e0.ctx (e0.rowAt h.rank h.span) payload with
      | (s1, err) => s1.setEntry k i (((s1.stack k).entry i).noteBus err)
    else s.bringSpan k i h.span
  let e := (s1.stack k).entry i
  let x := e.span h.span
  let sums := if e.typ = 2 then [] else
    vals.zipIdx.foldl (fun m v => SMap.set 0 m v.2 (SMap.get 0 m v.2 + v.1)) x.sums
  let big := vals.foldl (fun m v => max m v.natAbs) 0
  let m := if h.kind = 1 then big else if h.kind = 2 then big / 256 else 0
  let seq := (s1.stack k).acceptSeq
  let x1 := { x with acc := x.acc ||| 2 ^ h.rank, weight := x.weight + h.weight, sat := sat32 (x.sat + h.sat),
                     nacc := sat32 (x.nacc + h.count), nonfin := min (x.nonfin + h.nonfin) 65535,
                     maxabs := max (max x.maxabs h.maxabs) m, flags := x.flags ||| 1 ||| (if picks.isEmpty then 0 else 4),
                     sums := sums, picks := picks, last := seq }
  let s2 := s1.setEntry k i { e.setSpan h.span x1 with level2 := e.level2 || h.kind == 0x12 }
  let s3 := s2.setStack k { s2.stack k with acceptSeq := seq + 1 }
  (s3.copyPicks k i h payload).bump (.rhz k) (redCounter 0)

/-- Whether every span holds all the ranks it takes. -/
def RedEntry.complete (e : RedEntry) : Bool := (List.range e.nspan).all (fun i => (e.span i).acc == e.takes i)

/-- The early close: an OPEN entry whose spans hold all the ranks they take becomes CLOSING (R209, R222). -/
def State.earlyClose (s : State) (k i : Nat) : State :=
  let e := (s.stack k).entry i
  if e.state = .opened ∧ e.complete then s.setEntry k i { e with state := .closing } else s

/-- The decision of R206 on a message of context `c`. An entry is open up to the end of its cycle D, in replay too
(R208, R222). -/
def State.redReceive (s : State) (k c : Nat) (bytes : List Byte) : State :=
  let h := Contrib.ofBytes bytes
  let a1 := h.buffer + h.group * 65536
  let rs := h.rank + h.span % 2 ^ 24 * 256
  match (s.stack k).findEntry c h.group h.buffer with
  | none =>
    let x := s.stack k
    let s1 := s.bump (.rhz k) (redCounter 3)
    let id := (c, h.group, h.buffer, h.step)
    if x.unarmed.contains id then s1
    else (s1.setStack k { s1.stack k with unarmed := id :: x.unarmed }).raise (.rhz k) 0x5003 a1 h.step
  | some i =>
    let e := (s.stack k).entry i
    let isOpen := e.state == .opened && decide (s.rhzCycle ≤ e.cycle)
    if (!isOpen && h.step == e.step) || (isOpen && h.step + 1 == e.step) then s.redDiscard k i 1 0x5004 a1 rs
    else if !isOpen then s.redDiscard k i 3 0x5003 a1 h.step
    else if !e.contribOk h bytes.length then s.redDiscard k i 3 0x5007 a1 rs
    else if h.step ≠ e.step then s.redDiscard k i 2 0x5005 a1 h.step
    else if bit (e.span h.span).acc h.rank then s.redDiscard k i 3 0x5006 a1 rs
    else if e.replay ∧ !bit (e.takes h.span) h.rank then s.redDiscard k i 1 0x5004 a1 rs
    else (s.redAccept k i h (bytes.drop 64)).earlyClose k i

/-- The last flit of the `src`-th message in flight to a stack arrives. Messages of one requester arrive in the order in
which they were issued (R17). -/
def execContributionReceived (stack src : Nat) (s : State) : Host.Outcome State Fault Refusal :=
  if ¬ stack < 12 then .fault .noSuchUnit
  else if !s.rhzRuns stack then notEnabled "the Rhizoid does not work"
  else
    let x := s.stack stack
    match x.inbox[src]? with
    | none => notEnabled "no such message is in flight"
    | some m =>
      if (x.inbox.take src).any (fun o => o.sender == m.sender) then notEnabled "an earlier message of its requester comes first"
      else .next ((s.setStack stack { x with inbox := x.inbox.eraseIdx src }).redReceive stack m.ctx m.bytes)

/-! The deadline (R208, R209, R222). -/

/-- Cycle D has passed, or the spans are complete: the entry becomes CLOSING. The cycle after D may begin within the
present timebase cycle; what arrives after this step is then late for every entry whose D is not later. -/
def execRedDeadline (stack entry : Nat) (s : State) : Host.Outcome State Fault Refusal :=
  if ¬ (stack < 12 ∧ entry < 64) then .fault .noSuchUnit
  else if !s.rhzRuns stack then notEnabled "the Rhizoid does not work"
  else
    let e := (s.stack stack).entry entry
    let s1 := s.setEntry stack entry { e with state := .closing }
    if e.state ≠ .opened then notEnabled "the entry is not OPEN"
    else if e.complete then .next s1
    else if !s.rhzReaches (e.cycle + 1) then notEnabled "cycle D has not passed"
    else .next { s1 with rhzNow := max s.rhzNow (e.cycle + 1) }

/-! The close (R210). -/

/-- A list of FP32 rows added in order under R38, rounding after every addition; how the last addition rounded each
element (R219). -/
def fp32Chain (rows : List (List Nat)) (t : Tally) (index : Nat) : Tally × List (Nat × Kind) :=
  match rows with
  | [] => (t, [])
  | r0 :: rest =>
    rest.foldl (fun (a : Tally × List (Nat × Kind)) row =>
      let sums := (a.2.zip row).map (fun x =>
        convert .fp32 false .rne 0 (addVal (decodeElem .fp32 x.1.1) (decodeElem .fp32 x.2)))
      (sums.zipIdx.foldl (fun t c => t.count c.1.2 0 (index + c.2)) a.1, sums)) (t, r0.map (fun c => (c, .exact)))

/-- The FP32 words of a byte list. -/
def fp32Words (n : Nat) (bs : List Byte) : List Nat := (List.range n).map (fun j => leNat (slice bs (4 * j) 4))

/-- The ranks in a mask, in increasing number. -/
def ranksOf (mask n : Nat) : List Nat := (List.range n).filter (fun r => bit mask r)

/-- Sums and table bytes written for an entry, its first bus error kept. -/
def State.entryWrite (s : State) (k i off : Nat) (bs : List Byte) : State :=
  let e := (s.stack k).entry i
  match s.rhzWrite k e.ctx off bs with
  | (s1, err) => s1.setEntry k i (((s1.stack k).entry i).noteBus err)

/-- The rows of the accepted ranks of a type-2 span; a row that cannot be read is left out and its line kept. -/
def State.chainRows (s : State) (k i sp : Nat) : State × List (List Nat) :=
  let e := (s.stack k).entry i
  (ranksOf (e.span sp).acc e.nranks).foldl (fun (r : State × List (List Nat)) rank =>
    match r.1.rhzRead k e.ctx (e.rowAt rank sp) (4 * e.spanLen sp) with
    | (s1, .error l) => (s1.setEntry k i (((s1.stack k).entry i).noteBus (some l)), r.2)
    | (s1, .ok bs) => (s1, r.2 ++ [fp32Words (e.spanLen sp) bs])) (s, [])

/-- Step 2 of R210 for a span: its sums and, once `next` is known, its table entry. -/
def State.closeSums (s : State) (k i sp : Nat) (t : Tally) : State × Tally :=
  let e := (s.stack k).entry i
  let x := e.span sp
  if e.typ = 2 then
    let rs := s.chainRows k i sp
    let c := fp32Chain rs.2 t (4096 * sp)
    let out := if c.2.isEmpty then List.replicate (e.spanLen sp) (0, Kind.exact) else c.2
    let w := if rs.2.length < 2 then ({} : Wrote)
             else out.foldl (fun w x => w.add (Wrote.one .fp32 x.1 x.2 false 0)) ({} : Wrote)
    ((rs.1.entryWrite k i (e.sumsAt sp) (out.flatMap (fun x => leBytes 4 x.1))).ledgerAdd e.ctx 0 w, c.1)
  else if x.resident ∨ !bit x.flags 0 then
    let s1 := s.entryWrite k i (e.sumsAt sp) (e.sumBytes sp)
    let e1 := (s1.stack k).entry i
    (s1.setEntry k i (e1.setSpan sp { e1.span sp with resident := false, sums := [] }), t)
  else (s, t)

/-- The next code of a span, and whether it was clamped (R213). -/
def RedEntry.steer (e : RedEntry) (sp : Nat) : Nat × Bool :=
  let x := e.span sp
  let code : Int := e.code sp
  let elem := x.nacc * e.spanLen sp
  let want : Int := if 0 < x.nacc then
      (if 0 < x.nonfin ∨ e.thr * elem < x.sat * 65536 then code + 1
       else if e.lowerEn ∧ x.maxabs ≤ 31 then code - 1 else code)
    else code
  let next := min (max want e.cmin) e.cmax
  (next.toNat, decide (next ≠ want))

/-- The decision record of R221. -/
def RedEntry.decision (e : RedEntry) : List Byte :=
  let miss := (List.range e.nspan).filter (fun i => (e.span i).acc ≠ e.full)
  leBytes 2 e.group ++ leBytes 2 e.buffer ++ leBytes 4 e.step ++ leBytes 4 e.nspan ++ leBytes 4 miss.length
    ++ leBytes 48 0 ++ miss.flatMap (fun i => leBytes 4 i ++ leBytes 28 0 ++ leBytes 32 (e.span i).acc)

/-- The step that the queued updates and skips of a layer add (R231). -/
def Stack.advances (x : Stack) (hdr : Nat) : Nat :=
  (x.lanes.filter (fun l => (l.kind == .update || l.kind == .skip) && l.hdr == hdr)).length

/-- What a lane command queued by a close carries of its buffer. -/
def RedEntry.closed (e : RedEntry) : Closed :=
  { group := e.group, buffer := e.buffer, step := e.step, buf := e.sumsAt 0, tbl := e.tbl, typ := e.typ,
    nranks := e.nranks, nel := e.nel,
    codes := (List.range e.nspan).map (fun i => BitVec.ofNat 8 (e.span i).next), level2 := e.level2 }

/-- A lane command queued by a close. -/
def State.queueLane (s : State) (k : Nat) (e : RedEntry) (kind : LaneKind) : State :=
  let x := s.stack k
  s.setStack k { x with lanes := x.lanes ++ [{ kind := kind, ctx := e.ctx, closed := some e.closed, hdr := e.target,
                                                proth := e.proth }] }

/-- First span that satisfies a test. -/
def RedEntry.firstSpan (e : RedEntry) (q : Nat → Bool) : Option Nat := (List.range e.nspan).find? q

/-- Rows 3 and 4 of R211: the first block that the check found different, and the first span of a replay that lacks a
recorded rank. -/
def RedEntry.refusal34 (e : RedEntry) (mismatch : Option Nat) : Option (Nat × Nat) :=
  match mismatch with
  | some b => some (0x500A, b)
  | none => if e.replay then
      (e.firstSpan (fun i => (e.span i).acc &&& e.takes i != e.takes i)).map (fun i => (0x500F, i)) else none

/-- The outcome of a kind-0 close (R211): its code and second argument, 0 for none. -/
def State.outcome0 (s : State) (k : Nat) (e : RedEntry) (mismatch : Option Nat) : State × Nat × Nat :=
  match e.busError with
  | some l => (s, 0x500E, l)
  | none => match s.rhzRead k e.ctx (e.target + 4) 4 with
    | (s1, .error l) => (s1, 0x500E, l)
    | (s1, .ok bs) =>
      let next := (leNat bs + (s1.stack k).advances e.target) % 2 ^ 32
      if next ≠ e.step then (s1.queueLane k e (.fault 0x5009), 0x5009, next)
      else match e.refusal34 mismatch with
        | some (0x500A, b) => (s1.queueLane k e (.fault 0x500A), 0x500A, b)
        | some r => (s1, r)
        | none =>
          match e.firstSpan (fun i => decide (0 < (e.span i).nonfin)),
              e.firstSpan (fun i => decide ((e.span i).weight < e.quorum)) with
          | some i, _ => (s1.queueLane k e .skip, 0x5010, i)
          | none, some i => (s1.queueLane k e .skip, 0x5008, i)
          | none, none => (s1.queueLane k e .update, 0, 0)

/-- The sums of every span read back from memory. -/
def State.readSums (s : State) (k : Nat) (e : RedEntry) : State × Except Nat (List (List Byte)) :=
  (List.range e.nspan).foldl (fun (r : State × Except Nat (List (List Byte))) i =>
    match r.2 with
    | .error _ => r
    | .ok l => match r.1.rhzRead k e.ctx (e.sumsAt i) (e.spanLen i * e.sumW) with
      | (s1, .error x) => (s1, .error x)
      | (s1, .ok bs) => (s1, .ok (l ++ [bs]))) (s, .ok [])

/-- The partial of a span (R217). -/
def State.partialOf (s : State) (e : RedEntry) (i : Nat) (sums : List Byte) : List Byte :=
  let x := e.span i
  let h : Contrib := { kind := if e.typ = 0 then 0x12 else 0x13, group := e.group, buffer := e.fwdBuffer, step := e.step,
                       src := s.node, rank := e.fwdRank, weight := x.weight, span := i, nblk := e.spanLen i / 32 - 1,
                       code := if e.typ = 0 then e.code i + 8 else 0, sat := min x.sat 4096, maxabs := x.maxabs, count := x.nacc,
                       nonfin := x.nonfin, stack := e.fwdStack }
  h.bytes ++ sums

/-- The outcome of a kind-1 close (R217, R486). -/
def State.outcome1 (s : State) (k : Nat) (e : RedEntry) (mismatch : Option Nat) : State × Nat × Nat :=
  match e.busError, e.refusal34 mismatch with
  | some l, _ => (s, 0x500E, l)
  | none, some r => (s, r)
  | none, none =>
    let home := e.fwdNode = s.node
    let path := s.pathTo e.ctx e.group e.fwdNode
    if ¬ home ∧ path.isNone then (s, 0x500D, e.fwdNode)
    else match s.readSums k e with
      | (s1, .error l) => (s1, 0x500E, l)
      | (s1, .ok sums) =>
        ((List.range e.nspan).foldl (fun s i =>
          if (e.span i).nacc = 0 then s
          else s.handOver (if home then none else path) e.fwdStack
            { ctx := e.ctx, sender := .stack k, bytes := s.partialOf e i (nth [] sums i) }) s1, 0, 0)

/-- The value of a sum divided by W (R195, R218). -/
def sumValue (typ code : Nat) (bs : List Byte) : Val :=
  if typ = 2 then decodeElem .fp32 (leNat bs)
  else Val.ofInt (signed (8 * bs.length) (leNat bs)) ((code : Int) - (if typ = 0 then 133 else 141))

/-- The elements of a kind-2 close for one span (R218). -/
def RedEntry.held (e : RedEntry) (i : Nat) (sums : List Byte) : List (Nat × Kind) :=
  let x := e.span i
  (List.range (e.spanLen i)).map (fun j =>
    if 0 < x.nonfin then (0x7FC00000, .nan false)
    else
      let v := sumValue e.typ (e.code i) (slice sums (e.sumW * j) e.sumW)
      if !e.divide then convert .fp32 false .rne 0 v.res
      else if x.weight = 0 then (0, .exact)
      else convert .fp32 false .rne 0 (divVal v (Val.ofInt x.weight 0)))

/-- The outcome of a kind-2 close (R218). -/
def State.outcome2 (s : State) (k : Nat) (e : RedEntry) (mismatch : Option Nat) (t : Tally) : State × Nat × Nat × Tally :=
  match e.busError, e.refusal34 mismatch with
  | some l, _ => (s, 0x500E, l, t)
  | none, some r => (s, r.1, r.2, t)
  | none, none => match s.readSums k e with
    | (s1, .error l) => (s1, 0x500E, l, t)
    | (s1, .ok sums) =>
      let out := sums.zipIdx.flatMap (fun b => e.held b.2 b.1)
      let t1 := out.zipIdx.foldl (fun t c => t.count c.1.2 0 c.2) t
      let w := out.foldl (fun w x => w.add (Wrote.one .fp32 x.1 x.2 false 0)) ({} : Wrote)
      match s1.rhzWrite k e.ctx e.target (out.flatMap (fun x => leBytes 4 x.1)) with
      | (s2, some l) => (s2.ledgerAdd e.ctx 0 w, 0x500E, l, t1)
      | (s2, none) => (s2.ledgerAdd e.ctx 0 w, 0, 0, t1)

/-- Steps 6 and 7 of R210, unless an alarm of their own accesses has stopped the Rhizoid (R310). The record's code is that of the refusal, or else 0x500B where steering clamped a code (log
entry 22). -/
def State.redFinish (s : State) (k i : Nat) (mismatch : Option Nat) (t : Tally) : State :=
  let e := (s.stack k).entry i
  let r : State × Nat × Nat × Tally := match e.kind with
    | 0 => let o := s.outcome0 k e mismatch
           (o.1, o.2.1, o.2.2, t)
    | 1 => let o := s.outcome1 k e mismatch
           (o.1, o.2.1, o.2.2, t)
    | _ => s.outcome2 k e mismatch t
  if !r.1.rhzRuns k then r.1
  else
  let tc := (Tally.withCap {} r.2.2.2).capped
  let s1 := tc.events.foldl (fun s v => s.raise (.rhz k) v.1 v.2.1 v.2.2) r.1
  let e1 := (s1.stack k).entry i
  let s2 := (s1.setEntry k i { e1 with state := .closed, checking := false }).bump (.rhz k) (redCounter 4)
  let s3 := if r.2.1 = 0 then s2 else s2.raise (.rhz k) r.2.1 e.arg r.2.2.1
  let code := if r.2.1 ≠ 0 then r.2.1 else if 0 < e.clamped then 0x500B else 0
  s3.postRecord e.ctx (recordBytes code 0 4 tc (e.buffer + e.group * 65536 + e.step * 2 ^ 32))

/-- Steps 1 to 4 of R210, and 6 and 7 where no check runs. Where step 3 does not act, next stays the code (log entry
23). -/
def State.redClose (s : State) (k i : Nat) : State :=
  let e0 := (s.stack k).entry i
  let spans := List.range e0.nspan
  let r := spans.foldl (fun (r : State × Tally) sp => r.1.closeSums k i sp r.2) (s, {})
  -- step 3, and the flag of a span below quorum
  let e1 := (r.1.stack k).entry i
  let steers := e1.kind == 0 && e1.typ != 2
  let e2 := spans.foldl (fun (e : RedEntry) sp =>
    let x := e.span sp
    let n := if steers then e.steer sp else (e.code sp, false)
    let low := if x.weight < e.quorum then 2 else 0
    { e.setSpan sp { x with next := n.1, flags := x.flags ||| low } with clamped := e.clamped + (if n.2 then 1 else 0) }) e1
  let s2 := (r.1.setEntry k i e2).entryWrite k i e2.tbl (spans.flatMap e2.tableBytes)
  let s3 := if e2.clamped = 0 then s2 else s2.raise (.rhz k) 0x500B e2.arg e2.clamped
  let s4 := if e2.capture then (s3.entryWrite k i e2.recAt e2.decision).capRecord e2.ctx 4 e2.decision else s3
  if e2.chkEn then s4.setEntry k i { (s4.stack k).entry i with checking := true, tally := r.2 }
  else s4.redFinish k i none r.2

def execRedClose (stack entry : Nat) (s : State) : Host.Outcome State Fault Refusal :=
  if ¬ (stack < 12 ∧ entry < 64) then .fault .noSuchUnit
  else if !s.rhzRuns stack then notEnabled "the Rhizoid does not work"
  else
    let e := (s.stack stack).entry entry
    if e.state ≠ .closing ∨ e.checking then notEnabled "the entry is not about to close"
    else .next (s.redClose stack entry)

/-! The sampled check (R215, R220). -/

/-- One checked block: the copies of its accepted ranks summed again and compared with the sums. -/
def State.checkBlock (s : State) (k i sp j block : Nat) : State × Bool :=
  let e := (s.stack k).entry i
  let n := 32 * e.elemW
  let at_ := (block - 128 * sp) * 32
  let rs := (ranksOf (e.span sp).acc e.nranks).foldl (fun (r : State × List (List Byte)) rank =>
    match r.1.rhzRead k e.ctx (e.checkAt sp j rank) n with
    | (s1, .error l) => (s1.setEntry k i (((s1.stack k).entry i).noteBus (some l)), r.2)
    | (s1, .ok bs) => (s1, r.2 ++ [bs])) (s, [])
  match rs.1.rhzRead k e.ctx (e.sumsAt sp + at_ * e.sumW) (32 * e.sumW) with
  | (s1, .error l) => (s1.setEntry k i (((s1.stack k).entry i).noteBus (some l)), true)
  | (s1, .ok sums) =>
    if e.typ = 2 then
      (s1, ((fp32Chain (rs.2.map (fp32Words 32)) {} 0).2.map Prod.fst) == fp32Words 32 sums)
    else
      let w := e.elemW
      let again := (List.range 32).map (fun q => rs.2.foldl (fun t bs => t + signed (8 * w) (leNat (slice bs (w * q) w))) 0)
      (s1, again == (List.range 32).map (fun q => signed (8 * e.sumW) (leNat (slice sums (e.sumW * q) e.sumW))))

/-- Step 5 of R210, then steps 6 and 7. -/
def State.redCheck (s : State) (k i : Nat) : State :=
  let e := (s.stack k).entry i
  let work := (List.range e.nspan).flatMap (fun sp => (e.span sp).picks.zipIdx.map (fun b => (sp, b.2, b.1)))
  let r := work.foldl (fun (r : State × List (Nat × Nat)) b =>
    match r.1.checkBlock k i b.1 b.2.1 b.2.2 with
    | (s1, true) => (s1, r.2)
    | (s1, false) => (s1, r.2 ++ [(b.1, b.2.2)])) (s, [])
  let s1 := r.1.bump (.rhz k) (redCounter 5) work.length
  let s2 := (r.2.map Prod.fst).eraseDups.foldl (fun s sp =>
    let e := (s.stack k).entry i
    let e1 := e.setSpan sp { e.span sp with flags := (e.span sp).flags ||| 8 }
    (s.setEntry k i e1).entryWrite k i (e1.tbl + 64 * sp) (e1.tableBytes sp)) s1
  s2.redFinish k i (r.2.head?.map Prod.snd) e.tally

def execSampledCheck (stack entry : Nat) (s : State) : Host.Outcome State Fault Refusal :=
  if ¬ (stack < 12 ∧ entry < 64) then .fault .noSuchUnit
  else if !s.rhzRuns stack then notEnabled "the Rhizoid does not work"
  else
    let e := (s.stack stack).entry entry
    if e.state ≠ .closing ∨ !e.checking then notEnabled "the close does not stand at its check"
    else .next (s.redCheck stack entry)

end Sys2Proof.Machine
end

