-- ==== Sys2Proof/Machine/Layer.lean ====
section
/-!
DEFINITION. Layer headers, the arithmetic of an update on one element, micro-programs, exponent steering and the watch
record (10_parameter_update.md, R226 to R228, R232 to R242; 08_training_numerics.md, R179 to R182, R185).
-/
namespace Sys2Proof.Machine

/-! The header (R226). -/

/-- A layer header: its 192 bytes as one little-endian number. -/
structure LHdr where
  d : Nat
  deriving DecidableEq, Repr

def LHdr.ofBytes (bs : List Byte) : LHdr := { d := leNat (bs.take 192) }
def LHdr.bytes (h : LHdr) : List Byte := leBytes 192 h.d
def LHdr.set (h : LHdr) (hi lo v : Nat) : LHdr := { d := setBits h.d hi lo v }
/-- Byte `i`, signed. -/
def LHdr.sbyte (h : LHdr) (i : Nat) : Int := signed 8 (h.d >>> (8 * i))
def LHdr.setSbyte (h : LHdr) (i : Nat) (v : Int) : LHdr := h.set (8 * i + 7) (8 * i) (ofSigned 8 v)

def LHdr.rule (h : LHdr) : Nat := bits h.d 7 0
def LHdr.fp16 (h : LHdr) : Bool := bit h.d 8
def LHdr.fmask (h : LHdr) : Bool := bit h.d 9
def LHdr.fault (h : LHdr) : Bool := bit h.d 10
def LHdr.torn (h : LHdr) : Bool := bit h.d 11
def LHdr.proth (h : LHdr) : Bool := bit h.d 12
def LHdr.joint (h : LHdr) : Bool := bit h.d 13
def LHdr.hm (h : LHdr) : Nat := bits h.d 18 16
def LHdr.slot (h : LHdr) : Nat := bits h.d 21 19
def LHdr.step (h : LHdr) : Nat := bits h.d 63 32
def LHdr.t0 (h : LHdr) : Nat := bits h.d 95 64
def LHdr.skips (h : LHdr) : Nat := bits h.d 127 96
def LHdr.nel (h : LHdr) : Nat := bits h.d 167 128
def LHdr.k1 (h : LHdr) : Int := h.sbyte 24
def LHdr.k1n (h : LHdr) : Int := h.sbyte 25
def LHdr.k2 (h : LHdr) : Int := h.sbyte 26
def LHdr.k2n (h : LHdr) : Int := h.sbyte 27
def LHdr.ku (h : LHdr) : Int := h.sbyte 28
def LHdr.tag (h : LHdr) : Nat := bits h.d 303 288
def LHdr.last (h : LHdr) : Nat := bits h.d 319 304
def LHdr.hseed (h : LHdr) : Nat := bits h.d 383 320
/-- The offset word of area `i`: w, m1, m2, mask, u. -/
def LHdr.area (h : LHdr) (i : Nat) : Nat := bits h.d (512 + 64 * i + 36) (512 + 64 * i)
def LHdr.rel (h : LHdr) : Nat := bits h.d 868 832
def LHdr.relEn (h : LHdr) : Bool := bit h.d 895
/-- Hyperparameter word `i` of lr, lrf, β1, β2, ε, λ, φ, warm, tend. -/
def LHdr.hyper (h : LHdr) (i : Nat) : Nat := bits h.d (1024 + 32 * i + 31) (1024 + 32 * i)
def LHdr.hval (h : LHdr) (i : Nat) : Val := decodeElem .fp32 (h.hyper i)
def LHdr.warm (h : LHdr) : Nat := h.hyper 7
def LHdr.tend (h : LHdr) : Nat := h.hyper 8

/-- Whether rule uses M2 (R227). -/
def usesM2 (rule : Nat) : Bool := rule == 1 || rule == 2 || rule == 5

/-- Bytes of an element of a moment or of area u (R227). -/
def momentW (proth : Bool) : Nat := if proth then 4 else 2

/-- Sizes of the areas w, m1, m2, mask and u in bytes; 0 for one that is not used (R227). -/
def LHdr.sizes (h : LHdr) (proth : Bool) : List Nat :=
  let m := momentW proth
  [2 * h.nel, m * h.nel, if usesM2 h.rule then m * h.nel else 0, if h.fmask then ceilDiv h.nel 256 else 0,
   if h.rule = 2 then m * h.nel else 0]

/-- Whether a value is finite and not negative. -/
def Val.notNeg : Val → Bool
  | .fin n m _ => !n || m == 0
  | _ => false

/-- Whether two byte ranges meet. -/
def meets (a b : Nat × Nat) : Bool := decide (a.1 < b.1 + b.2) && decide (b.1 < a.1 + a.2)

/-- The conditions of R226 on fields, each with the byte offset of its field. -/
def LHdr.fieldsOk (h : LHdr) : List (Nat × Bool) :=
  let v := h.hval
  let one : Val := .fin false 1 0
  let inB (k : Int) (i : Nat) : Bool := decide (h.sbyte i ≤ k) && decide (k ≤ h.sbyte (i + 1))
  [(0, decide (h.rule ≤ 5)), (4, decide (h.t0 ≤ h.step)),
   (16, h.nel % 32 == 0 && decide (32 ≤ h.nel) && decide (h.nel ≤ 2 ^ 37)),
   (24, inB h.k1 29), (25, inB h.k1n 29), (26, inB h.k2 31), (27, inB h.k2n 31), (28, inB h.ku 33),
   (29, decide (h.sbyte 29 ≤ h.sbyte 30)), (31, decide (h.sbyte 31 ≤ h.sbyte 32)), (33, decide (h.sbyte 33 ≤ h.sbyte 34)),
   (36, h.tag != 0),
   (128, (v 0).notNeg), (132, (v 1).notNeg),
   (136, (v 2).notNeg && Val.cmp (v 2) one == .lt), (140, (v 3).notNeg && Val.cmp (v 3) one == .lt),
   (144, !usesM2 h.rule || ((v 4).notNeg && (v 4).asInt.1 != 0)),
   (148, (v 5).notNeg), (152, (v 6).notNeg), (160, h.tend == 0 || decide (h.warm < h.tend))]

/-- The conditions of R227 on areas, each with the byte offset of its word, where the release list has `n` entries: an
area that meets an earlier one fails. -/
def State.areasOk (s : State) (k c hdr : Nat) (h : LHdr) (proth joint : Bool) (n : Nat) : List (Nat × Bool) :=
  let rel := if h.relEn then [(104, h.rel, 64 + 16 * n)] else []
  let areas := (h.sizes proth).zipIdx.map (fun x => (64 + 8 * x.2, h.area x.2, x.1))
  let used := (areas.filter (fun a => a.2.2 != 0)) ++ rel
  (areas.filter (fun a => a.2.2 == 0)).map (fun a => (a.1, a.2.1 == 0))
    ++ [(0, hdr % 64 == 0 && s.ownsRange k c hdr 192 joint)]
    ++ used.map (fun a => (a.1, a.2.1 % 64 == 0 && s.ownsRange k c a.2.1 a.2.2 joint
         && !meets a.2 (hdr, 192) && !used.any (fun b => decide (b.1 < a.1) && meets a.2 b.2)))

/-- The lowest byte offset whose condition fails. -/
def firstBad (l : List (Nat × Bool)) : Option Nat :=
  l.foldl (fun o x => if x.2 then o else match o with
    | some y => some (min x.1 y)
    | none => some x.1) none

/-- Row 1 of R243 without the rule, where the release list has `n` entries: the first failing field of an illegal
header. -/
def State.headerBad (s : State) (k c hdr : Nat) (h : LHdr) (proth joint : Bool) (n : Nat) : Option Nat :=
  firstBad (h.fieldsOk ++ s.areasOk k c hdr h proth joint n)

/-- What the legality check of a header finds: legal, the first failing field, or a line that could not be read. -/
inductive HdrFound where
  | legal
  | bad (field : Nat)
  | bus (line : Nat)
  deriving DecidableEq, Repr

/-- A header checked under R226 and R227. The length of its release list (R247) is read like any line of the update
engine; it is at most 64 entries. A field that fails whatever the length is reported before a read that fails. -/
def State.headerCheck (s : State) (k c hdr : Nat) (h : LHdr) : State × HdrFound :=
  let found (s : State) (n : Nat) : HdrFound := match s.headerBad k c hdr h h.proth h.joint n with
    | some o => .bad o
    | none => .legal
  -- byte 104, the list's word, is the only field that its length can make fail
  let settled : Bool := match found s 0 with
    | .bad o => decide (o ≤ 104)
    | _ => false
  if !h.relEn ∨ settled then (s, found s 0)
  else match s.rhzRead k c h.rel 64 with
    | (s1, .error l) => (s1, if found s 0 = .legal then .bus l else found s 0)
    | (s1, .ok bs) => (s1, found s1 (min 64 (bs.getD 2 0#8).toNat))

/-- The joint policy record of a context in a stack (R252): rule, valid, and the nine hyperparameter words. -/
def State.jpol (s : State) (k c : Nat) : Nat × Bool × Nat :=
  let o := Reg.RHZ_JPOL + 64 * (c % 8)
  (s.fld (.rhz k) o 7 0, s.fld (.rhz k) o 8 8 == 1, s.words (.rhz k) (o + 4) 9)

/-- Row 4 of R243: whether the rule, and in a joint context the hyperparameters, are allowed (R242, R244). -/
def State.ruleAllowed (s : State) (k c : Nat) (h : LHdr) : Bool :=
  let x := s.ctx c
  let p := SMap.get {} (s.stack k).progs h.slot
  let j := s.jpol k c
  (h.rule != 5 || (!x.joint && !x.proth && p.valid && p.owner == c))
    && (!x.joint || (j.2.1 && j.1 == h.rule && j.2.2 == bits h.d 1311 1024))

/-! Scalars (R232). -/

/-- One rounding to FP32 (R232). -/
def f32 (x : Res) : Val := roundTo .fp32 x
def fAdd (a b : Val) : Val := f32 (addVal a b)
def fSubV (a b : Val) : Val := f32 (addVal a (negVal b))
def fMul (a b : Val) : Val := f32 (mulVal a b)
def fDiv (a b : Val) : Val := f32 (divVal a b)
def natVal (n : Nat) : Val := .fin false n 0

/-- 1 − β^t, exact, for β in [0, 1). -/
def oneMinusPow (b : Val) (t : Nat) : Val :=
  match b with
  | .fin _ m e => (addVal (.fin false 1 0) (.fin true (m ^ t) (e * t))).val
  | v => v

/-- The scalars of an update. -/
structure Scalars where
  t : Nat
  lr : Val
  bc1 : Val
  bc2 : Val
  c1 : Val
  c2 : Val
  b1 : Val
  b2 : Val
  eps : Val
  lam : Val
  phi : Val
  deriving DecidableEq, Repr

def LHdr.scalars (h : LHdr) : Scalars :=
  let t := h.step - h.t0 + 1
  let lr := h.hval 0
  let lrf := h.hval 1
  let one : Val := .fin false 1 0
  let lrt : Res :=
    if t < h.warm then divVal (mulVal lr (natVal t)).val (natVal h.warm)
    else if h.tend ≠ 0 ∧ t < h.tend then
      let num := (addVal (mulVal lr (natVal (h.tend - h.warm))).val
        (mulVal (addVal lrf (negVal lr)).val (natVal (t - h.warm))).val).val
      divVal num (natVal (h.tend - h.warm))
    else if h.tend ≠ 0 then lrf.res
    else lr.res
  { t := t, lr := f32 lrt, bc1 := f32 (oneMinusPow (h.hval 2) t).res, bc2 := f32 (oneMinusPow (h.hval 3) t).res,
    c1 := fSubV one (h.hval 2), c2 := fSubV one (h.hval 3), b1 := h.hval 2, b2 := h.hval 3, eps := h.hval 4,
    lam := h.hval 5, phi := h.hval 6 }

/-! The rules on one element (R236 to R238). -/

/-- What a rule gives for an element: mn, vn where the rule has a second moment, and u (q in pass 1 of Sphagnum). -/
structure RuleOut where
  mn : Val
  vn : Option Val
  u : Val
  deriving DecidableEq, Repr

/-- sign(c), with sign(0) = 0. -/
def signVal (v : Val) : Val :=
  match v with
  | .nan => .nan
  | .inf n => .fin n 1 0
  | .fin n m _ => if m = 0 then .fin false 0 0 else .fin n 1 0

/-- R236, and pass 1 of R237 with `lrOn` false. -/
def bracken (z : Scalars) (lrOn : Bool) (g m v w : Val) : RuleOut :=
  let mn := fAdd (fMul z.b1 m) (fMul z.c1 g)
  let vn := fAdd (fMul z.b2 v) (fMul z.c2 (fMul g g))
  let den := fAdd (f32 (sqrtVal (fDiv vn z.bc2))) z.eps
  let d := fDiv (fDiv mn z.bc1) den
  let q := fAdd d (fMul z.lam w)
  { mn := mn, vn := some vn, u := if lrOn then fMul z.lr q else q }

/-- R238. -/
def spleenwort (z : Scalars) (g m w : Val) : RuleOut :=
  let c := fAdd (fMul z.b1 m) (fMul z.c1 g)
  { mn := fAdd (fMul z.b2 m) (fMul z.c2 g), vn := none, u := fMul z.lr (fAdd (signVal c) (fMul z.lam w)) }

/-- R238. -/
def clubmoss (z : Scalars) (g m w : Val) : RuleOut :=
  let mn := fAdd (fMul z.b1 m) g
  { mn := mn, vn := none, u := fMul z.lr (fAdd mn (fMul z.lam w)) }

/-! Micro-programs (R241, R242). -/

/-- One instruction on the register file. -/
def microStep (consts : List Val) (r : List Val) (w : Nat) : List Val :=
  let x := nth .nan r (bits w 23 20)
  let y := nth .nan r (bits w 19 16)
  let z := nth .nan r (bits w 15 12)
  let imm := bits w 11 4
  let out : Val := match bits w 31 28 with
    | 0 => fAdd x y
    | 1 => fSubV x y
    | 2 => fMul x y
    | 3 => f32 (fmaVal x y z)
    | 4 => fDiv x y
    | 5 => f32 (sqrtVal x)
    | 6 => f32 (rsqrtVal x)
    | 7 => f32 (maxMinVal true x y).res
    | 8 => f32 (maxMinVal false x y).res
    | 9 => f32 (absVal x).res
    | 10 => f32 (negVal x).res
    | 11 => signVal x
    | 12 => f32 (if (match x with
        | .nan => false
        | v => Val.cmp v (.fin false 0 0) == Ordering.gt) then y else z).res
    | 13 => nth .nan consts (imm % 16)
    | 14 => f32 (x.scale (signed 8 imm)).res
    | _ => f32 (expVal x)
  r.set (bits w 27 24) out

/-- A program run on one element. -/
def microRun (image : List Byte) (ni : Nat) (z : Scalars) (g m v w : Val) : RuleOut :=
  let consts := (List.range 16).map (fun i => decodeElem .fp32 (leNat (slice image (256 + 4 * i) 4)))
  let r0 := [g, w, m, v, z.lr, z.bc1, z.bc2, f32 (natVal z.t).res] ++ List.replicate 8 (.fin false 0 0)
  let r := (List.range ni).foldl (fun r i => microStep consts r (leNat (slice image (4 * i) 4))) r0
  { mn := nth .nan r 13, vn := some (nth .nan r 14), u := nth .nan r 12 }

/-- Whether an instruction leaves the fields it does not use at 0 (R242). -/
def microOk (w : Nat) : Bool :=
  let op := bits w 31 28
  let a := bits w 23 20
  let b := bits w 19 16
  let c := bits w 15 12
  let imm := bits w 11 4
  bits w 3 0 == 0 && (match op with
    | 3 | 12 => imm == 0
    | 5 | 6 | 9 | 10 | 11 | 15 => b == 0 && c == 0 && imm == 0
    | 13 => a == 0 && b == 0 && c == 0 && decide (imm < 16)
    | 14 => b == 0 && c == 0
    | _ => c == 0 && imm == 0)

/-- The first failing instruction of an image; `inr` where the failure names none. -/
def progBad (image : List Byte) (ni : Nat) : Option (Option Nat) :=
  if ni < 1 ∨ 64 < ni then some none
  else match (List.range ni).find? (fun i => !microOk (leNat (slice image (4 * i) 4))) with
    | some i => some (some i)
    | none =>
      if (List.range 16).any (fun i => (decodeElem .fp32 (leNat (slice image (256 + 4 * i) 4))).nonFinite) then some none
      else none

/-! Square root of a quotient (R237). -/

/-- √(a / b) of positive finite values, cut to at least 64 significant bits. -/
def sqrtQuot (a b : Val) : Res :=
  match a, b with
  | .fin _ m1 e1, .fin _ m2 e2 =>
    let odd := (e1 - e2) % 2 != 0
    let n := if odd then 2 * m1 else m1
    let e := if odd then e1 - e2 - 1 else e1 - e2
    let k := bitLen m2 + 96
    let q := n * 2 ^ (2 * k) / m2
    let r := isqrt q
    .fin false r (e / 2 - k) (r * r != q || q * m2 != n * 2 ^ (2 * k))
  | _, _ => .nan true

/-! The watch record (R179 to R182) and steering (R185). -/

/-- The update-to-weight ratio of R179 from exact sums; none where a sum is NaN. -/
def watchRatio (sd sw : Val) : Option Nat :=
  match sd, sw with
  | .fin _ m1 e1, .fin _ m2 e2 =>
    if m1 = 0 then some 0x8000
    else if m2 = 0 then some 0x7FFF
    else
      let a := m1 ^ 128
      let b := m2 ^ 128
      let k : Int := (log2 a : Int) - log2 b
      let low : Bool := if 0 ≤ k then decide (a < b * 2 ^ k.toNat) else decide (a * 2 ^ k.natAbs < b)
      let r : Int := (if low then k - 1 else k) + 128 * (e1 - e2)
      some (ofSigned 16 (max (-32767) (min r 32767)))
  | _, _ => none

/-- What an update gathers for one of the quantities M1, M2 and the update word: the largest magnitude written, and the
elements saturated. -/
structure Seen where
  a : Nat × Int := (0, 0)
  ns : Nat := 0
  deriving DecidableEq, Repr

def Seen.add (x : Seen) (c : Nat) (k : Kind) : Seen :=
  { a := maxAbs [.fin false x.a.1 x.a.2, decodeElem .fp16 c], ns := x.ns + (if k == .saturated then 1 else 0) }

/-- R185 for one exponent: the new exponent and whether the clamp changed it. -/
def steerExp (k : Int) (hm : Nat) (lo hi : Int) (x : Seen) : Int × Bool :=
  let top : Int := 15 - hm
  let want : Int :=
    if 0 < x.ns ∨ cmpMag x.a.1 x.a.2 1 top ≠ .lt then k - 1
    else if x.a.1 ≠ 0 ∧ cmpMag x.a.1 x.a.2 1 (top - 2) = .lt then k + 1
    else k
  let new := max lo (min want hi)
  (new, decide (new ≠ want))

end Sys2Proof.Machine
end

