-- ==== Sys2Proof/Machine/Update.lean ====
section
/-!
DEFINITION. The update engine: UPDATE commands, updates, skips and fault writes of layers (10_parameter_update.md, R229 to
R246), in the lane queue of R231.
-/
namespace Sys2Proof.Machine

/-! The update descriptor (R229). -/

/-- An update descriptor with its fields under the names of R229. -/
structure UpdDesc where
  raw : Nat
  hdr : Nat
  stack : Nat
  op : Nat
  src : Nat
  srcSpace : Nat
  gfmt : Nat
  wsrc : Nat
  wsrcSpace : Nat
  wcopy : Bool
  step : Nat
  slot : Nat
  ni : Nat
  deriving DecidableEq, Repr

def UpdDesc.ofBytes (bs : List Byte) : UpdDesc :=
  let d := leNat (bs.take 64)
  { raw := d, hdr := bits d 36 0, stack := bits d 51 48, op := bits d 55 52, src := bits d 107 64,
    srcSpace := bits d 110 108, gfmt := bits d 114 111, wsrc := bits d 171 128, wsrcSpace := bits d 174 172,
    wcopy := bit d 175, step := bits d 223 192, slot := bits d 226 224, ni := bits d 238 232 }

/-- The first quadword of a descriptor with a reserved bit set. -/
def UpdDesc.reserved (d : UpdDesc) (q : Nat) : Bool :=
  match q with
  | 0 => bits d.raw 47 37 == 0 && bits d.raw 63 56 == 0
  | 1 => bits d.raw 127 115 == 0
  | 2 => bits d.raw 191 176 == 0
  | 3 => bits d.raw 231 227 == 0 && bits d.raw 255 239 == 0
  | q => bits d.raw (64 * q + 63) (64 * q) == 0

/-- The stack offset that a stack-local address names, if it lies in the given stack. -/
def offsetIn (k a : Nat) : Option Nat :=
  if (a - 2 ^ 43) / stackBytes = k ∧ 2 ^ 43 ≤ a then some ((a - 2 ^ 43) % stackBytes) else none

/-- Whether `n` bytes of a view lie wholly in regions of a context that satisfy `q`. -/
def State.viewOwned (s : State) (c space a n : Nat) (q : Region → Bool) : Bool :=
  n == 0 || (List.range ((a + n - 1) / 8192 - a / 8192 + 1)).all (fun i =>
    match s.resolve (c / 8) space (max a ((a / 8192 + i) * 8192)) with
    | none => false
    | some (k, o) => match s.regionAt k (o / 64) with
      | none => false
      | some r => (s.region r).owner == c && q (s.region r))

/-- A footprint of a source in its space and, in a memory view, in the context's regions (R229). -/
def State.updFoot (s : State) (c f space a n : Nat) : Bool :=
  addrFields space a && s.holds { ctx := c, frond := some f } space a n
    && (decide (2 ≤ space) || s.viewOwned c space a n (fun _ => true))

/-- `n` bytes at a stack-local address of the named stack, in the context's regions. -/
def State.updLocal (s : State) (c k space a n : Nat) : Bool :=
  space == 1 && (match offsetIn k a with
    | some o => s.ownsRange k c o n false
    | none => false)

/-- Bytes of an element of a plain format. -/
def gradW (fmt : Nat) : Nat := if fmt = 0 then 4 else 2

/-- Whether the first quadword of a descriptor is legal: its header lies in the context's regions of a stack of the
partition (R229). -/
def State.updHeadOk (s : State) (c : Nat) (d : UpdDesc) : Bool :=
  d.reserved 0 && (s.stacksOf (c / 8)).contains d.stack && decide (d.op < 4)
    && (d.op == 3 || (d.hdr % 64 == 0 && s.ownsRange d.stack c d.hdr 192 false))

/-- The quadword of the first field of a descriptor that fails R229, where the layer of an APPLY has `nel` elements; the
copy's source is checked with its image. -/
def State.updCheck (s : State) (c f : Nat) (d : UpdDesc) (nel : Nat) : Option Nat :=
  let q0 := s.updHeadOk c d
  let q1 := d.reserved 1 && (match d.op with
    | 0 => decide (d.srcSpace < 4) && s.updFoot c f d.srcSpace d.src 192
    | 1 => decide (d.gfmt < 3) && d.src % gradW d.gfmt == 0
        && s.updLocal c d.stack d.srcSpace d.src (nel * gradW d.gfmt)
    | 3 => decide (d.srcSpace < 4) && s.updFoot c f d.srcSpace d.src 320
    | _ => true)
  let q2 := d.reserved 2 && (d.op != 0 || !d.wcopy || d.wsrcSpace == 1)
  (([q0, q1, q2] ++ [3, 4, 5, 6, 7].map d.reserved).zipIdx.find? (fun x => !x.1)).map Prod.snd

/-! The command at its frond (R229, R231). -/

/-- The operation that the descriptor of a command names, and whether it names one at all. -/
def State.updOp (s : State) (c : Nat) (j : Job) (op : Nat) : Bool :=
  match (s.frondDesc c j 0 64).2 with
  | none => true
  | some bs => let d := UpdDesc.ofBytes bs
               d.op == op || decide (4 ≤ d.op)

/-- A descriptor refused on the frond's page (R229, R253). -/
def State.updIllegal (s : State) (c : Nat) (j : Job) (q : Nat) : State :=
  (s.raise (.frd (entryEngine j.entry).1) 0x6009 (descAddrOf j / 64) q).endJob c j.id 0x6009 (detailOf (descAddrOf j / 64) q)

/-- The lane command that an UPDATE command becomes. -/
def updLane (d : UpdDesc) (c : Nat) (j : Job) (proth : Bool) (bs image : List Byte) : LaneCmd :=
  { kind := match d.op with
      | 0 => .init
      | 1 => .apply
      | 2 => .clear
      | _ => .loadprog,
    ctx := c, job := some j.id, hdr := d.hdr, desc := bs, image := image, seed := entrySeed j.entry, proth := proth }

/-- The elements of the layer that an APPLY names, read by the frond engine for the footprint of its source. -/
def State.updNel (s : State) (c f : Nat) (d : UpdDesc) : State × Option Nat :=
  if d.op = 1 ∧ s.updHeadOk c d then
    match s.readSpace { ctx := c, frond := some f } 1 (2 ^ 43 + d.stack * stackBytes + d.hdr) 64 with
    | (s1, none) => (s1, none)
    | (s1, some bs) => (s1, some (leNat (slice bs 16 5)))
  else (s, some 0)

/-- A command's descriptor is checked, its image read, and the operation handed to the Rhizoid. -/
def State.updIssue (s : State) (c : Nat) (j : Job) : State :=
  let f := (entryEngine j.entry).1
  match s.frondDesc c j 0 64 with
  | (s1, none) => s1.endJob c j.id 0x200A 0
  | (s1, some bs) =>
    let d := UpdDesc.ofBytes bs
    match s1.updNel c f d with
    | (s1, none) => s1.endJob c j.id 0x200A 0
    | (s1, some nel) =>
    match s1.updCheck c f d nel with
    | some q => s1.updIllegal c j q
    | none =>
      let n := if d.op = 0 then 192 else if d.op = 3 then 320 else 0
      match (if n = 0 then (s1, some []) else s1.readSpace { ctx := c, frond := some f } d.srcSpace d.src n) with
      | (s2, none) => s2.endJob c j.id 0x200A 0
      | (s2, some image) =>
        if d.op = 0 ∧ d.wcopy ∧ ¬ s2.updLocal c d.stack 1 d.wsrc (2 * (LHdr.ofBytes image).nel) then s2.updIllegal c j 2
        else
          let x := s2.stack d.stack
          let s3 := s2.setStack d.stack
            { x with lanes := x.lanes ++ [updLane d c j (s2.ctx c).proth bs image] }
          s3.updJob c j.id (fun j => { j with begun := true })

/-- The first moment of an UPDATE command with operation `op`. -/
def updIssueOf (op job : Nat) (s : State) : Host.Outcome State Fault Refusal :=
  onJob s job 4 (fun c j => !j.begun && s.updOp c j op) (fun c j => s.updIssue c j)

/-! The lane queue (R157, R231). -/

/-- The meaning of a lane command at the head of a stack's queue that satisfies `q`. -/
def onLane (s : State) (k : Nat) (q : LaneCmd → Bool) (eff : State → LaneCmd → State) : Host.Outcome State Fault Refusal :=
  if ¬ k < 12 then .fault .noSuchUnit
  else if !s.lanesRun k then notEnabled "the lanes do not run"
  else match (s.stack k).lanes with
    | [] => notEnabled "the lane queue is empty"
    | cmd :: rest =>
      if !q cmd then notEnabled "another command stands at the head of the lane queue"
      else if !s.laneFree k cmd then notEnabled "the layer's release or mirror copy still reads"
      else .next (eff (s.setStack k { s.stack k with lanes := rest }) cmd)

/-- The second moment of an UPDATE command: its operation at the head of its stack's queue. -/
def updPerform (kind : LaneKind) (job : Nat) (s : State) (eff : Nat → State → LaneCmd → State) :
    Host.Outcome State Fault Refusal :=
  match (List.range 12).find? (fun k => (s.stack k).lanes.any (fun l => l.job == some job && l.kind == kind)) with
  | none => notEnabled "no lane queue holds this operation"
  | some k => onLane s k (fun l => l.job == some job && l.kind == kind) (eff k)

/-! Ends and refusals (R244, R253, R358). -/

/-- An event of the update engine on its stack's page; a stopped engine raises none (R310). -/
def State.updEvent (s : State) (k code hdr a2 : Nat) : State :=
  if !s.rhzRuns k then s else s.raise (.rhz k) code (hdr / 64) a2

/-- Detail of a record of source 5 or 6 (R358). -/
def layerDetail (k hdr step : Nat) : Nat := hdr / 64 % 2 ^ 31 + k * 2 ^ 31 + step % 2 ^ 29 * 2 ^ 35

/-- The end of a lane command: its UPDATE command ends, or the record of source 5 goes to the context that armed. -/
def State.updEnd (s : State) (k : Nat) (cmd : LaneCmd) (step : Nat) (t : Tally) (code a2 : Nat) : State :=
  match cmd.job with
  | some id => s.endJob cmd.ctx id code (if code = 0 then 0 else detailOf (cmd.hdr / 64) a2)
  | none => s.postRecord cmd.ctx (recordBytes code 0 5 t (layerDetail k cmd.hdr step))

/-- A lane command ended by an event. -/
def State.updFail (s : State) (k : Nat) (cmd : LaneCmd) (step : Nat) (code a2 : Nat) : State :=
  (s.updEvent k code cmd.hdr a2).updEnd k cmd step {} code a2

/-- A bus error on the header itself: the spec names no element (log entry 24). -/
def State.updHdrBus (s : State) (k : Nat) (cmd : LaneCmd) (step : Nat) : State :=
  let r := s.drawWord
  r.1.updFail k cmd step 0x6005 r.2

/-- A header read. -/
def State.hdrRead (s : State) (k : Nat) (cmd : LaneCmd) : State × Option LHdr :=
  match s.rhzRead k cmd.ctx cmd.hdr 192 with
  | (s1, .error _) => (s1, none)
  | (s1, .ok bs) => (s1, some (LHdr.ofBytes bs))

/-- The first line of a header written: its flags, step and last fields. -/
def State.hdrLine (s : State) (k : Nat) (cmd : LaneCmd) (h : LHdr) : State × Option Nat :=
  s.rhzWrite k cmd.ctx cmd.hdr (h.bytes.take 64)

def LHdr.setTorn (h : LHdr) (v : Nat) : LHdr := h.set 11 11 v
def LHdr.setFault (h : LHdr) (last : Nat) : LHdr := (h.set 10 10 1).set 319 304 last
def LHdr.setLast (h : LHdr) (last : Nat) : LHdr := h.set 319 304 last
def LHdr.setStep (h : LHdr) (v : Nat) : LHdr := h.set 63 32 v

/-- What the checks of R243 find: nothing, a refusal with its code and second argument, or a bus error. -/
inductive RowFound where
  | passed
  | refused (code arg : Nat)
  | bus
  deriving DecidableEq, Repr

/-- Row 4 of R243: whether a header's class, layout, rule and, in a joint context, hyperparameters fit the context. -/
def State.classOk (s : State) (k c : Nat) (h : LHdr) : Bool :=
  h.joint == (s.ctx c).joint && h.proth == (s.ctx c).proth && s.ruleAllowed k c h

/-- The checks of R243, in order. `shape` is row 5. -/
def State.updRows (s : State) (k : Nat) (cmd : LaneCmd) (h : LHdr) (shape : Option (Nat × Nat)) : State × RowFound :=
  match (if h.rule = 0 then (s, .bad 0) else s.headerCheck k cmd.ctx cmd.hdr h) with
  | (s1, .bad o) => (s1, .refused 0x6001 o)
  | (s1, .bus _) => (s1, .bus)
  | (s1, .legal) => (s1,
    if h.torn then .refused 0x600A h.step
    else if h.fault then .refused 0x6002 h.last
    else if (cmd.kind = .apply ∧ (s1.ctx cmd.ctx).joint) ∨ ¬ s1.classOk k cmd.ctx h then .refused 0x6004 h.rule
    else match shape with
      | some r => .refused r.1 r.2
      | none => .passed)

/-- An update that meets a bus error outside its elements, with the header as far as it is known: fault and last are
written, and torn where it was set (R245). -/
def State.updBusStop (s : State) (k : Nat) (cmd : LaneCmd) (h : Option LHdr) : State :=
  match h with
  | some h => (s.hdrLine k cmd (h.setFault 0x6005)).1.updHdrBus k cmd h.step
  | none => match s.rhzRead k cmd.ctx cmd.hdr 64 with
    | (s1, .error _) => s1.updHdrBus k cmd 0
    | (s1, .ok bs) =>
      let h := LHdr.ofBytes bs
      (s1.hdrLine k cmd (h.setFault 0x6005)).1.updHdrBus k cmd h.step

/-- A refusal of R244. -/
def State.updRefuse (s : State) (k : Nat) (cmd : LaneCmd) (h : LHdr) (code a2 : Nat) : State :=
  let h1 := if cmd.job.isSome then h.setLast code else h.setFault code
  ((s.hdrLine k cmd h1).1.bump (.rhz k) 0x18C).updFail k cmd h.step code a2

/-! INIT, CLEAR and LOADPROG (R230). -/

/-- An area filled by the Rhizoid; the element that failed otherwise. -/
def State.fillArea (s : State) (k c off w : Nat) (bs : List Byte) : State × Option Nat :=
  match s.rhzWrite k c off bs with
  | (s1, e) => (s1, e.map (fun l => (64 * l - off) / w))

/-- The image as INIT writes it. -/
def LHdr.initial (h : LHdr) (joint proth : Bool) : LHdr :=
  let b (x : Bool) : Nat := if x then 1 else 0
  let h1 := ((((h.set 10 10 0).set 11 11 0).set 319 304 0).set 13 13 (b joint)).set 12 12 (b proth)
  (((h1.set 127 96 0).setSbyte 25 h.k1).setSbyte 27 h.k2).set 1535 1408 0

/-- The writes of INIT after its header: zero moments, then the copy of the weights; all of them, or the first `cap`
bytes. The element that failed. -/
def State.initAreas (s : State) (k c : Nat) (h : LHdr) (proth : Bool) (wsrc cap : Option Nat) : State × Option Nat :=
  let m := momentW proth
  let n1 := m * h.nel
  let n2 := if usesM2 h.rule then n1 else 0
  let upTo (done n : Nat) : Nat := match cap with
    | some x => min n (x - done)
    | none => n
  match s.fillArea k c (h.area 1) m (List.replicate (upTo 0 n1) 0#8) with
  | (s1, some e) => (s1, some e)
  | (s1, none) =>
    match s1.fillArea k c (h.area 2) m (List.replicate (upTo n1 n2) 0#8) with
    | (s2, some e) => (s2, some e)
    | (s2, none) => match wsrc with
      | none => (s2, none)
      | some o => match s2.rhzRead k c o (upTo (n1 + n2) (2 * h.nel)) with
        | (s3, .error l) => (s3, some ((64 * l - o) / 2))
        | (s3, .ok bs) => s3.fillArea k c (h.area 0) 2 bs

/-- INIT. -/
def State.updInit (k : Nat) (s : State) (cmd : LaneCmd) : State :=
  let d := UpdDesc.ofBytes cmd.desc
  let h := LHdr.ofBytes cmd.image
  match s.headerCheck k cmd.ctx cmd.hdr h with
  | (s, .bad o) => s.updFail k cmd h.step 0x6001 o
  | (s, .bus _) => s.updHdrBus k cmd h.step
  | (s, .legal) =>
    let x := s.ctx cmd.ctx
    if !s.classOk k cmd.ctx h then s.updFail k cmd h.step 0x6004 h.rule
    else match s.rhzWrite k cmd.ctx cmd.hdr (h.initial x.joint x.proth).bytes with
      | (s1, some _) => s1.updHdrBus k cmd h.step
      | (s1, none) =>
        match s1.initAreas k cmd.ctx h x.proth (if d.wcopy then offsetIn k d.wsrc else none) none with
        | (s2, some e) => s2.updFail k cmd h.step 0x6005 e
        | (s2, none) => s2.updEnd k cmd h.step {} 0 0

def execUpdateInit (job : Nat) (ph : Phase) (s : State) : Host.Outcome State Fault Refusal :=
  match ph with
  | .issue => updIssueOf 0 job s
  | .perform => updPerform .init job s State.updInit

/-- CLEAR. -/
def State.updClear (k : Nat) (s : State) (cmd : LaneCmd) : State :=
  let d := UpdDesc.ofBytes cmd.desc
  match s.hdrRead k cmd with
  | (s1, none) => s1.updHdrBus k cmd 0
  | (s1, some h) =>
    if h.torn then s1.updFail k cmd h.step 0x600A h.step
    else if (s1.ctx cmd.ctx).joint ∧ d.step < h.step then
      match findJob (s1.ctx cmd.ctx).jobs (cmd.job.getD 0) with
      | some j => s1.updIllegal cmd.ctx j 3
      | none => s1
    else match s1.hdrLine k cmd (((h.set 10 10 0).setLast 0).setStep d.step) with
      | (s2, some _) => s2.updHdrBus k cmd h.step
      | (s2, none) => s2.updEnd k cmd h.step {} 0 0

def execUpdateClear (job : Nat) (ph : Phase) (s : State) : Host.Outcome State Fault Refusal :=
  match ph with
  | .issue => updIssueOf 2 job s
  | .perform => updPerform .clear job s State.updClear

/-- LOADPROG. Arguments that the events of R253 have no value for here are free (log entry 24). -/
def State.updLoadprog (k : Nat) (s : State) (cmd : LaneCmd) : State :=
  let d := UpdDesc.ofBytes cmd.desc
  let x := s.stack k
  let p := SMap.get {} x.progs d.slot
  if (s.ctx cmd.ctx).joint ∨ (p.valid ∧ p.owner ≠ cmd.ctx) then
    let r := s.drawWord
    r.1.updFail k cmd 0 0x6004 r.2
  else match progBad cmd.image d.ni with
    | some (some i) => s.updFail k cmd 0 0x6007 i
    | some none =>
      let r := s.drawWord
      r.1.updFail k cmd 0 0x6007 r.2
    | none =>
      let slot : ProgSlot := { valid := true, owner := cmd.ctx, ni := d.ni, image := cmd.image }
      (s.setStack k { x with progs := SMap.set {} x.progs d.slot slot }).updEnd k cmd 0 {} 0 0

def execUpdateLoadprog (job : Nat) (ph : Phase) (s : State) : Host.Outcome State Fault Refusal :=
  match ph with
  | .issue => updIssueOf 3 job s
  | .perform => updPerform .loadprog job s State.updLoadprog

/-! One update (R232 to R240). -/

/-- What is fixed while an update runs. -/
structure Upd where
  k : Nat
  c : Nat
  h : LHdr
  z : Scalars
  seed : BitVec 64
  /-- the buffer of a close, or the source's stack offset and format of an APPLY -/
  closed : Option Closed
  src : Nat
  gfmt : Nat
  image : List Byte
  ni : Nat
  deriving DecidableEq, Repr

/-- Blocks of a pass. -/
def Upd.blocks (u : Upd) : Nat := u.h.nel / 32
def Upd.wf (u : Upd) : Fmt := if u.h.fp16 then .fp16 else .bf16
def Upd.mf (u : Upd) : Fmt := if u.h.proth then .fp32 else .fp16
def Upd.mw (u : Upd) : Nat := momentW u.h.proth
/-- Stochastic rounding with a stream field (R233). -/
def Upd.rnd (u : Upd) (stream : Nat) : Rnd := .stoch u.seed (BitVec.ofNat 32 (u.h.tag * 65536 + stream)) u.h.proth

/-- What an element's codes are: the words of M1, M2 and U, and the new weight. -/
structure ElemOut where
  m1 : Nat × Kind
  m2 : Option (Nat × Kind)
  u : Option (Nat × Kind)
  w : Option (Nat × Kind)
  /-- value(U) × 2^−ku, or u in Prothallus layout -/
  uv : Val
  deriving DecidableEq, Repr

/-- An element of pass 1 (R235 to R239, R241): none where it is left unchanged under R234. -/
def Upd.element (u : Upd) (e : Nat) (g m v w : Val) : Option ElemOut :=
  let r := match u.h.rule with
    | 1 => bracken u.z true g m v w
    | 2 => bracken u.z false g m v w
    | 3 => spleenwort u.z g m w
    | 4 => clubmoss u.z g m w
    | _ => microRun u.image u.ni u.z g m v w
  if [g, m, v, w, r.mn, r.u].any Val.nonFinite ∨ (r.vn.map Val.nonFinite).getD false then none
  else
    let put (k : Int) (stream : Nat) (x : Val) : Nat × Kind :=
      if u.h.proth then convert .fp32 false .rne e x.res else convert .fp16 false (u.rnd stream) e (x.scale k).res
    let uw := put u.h.ku 3 r.u
    let uv := if u.h.proth then r.u else (decodeElem .fp16 uw.1).scale (-u.h.ku)
    some { m1 := put u.h.k1n 1 r.mn, m2 := r.vn.map (put u.h.k2n 2),
           u := if u.h.proth ∧ u.h.rule ≠ 2 then none else some uw,
           w := if u.h.rule = 2 then none else some (convert u.wf false (u.rnd 0) e (addVal w (negVal uv))),
           uv := uv }

/-- What an update has done and gathered so far. -/
structure UpdAcc where
  s : State
  t : Tally := {}
  moments : Wrote := {}
  weights : Wrote := {}
  sw : WSum := {}
  sd : WSum := {}
  su : WSum := {}
  x1 : Seen := {}
  x2 : Seen := {}
  xu : Seen := {}
  lblk : Nat := 0
  zblk : Nat := 0
  /-- elements left unchanged under R234 -/
  nans : List Nat := []
  /-- mask line and table line last read, by stack offset -/
  maskLine : Nat × List Byte := (0, [])
  tblLine : Nat × List Byte := (0, [])
  /-- the element at which a bus error stopped the update -/
  bad : Option Nat := none
  deriving DecidableEq, Repr

/-- The 32 elements of block `b` of an area of `w`-byte elements. -/
def UpdAcc.get (a : UpdAcc) (u : Upd) (off w b : Nat) : UpdAcc × List Byte :=
  match a.bad with
  | some _ => (a, [])
  | none => match a.s.rhzRead u.k u.c (off + 32 * w * b) (32 * w) with
    | (s1, .error l) => ({ a with s := s1, bad := some (max (32 * b) ((64 * l - off) / w)) }, [])
    | (s1, .ok bs) => ({ a with s := s1 }, bs)

/-- A line that belongs to many blocks, read once. -/
def UpdAcc.line (a : UpdAcc) (u : Upd) (have_ : Nat × List Byte) (off b : Nat) : UpdAcc × List Byte :=
  if have_.1 = off ∧ have_.2 ≠ [] then (a, have_.2)
  else match a.bad with
    | some _ => (a, [])
    | none => match a.s.rhzRead u.k u.c off 64 with
      | (s1, .error _) => ({ a with s := s1, bad := some (32 * b) }, [])
      | (s1, .ok bs) => ({ a with s := s1 }, bs)

/-- Whether block `b` is frozen (R228). -/
def UpdAcc.frozen (a : UpdAcc) (u : Upd) (b : Nat) : UpdAcc × Bool :=
  if !u.h.fmask then (a, false)
  else
    let off := u.h.area 3 + b / 512 * 64
    let r := a.line u a.maskLine off b
    ({ r.1 with maskLine := (off, r.2) }, (r.2.getD (b / 8 % 64) 0#8).toNat.testBit (b % 8))

/-- The gradients of block `b` (R234). -/
def UpdAcc.grads (a : UpdAcc) (u : Upd) (b : Nat) : UpdAcc × List Val :=
  match u.closed with
  | none =>
    let w := gradW u.gfmt
    let r := a.get u u.src w b
    (r.1, (List.range 32).map (fun j => decodeElem (fmtOf u.gfmt) (leNat (slice r.2 (w * j) w))))
  | some cl =>
    let off := cl.tbl + 64 * (b / 128)
    let tl := a.line u a.tblLine off b
    let a1 : UpdAcc := { tl.1 with tblLine := (off, tl.2) }
    let weight := leNat (slice tl.2 32 8)
    let code := (tl.2.getD 46 0#8).toNat
    let w := if cl.typ = 0 then 2 else 4
    let r := a1.get u cl.buf w b
    (r.1, (List.range 32).map (fun j =>
      if weight = 0 then natVal 0 else fDiv (sumValue cl.typ code (slice r.2 (w * j) w)) (natVal weight)))

/-- A line of 32 elements written where some element changed. -/
def UpdAcc.put (a : UpdAcc) (u : Upd) (off w b : Nat) (old : List Byte) (new : List (Option Nat)) : UpdAcc :=
  match a.bad with
  | some _ => a
  | none =>
    if new.all Option.isNone then a
    else
      let bs := new.zipIdx.flatMap (fun x => match x.1 with
        | some c => leBytes w c
        | none => slice old (w * x.2) w)
      match a.s.rhzWrite u.k u.c (off + 32 * w * b) bs with
      | (s1, none) => { a with s := s1 }
      | (s1, some l) => { a with s := s1, bad := some (max (32 * b) ((64 * l - off) / w)) }

/-- The areas of block `b` written in order: offset, element width, old bytes and new codes. A write that fails at an
element leaves that element and the later ones of the block as they were in every area (R245). -/
def UpdAcc.putAll (a : UpdAcc) (u : Upd) (b : Nat) (areas : List (Nat × Nat × List Byte × List (Option Nat))) : UpdAcc :=
  let full := areas.foldl (fun a x => a.put u x.1 x.2.1 b x.2.2.1 x.2.2.2) a
  match full.bad with
  | none => full
  | some e => areas.foldl (fun a x =>
      let try_ := a.put u x.1 x.2.1 b x.2.2.1 x.2.2.2
      if try_.bad.isSome then try_ else
        a.put u x.1 x.2.1 b x.2.2.1 (x.2.2.2.zipIdx.map (fun c => if 32 * b + c.2 < e then c.1 else none))) a

/-- One conversion counted (R54, R184). -/
def UpdAcc.count (a : UpdAcc) (moment : Bool) (f : Fmt) (e : Nat) (x : Nat × Kind) : UpdAcc :=
  let one := Wrote.one f x.1 x.2 false 0
  { a with t := a.t.count x.2 f.code e,
           moments := if moment then a.moments.add one else a.moments,
           weights := if moment then a.weights else a.weights.add one }

/-- A new weight: its count, its share of SΔ, and whether it changed (R179, R180). -/
def UpdAcc.weight (a : UpdAcc) (u : Upd) (e : Nat) (w : Val) (x : Nat × Kind) : UpdAcc × Bool :=
  let diff := (addVal (decodeElem u.wf x.1) (negVal w)).val
  let a1 := a.count false u.wf e x
  ({ a1 with sd := a1.sd.add (mulVal diff diff).val }, Val.cmp diff (natVal 0) != .eq)

/-- What an element of pass 1 gathers; whether its weight changed. -/
def UpdAcc.take (a : UpdAcc) (u : Upd) (e : Nat) (w : Val) (o : ElemOut) : UpdAcc × Bool :=
  let a1 := a.count true u.mf e o.m1
  let a2 := match o.m2 with
    | some x => a1.count true u.mf e x
    | none => a1
  let a3 := match o.u with
    | some x => a2.count true u.mf e x
    | none => a2
  let seen (x : Seen) (c : Option (Nat × Kind)) : Seen := if u.h.proth then x else match c with
    | some c => x.add c.1 c.2
    | none => x
  let a4 : UpdAcc := { a3 with x1 := seen a3.x1 (some o.m1), x2 := seen a3.x2 o.m2, xu := seen a3.xu o.u,
                               sw := a3.sw.add (mulVal w w).val,
                               su := if u.h.rule = 2 then a3.su.add (mulVal o.uv o.uv).val else a3.su }
  match o.w with
  | some x => a4.weight u e w x
  | none => (a4, false)

/-- The values of a block of an area. -/
def blockVals (f : Fmt) (w : Nat) (k : Int) (bs : List Byte) : List Val :=
  (List.range 32).map (fun j => (decodeElem f (leNat (slice bs (w * j) w))).scale k)

/-- Block `b` in pass 1. -/
def Upd.block1 (u : Upd) (a : UpdAcc) (b : Nat) : UpdAcc :=
  let fz := a.frozen u b
  let g := fz.1.grads u b
  let w := g.1.get u (u.h.area 0) 2 b
  let m := w.1.get u (u.h.area 1) u.mw b
  let v := if usesM2 u.h.rule then m.1.get u (u.h.area 2) u.mw b else (m.1, [])
  let uo := if u.h.rule = 2 then v.1.get u (u.h.area 4) u.mw b else (v.1, [])
  let a1 := uo.1
  if a1.bad.isSome ∨ fz.2 then a1
  else
    let k1 : Int := if u.h.proth then 0 else -u.h.k1
    let k2 : Int := if u.h.proth then 0 else -u.h.k2
    let ws := blockVals u.wf 2 0 w.2
    let ms := blockVals u.mf u.mw k1 m.2
    let vs := if usesM2 u.h.rule then blockVals u.mf u.mw k2 v.2 else List.replicate 32 (natVal 0)
    let r := (List.range 32).foldl (fun (r : UpdAcc × Bool × List (Option ElemOut)) j =>
      let e := 32 * b + j
      match u.element e (nth .nan g.2 j) (nth .nan ms j) (nth .nan vs j) (nth .nan ws j) with
      | none => ({ r.1 with nans := r.1.nans ++ [e], t := { r.1.t with nan := r.1.t.nan + 1 } }, r.2.1, r.2.2 ++ [none])
      | some o => let x := r.1.take u e (nth .nan ws j) o
                  (x.1, r.2.1 || x.2, r.2.2 ++ [some o])) (a1, false, [])
    let outs := r.2.2
    let codes (f : ElemOut → Option (Nat × Kind)) : List (Option Nat) := outs.map (fun o => o.bind (fun o => (f o).map Prod.fst))
    let m1 := (u.h.area 1, u.mw, m.2, codes (fun o => some o.m1))
    let m2 := if usesM2 u.h.rule then [(u.h.area 2, u.mw, v.2, codes (fun o => o.m2))] else []
    if u.h.rule = 2 then r.1.putAll u b (m1 :: m2 ++ [(u.h.area 4, u.mw, uo.2, codes (fun o => o.u))])
    else
      let a4 := r.1.putAll u b (m1 :: m2 ++ [(u.h.area 0, 2, w.2, codes (fun o => o.w))])
      { a4 with lblk := a4.lblk + 1, zblk := a4.zblk + (if r.2.1 then 0 else 1) }

/-- Block `b` in pass 2 of Sphagnum (R237). -/
def Upd.block2 (u : Upd) (sc : Val) (a : UpdAcc) (b : Nat) : UpdAcc :=
  let fz := a.frozen u b
  let w := fz.1.get u (u.h.area 0) 2 b
  let uo := w.1.get u (u.h.area 4) u.mw b
  let a1 := uo.1
  if a1.bad.isSome ∨ fz.2 then a1
  else
    let ws := blockVals u.wf 2 0 w.2
    let us := blockVals u.mf u.mw (if u.h.proth then 0 else -u.h.ku) uo.2
    let r := (List.range 32).foldl (fun (r : UpdAcc × Bool × List (Option Nat)) j =>
      let e := 32 * b + j
      if r.1.nans.contains e then (r.1, r.2.1, r.2.2 ++ [none])
      else
        let x := convert u.wf false (u.rnd 0) e (fmaVal (negVal sc) (nth .nan us j) (nth .nan ws j))
        let y := r.1.weight u e (nth .nan ws j) x
        (y.1, r.2.1 || y.2, r.2.2 ++ [some x.1])) (a1, false, [])
    let a2 := r.1.put u (u.h.area 0) 2 b w.2 r.2.2
    { a2 with lblk := a2.lblk + 1, zblk := a2.zblk + (if r.2.1 then 0 else 1) }

/-- The first `n` blocks of a pass in order, up to a bus error (R240). -/
def Upd.pass (u : Upd) (step : UpdAcc → Nat → UpdAcc) (n : Nat) (a : UpdAcc) : UpdAcc :=
  (List.range (min n u.blocks)).foldl (fun a b => if a.bad.isSome then a else step a b) a

/-- sc of R237. A NaN sum gives a NaN, with which no element can be converted: it is then a free value (log entry 24). -/
def Upd.trust (u : Upd) (a : UpdAcc) : UpdAcc × Val :=
  let sw := W96.val a.sw.word
  let su := W96.val a.su.word
  if sw.isNan ∨ su.isNan then
    let r := a.s.drawWord
    ({ a with s := r.1 }, match decodeElem .fp32 r.2 with
      | .fin n m e => .fin n m e
      | _ => natVal 1)
  else
    let zero (v : Val) : Bool := Val.cmp v (natVal 0) == .eq
    let tau := if zero sw || zero su then natVal 1 else f32 (sqrtQuot sw su)
    let capd := if !zero u.z.phi && Val.cmp u.z.phi tau == .lt then u.z.phi else tau
    (a, fMul u.z.lr capd)

/-- The first `n` blocks of an update, over its passes. -/
def Upd.runTo (u : Upd) (n : Nat) (s : State) : UpdAcc :=
  let a := u.pass u.block1 n { s := s }
  if u.h.rule ≠ 2 ∨ a.bad.isSome ∨ n < u.blocks then a
  else
    let r := u.trust a
    u.pass (u.block2 r.2) (n - u.blocks) r.1

/-- All passes of an update. -/
def Upd.run (u : Upd) (s : State) : UpdAcc := u.runTo (2 * u.blocks) s

/-! After the last pass (R240, R179 to R185). -/

/-- A steered exponent, in byte `i` with its bounds from byte `lo` on; 0x1106 where the clamp changed it. -/
def steerByte (s : State) (k hdr : Nat) (h : LHdr) (old : Int) (i lo which : Nat) (x : Seen) : State × LHdr :=
  let r := steerExp old h.hm (h.sbyte lo) (h.sbyte (lo + 1)) x
  (if r.2 then s.updEvent k 0x1106 hdr which else s, h.setSbyte i r.1)

/-- The exponents after an update. -/
def Upd.steer (u : Upd) (hdr : Nat) (a : UpdAcc) (s : State) (h : LHdr) : State × LHdr :=
  let h0 := (h.setSbyte 24 h.k1n).setSbyte 26 h.k2n
  if h.proth then (s, h0)
  else
    let r1 := steerByte s u.k hdr h0 h.k1n 25 29 0 a.x1
    let r2 := if usesM2 h.rule then steerByte r1.1 u.k hdr r1.2 h.k2n 27 31 1 a.x2 else r1
    steerByte r2.1 u.k hdr r2.2 h.ku 28 33 2 a.xu

/-- The watch record after an update, with its events. A ratio of sums that are NaN is a free value (log entry 24). -/
def Upd.watch (u : Upd) (hdr : Nat) (a : UpdAcc) (s : State) (h : LHdr) : State × LHdr :=
  let sd := W96.val a.sd.word
  let rr : State × Nat := match watchRatio sd (W96.val a.sw.word) with
    | some r => (s, r)
    | none => let d := s.drawWord
              (d.1, d.2 % 65536)
  let live := decide (0 < a.lblk)
  let zero := !sd.isNan && Val.cmp sd (natVal 0) == .eq
  let moved := !sd.isNan && !zero
  let streak0 := bits h.d 1439 1424
  let alarmed0 := bit h.d 1440
  let streak := if live then (if zero then min (streak0 + 1) 65535 else if moved then 0 else streak0) else streak0
  let alarmed1 := if live && moved then false else alarmed0
  let thr := rr.1.fld (.rhz u.k) Reg.RHZ_STALL_CTL 15 0
  let fire := live && thr != 0 && decide (thr ≤ streak) && !alarmed1
  let ratio := rr.2
  let s1 := if fire then (rr.1.updEvent u.k 0x1101 hdr streak).bump (.rhz u.k) Reg.RHZ_STALL_COUNT else rr.1
  let lo := signed 16 (s1.fld (.rhz u.k) Reg.RHZ_RATIO_BAND 15 0)
  let hi := signed 16 (s1.fld (.rhz u.k) Reg.RHZ_RATIO_BAND 31 16)
  let s2 := if ratio ≠ 0x8000 ∧ (signed 16 ratio < lo ∨ hi < signed 16 ratio) then s1.updEvent u.k 0x1109 hdr ratio else s1
  let b (x : Bool) : Nat := if x then 1 else 0
  let rec_ := ratio + streak * 2 ^ 16 + b (alarmed1 || fire) * 2 ^ 32 + b live * 2 ^ 33 + a.zblk % 2 ^ 32 * 2 ^ 64
    + a.lblk % 2 ^ 32 * 2 ^ 96
  (s2, h.set 1535 1408 rec_)

/-- What an update counted: conversions, and its W96 sums once each (R54, R184). -/
def Upd.account (u : Upd) (cmd : LaneCmd) (a : UpdAcc) (s : State) : State × Tally :=
  let t1 := countSum a.t a.sw false 0
  let t2 := countSum t1 a.sd false 0
  let t := if u.h.rule = 2 then countSum t2 a.su false 0 else t2
  let s1 := (s.ledgerAdd u.c u.mf.code a.moments).ledgerAdd u.c u.wf.code a.weights
  match cmd.job with
  | some id => (s1.jobTally u.c id (.rhz u.k) (Page.id (.rhz u.k) * 4) t, t)
  | none =>
    let tc := (Tally.withCap {} t).capped
    (tc.events.foldl (fun s v => s.raise (.rhz u.k) v.1 v.2.1 v.2.2) s1, tc)

/-- Whether the mirror entry of a context asks for a copy after a step (R280). -/
def State.mirrorWants (s : State) (c step : Nat) : Bool :=
  let o := Reg.LML_MIRROR + 16 * c
  s.fld .fabric o 0 0 == 1 && step % s.fld .fabric o 31 16 == 0

/-- A release queued for a layer (R248). -/
def State.queueRelease (s : State) (k : Nat) (cmd : LaneCmd) (h : LHdr) (step status : Nat) : State :=
  if !h.relEn then s
  else
    let x := s.stack k
    s.setStack k { x with releases := x.releases ++ [{ hdr := cmd.hdr, ctx := cmd.ctx, closed := cmd.closed, step := step,
                                                        status := status, listAt := h.rel, w := h.area 0, nel := h.nel }] }

/-- The header write of R240, with the events of R179 to R185, and what follows it. -/
def Upd.finish (u : Upd) (cmd : LaneCmd) (a : UpdAcc) : State :=
  let step := u.h.step
  let s1 := match a.nans.head? with
    | some e => a.s.updEvent u.k 0x600C cmd.hdr e
    | none => a.s
  let st := u.steer cmd.hdr a s1 u.h
  let wt := u.watch cmd.hdr a st.1 st.2
  let h := (wt.2.setTorn 0).setStep ((step + 1) % 2 ^ 32)
  match wt.1.rhzWrite u.k u.c cmd.hdr h.bytes with
  | (s2, some _) =>
    -- R245: torn stays 1, and fault and last are written
    let r := u.account cmd a (s2.hdrLine u.k cmd ((u.h.setTorn 1).setFault 0x6005)).1
    let w := r.1.drawWord
    (w.1.updEvent u.k 0x6005 cmd.hdr w.2).updEnd u.k cmd step r.2 0x6005 w.2
  | (s2, none) =>
    let r := u.account cmd a s2
    let s3 := ((r.1.bump (.rhz u.k) Reg.RHZ_WATCH_DONE).bump (.rhz u.k) 0x188).queueRelease u.k cmd h step 0
    let s4 := if s3.mirrorWants u.c h.step then
        s3.setStack u.k { s3.stack u.k with mirrors := (s3.stack u.k).mirrors ++ [(cmd.hdr, u.c)] } else s3
    match a.nans.head? with
    | some e => s4.updEnd u.k cmd step r.2 0x600C e
    | none => s4.updEnd u.k cmd step r.2 0 0

/-- An update stopped by a bus error (R245). -/
def Upd.stopped (u : Upd) (cmd : LaneCmd) (a : UpdAcc) (e : Nat) : State :=
  let r := u.account cmd a a.s
  let s1 := (r.1.hdrLine u.k cmd ((u.h.setTorn 1).setFault 0x6005)).1
  let s2 := match a.nans.head? with
    | some x => s1.updEvent u.k 0x600C cmd.hdr x
    | none => s1
  (s2.updEvent u.k 0x6005 cmd.hdr e).updEnd u.k cmd u.h.step r.2 0x6005 e

/-- The update that a lane command is, for a layer with header `h`. -/
def State.updOf (s : State) (k : Nat) (cmd : LaneCmd) (h : LHdr) : Upd :=
  let d := UpdDesc.ofBytes cmd.desc
  let p := SMap.get {} (s.stack k).progs h.slot
  { k := k, c := cmd.ctx, h := h, z := h.scalars,
    seed := if cmd.closed.isSome then BitVec.ofNat 64 (h.hseed ^^^ h.step) else cmd.seed,
    closed := cmd.closed, src := (offsetIn k d.src).getD 0, gfmt := d.gfmt, image := p.image, ni := p.ni }

/-- An update of a legal layer: torn, the passes, the header (R240). -/
def State.updRun (s : State) (k : Nat) (cmd : LaneCmd) (h : LHdr) : State :=
  let u := s.updOf k cmd h
  match s.hdrLine k cmd (h.setTorn 1) with
  | (s1, some _) => s1.updBusStop k cmd (some (h.setTorn 1))
  | (s1, none) =>
    let a := u.run s1
    match a.bad with
    | some e => u.stopped cmd a e
    | none => u.finish cmd a

/-- Row 5 of R243. -/
def LaneCmd.shape (cmd : LaneCmd) (h : LHdr) : Option (Nat × Nat) :=
  match cmd.closed with
  | some cl => if h.nel ≠ cl.nel then some (0x6003, cl.nel % 2 ^ 32) else none
  | none => if cmd.kind = .apply ∧ (UpdDesc.ofBytes cmd.desc).step ≠ h.step then some (0x6006, h.step) else none

/-- An update at the head of the lanes: the header, the checks of R243, the update. -/
def State.updApply (k : Nat) (s : State) (cmd : LaneCmd) : State :=
  match s.hdrRead k cmd with
  | (s1, none) => s1.updBusStop k cmd none
  | (s1, some h) => match s1.updRows k cmd h (cmd.shape h) with
    | (s2, .refused code a2) => s2.updRefuse k cmd h code a2
    | (s2, .bus) => s2.updBusStop k cmd (some h)
    | (s2, .passed) => s2.updRun k cmd h

/-- The lane command that runs, stopped at the end of a cycle without events (R167, R251): how many blocks of an update
or bytes of an INIT have been written is a free value, none among them. An update stopped after its first element write
leaves torn = 1. Only what has reached memory stays. -/
def State.cutLane (s : State) (k : Nat) : State :=
  match s.laneRuns k with
  | none => s
  | some cmd =>
    let d := s.drawWord
    let keep (t : State) : State := { d.1 with stackTab := t.stackTab }
    match cmd.kind with
    | .update | .apply => match d.1.hdrRead k cmd with
      | (_, none) => d.1
      | (s1, some h) => match s1.updRows k cmd h (cmd.shape h) with
        | (s2, .passed) =>
          let u := s2.updOf k cmd h
          let n := d.2 % (2 * u.blocks + 2)
          if n = 0 then d.1 else keep (u.runTo (n - 1) (s2.hdrLine k cmd (h.setTorn 1)).1).s
        | _ => d.1
    | .init =>
      let h := LHdr.ofBytes cmd.image
      let x := s.ctx cmd.ctx
      let n := d.2 % (10 * h.nel + 2)
      if n = 0 ∨ (d.1.headerCheck k cmd.ctx cmd.hdr h).2 ≠ .legal ∨ !d.1.classOk k cmd.ctx h then d.1
      else
        let ud := UpdDesc.ofBytes cmd.desc
        let s1 := (d.1.rhzWrite k cmd.ctx cmd.hdr (h.initial x.joint x.proth).bytes).1
        keep (s1.initAreas k cmd.ctx h x.proth (if ud.wcopy then offsetIn k ud.wsrc else none) (some (n - 1))).1
    | _ => d.1

def execUpdateApply (job : Nat) (ph : Phase) (s : State) : Host.Outcome State Fault Refusal :=
  match ph with
  | .issue => updIssueOf 1 job s
  | .perform => updPerform .apply job s State.updApply

def execLayerUpdate (stack : Nat) (s : State) : Host.Outcome State Fault Refusal :=
  onLane s stack (fun l => l.kind == .update) (State.updApply stack)

/-! Skips and faults (R246). -/

/-- A skip. -/
def State.updSkip (k : Nat) (s : State) (cmd : LaneCmd) : State :=
  match s.hdrRead k cmd with
  | (s1, none) => s1.updHdrBus k cmd 0
  | (s1, some h) =>
    match s1.updRows k cmd h (cmd.shape h) with
    | (s1, .refused code a2) => s1.updRefuse k cmd h code a2
    | (s1, .bus) => s1.updHdrBus k cmd h.step
    | (s1, .passed) =>
      let new := (h.step + 1) % 2 ^ 32
      match s1.hdrLine k cmd ((h.setStep new).set 127 96 (min (h.skips + 1) 0xFFFFFFFF)) with
      | (s2, some _) => s2.updHdrBus k cmd h.step
      | (s2, none) =>
        ((((s2.updEvent k 0x600D cmd.hdr new).bump (.rhz k) 0x190).queueRelease k cmd h h.step 1)).updEnd k cmd h.step {}
          0x600D new

def execLayerSkip (stack : Nat) (s : State) : Host.Outcome State Fault Refusal :=
  onLane s stack (fun l => l.kind == .skip) (State.updSkip stack)

/-- A fault write; its record carries the code that it wrote. -/
def State.updFault (k code : Nat) (s : State) (cmd : LaneCmd) : State :=
  match s.hdrRead k cmd with
  | (s1, none) => s1.updHdrBus k cmd 0
  | (s1, some h) => match s1.hdrLine k cmd (h.setFault code) with
    | (s2, some _) => s2.updHdrBus k cmd h.step
    | (s2, none) => s2.updEnd k cmd h.step {} code 0

def execLayerFaultWrite (stack : Nat) (s : State) : Host.Outcome State Fault Refusal :=
  onLane s stack (fun l => match l.kind with
    | .fault _ => true
    | _ => false) (fun s cmd => match cmd.kind with
    | .fault code => s.updFault stack code cmd
    | _ => s)

end Sys2Proof.Machine
end

