-- ==== Sys2Proof/Machine/Release.lean ====
section
/-!
DEFINITION. Releases of finished layers and mirror copies (10_parameter_update.md, R247 to R249; 11_lumur_fabric.md, R261,
R280).
-/
namespace Sys2Proof.Machine

/-! Release lists (R247). -/

/-- An entry of a release list. -/
structure RelEntry where
  raw : Nat
  dst : Nat
  space : Nat
  node : Nat
  stamp : Nat
  deriving DecidableEq, Repr

def RelEntry.ofBytes (bs : List Byte) : RelEntry :=
  let d := leNat (bs.take 16)
  { raw := d, dst := bits d 43 0, space := bits d 46 44, node := bits d 63 48, stamp := bits d 107 64 }

def RelEntry.fieldsOk (e : RelEntry) : Bool :=
  !bit e.raw 47 && bits e.raw 127 108 == 0 && decide (e.space < 2)

/-- Bytes of weights of a release, and of the codes that follow them. -/
def Release.weightBytes (r : Release) : Nat := 2 * r.nel
def Release.codesAt (r : Release) : Nat := 64 * ceilDiv r.weightBytes 64
def Release.codeBytes (r : Release) : Nat := alignUp (ceilDiv r.nel 4096) 64

/-- Step 1 of R248 for one entry. -/
def State.relEntryOk (s : State) (r : Release) (group : Nat) (codes : Bool) (e : RelEntry) : Bool :=
  let n := if codes then r.codesAt + r.codeBytes else r.weightBytes
  let plain (g : Region) : Bool := !g.sealedBit
  let mine (a n : Nat) : Bool := s.holds { ctx := r.ctx } e.space a n && s.viewOwned r.ctx e.space a n plain
  e.fieldsOk && (if e.node = s.node then mine e.dst n && mine e.stamp 64 else (s.pathTo r.ctx group e.node).isSome)

/-! Sending (R248, R261). -/

/-- The 64-byte header of a remote write, a mirror write or an answer (R261). -/
def writeHeader (kind group node dst space len id : Nat) : List Byte :=
  leBytes 64 (kind + group * 2 ^ 8 + node * 2 ^ 24 + dst * 2 ^ 40 + space * 2 ^ 84 + len * 2 ^ 96 + id * 2 ^ 128)

/-- Most bytes that one remote write carries. -/
def chunkBytes : Nat := 2 ^ 31

/-- Data sent to an address of another node in writes with fresh identifiers, which it answers. -/
def State.sendWrites (s : State) (kind group l v dst space : Nat) (bs : List Byte) : State × List Nat :=
  (List.range (ceilDiv bs.length chunkBytes)).foldl (fun (r : State × List Nat) i =>
    let part := (bs.drop (i * chunkBytes)).take chunkBytes
    let id := r.1.nextWrite
    let m := writeHeader kind group r.1.node (dst + i * chunkBytes) space part.length id ++ part
    (({ r.1 with nextWrite := (id + 1) % 2 ^ 32 } : State).queueMsg l v { bytes := m }, r.2 ++ [id])) (s, [])

/-- Data written by a stack's Rhizoid through a view of its own module, granule by granule; the number of bytes before
the line that failed. -/
def State.localWrite (s : State) (c space a : Nat) (bs : List Byte) : State × Option Nat :=
  (List.range ((a + bs.length - 1) / 8192 - a / 8192 + 1)).foldl (fun (r : State × Option Nat) i =>
    match r.2 with
    | some _ => r
    | none =>
      let lo := max a ((a / 8192 + i) * 8192)
      let n := min (a + bs.length) ((a / 8192 + i + 1) * 8192) - lo
      match r.1.resolve (c / 8) space lo with
      | none => (r.1, some (lo - a))
      | some (k, o) => match r.1.writeRun k o 2 c ((bs.drop (lo - a)).take n) with
        | (s1, m) => (s1, if m = n then none else some (lo - a + m))) (s, none)

/-- The stamp of R249. -/
def State.relStamp (s : State) (k : Nat) (r : Release) (codes : Bool) : List Byte :=
  leBytes 2 s.node ++ leBytes 1 k ++ leBytes 1 r.status ++ leBytes 4 r.step ++ leBytes 5 r.nel
    ++ leBytes 1 (if codes then 1 else 0) ++ List.replicate 50 0#8

/-- A destination stamped. -/
def State.relStamped (s : State) (k : Nat) : State := s.bump (.rhz k) 0x194

/-- The first code that a release meets is that of its record. -/
def Release.note (r : Release) (code : Nat) : Release := if r.code = 0 then { r with code := code } else r

/-- A bus error at a destination: reported, and that destination ends (log entry 25). -/
def State.relBus (s : State) (k : Nat) (r : Release) (element : Option Nat) : State × Release :=
  let d := match element with
    | some e => (s, e)
    | none => s.drawWord
  (d.1.updEvent k 0x6005 r.hdr d.2, r.note 0x6005)

/-- A destination of the module itself: data, then its stamp. -/
def State.relLocal (s : State) (k : Nat) (r : Release) (e : RelEntry) (data codes : List Byte) : State × Release :=
  match s.localWrite r.ctx e.space e.dst data with
  | (s1, some n) => s1.relBus k r (some (n / 2))
  | (s1, none) =>
    match (if codes.isEmpty then (s1, none) else s1.localWrite r.ctx e.space (e.dst + r.codesAt) codes) with
    | (s2, some _) => s2.relBus k r none
    | (s2, none) => match s2.localWrite r.ctx e.space e.stamp r.stamp with
      | (s3, some _) => s3.relBus k r none
      | (s3, none) => (s3.relStamped k, r)

/-- A destination on another node: data in writes that await their answers. -/
def State.relRemote (s : State) (r : Release) (i : Nat) (e : RelEntry) (data codes : List Byte) : State × Release :=
  match s.pathTo r.ctx r.group e.node with
  | none => (s, r)
  | some (l, v) =>
    let a := s.sendWrites 0x20 r.group l v e.dst e.space data
    let b := if codes.isEmpty then (a.1, []) else a.1.sendWrites 0x20 r.group l v (e.dst + r.codesAt) e.space codes
    (b.1, { r with unacked := r.unacked ++ (a.2 ++ b.2).map (fun id => (i, id, l)),
                   stamps := r.stamps ++ [(i, e.node, e.space, e.stamp)] })

/-- One destination: its weights are read, then sent. -/
def State.relDest (s : State) (k : Nat) (r : Release) (i : Nat) (e : RelEntry) (codes : List Byte) : State × Release :=
  match s.rhzRead k r.ctx r.w r.weightBytes with
  | (s1, .error l) => s1.relBus k r (some ((64 * l - r.w) / 2))
  | (s1, .ok data) => if e.node = s1.node then s1.relLocal k r e data codes else s1.relRemote r i e data codes

/-! The record of a release (R358). -/

/-- A release that owes nothing more writes its record and ends; `i` is its place in the stack's list. -/
def State.relSettle (s : State) (k i : Nat) : State :=
  match (s.stack k).releases[i]? with
  | none => s
  | some r =>
    if r.begun ∧ r.stamps = [] then
      (s.setStack k { s.stack k with releases := (s.stack k).releases.eraseIdx i }).postRecord r.ctx
        (recordBytes r.code 0 6 {} (layerDetail k r.hdr r.step))
    else s

/-- A release refused before anything was sent. -/
def State.relRefuse (s : State) (k i : Nat) (r : Release) (code a2 : Nat) : State :=
  let s1 := s.updEvent k code r.hdr a2
  (s1.setStack k { s1.stack k with releases := (s1.stack k).releases.set i { r with begun := true, code := code } }).relSettle k i

/-- The codes that a level-2 buffer publishes: its next codes minus 8 (R216). For a code below 8 the spec states none, and
it is free (log entry 112). -/
def minus8 (codes free : List Byte) : List Byte :=
  codes.zipIdx.map (fun c => if 8 ≤ c.1.toNat then c.1 - 8#8 else free.getD c.2 0#8)

/-- The next codes that follow the weights. An APPLY has no buffer: the spec gives it none, and they are free (log entry
24). -/
def State.relCodes (s : State) (r : Release) (wanted : Bool) : State × List Byte :=
  if !wanted then (s, [])
  else
    let pad (l : List Byte) : List Byte := l ++ List.replicate (r.codeBytes - l.length) 0#8
    match r.closed with
    | some cl =>
      if cl.level2 then (let d := s.drawFree cl.codes.length
                         (d.1, pad (minus8 cl.codes d.2)))
      else (s, pad cl.codes)
    | none => let d := s.drawFree (ceilDiv r.nel 4096)
              (d.1, pad d.2)

/-- The whole of a release up to its last sent byte (R248). -/
def State.relStart (s : State) (k i : Nat) (r : Release) : State :=
  match s.rhzRead k r.ctx r.listAt 64 with
  | (s1, .error _) => let d := s1.drawWord
                      d.1.relRefuse k i r 0x6005 d.2
  | (s1, .ok head) =>
    let h := leNat head
    let n := bits h 23 16
    let wanted := bit h 24
    if h / 2 ^ 25 ≠ 0 ∨ n < 1 ∨ 64 < n then
      let d := s1.drawWord
      d.1.relRefuse k i r 0x6008 d.2
    else match s1.rhzRead k r.ctx (r.listAt + 64) (16 * n) with
      | (s2, .error _) => let d := s2.drawWord
                          d.1.relRefuse k i r 0x6005 d.2
      | (s2, .ok bs) =>
        let es := (List.range n).map (fun j => RelEntry.ofBytes (slice bs (16 * j) 16))
        let group := bits h 15 0
        match es.zipIdx.find? (fun x => !s2.relEntryOk r group wanted x.1) with
        | some x => s2.relRefuse k i r 0x6008 x.2
        | none =>
          let cs := s2.relCodes r wanted
          let r0 := { r with begun := true, group := group, stamp := cs.1.relStamp k r wanted }
          let out := es.zipIdx.foldl (fun (x : State × Release) e => x.1.relDest k x.2 e.2 e.1 cs.2) (cs.1, r0)
          (out.1.setStack k { out.1.stack k with releases := (out.1.stack k).releases.set i out.2 }).relSettle k i

/-- Whether a release may begin: an APPLY at once; otherwise when its buffer has been OPEN at the new step or has been
freed (R248). -/
def State.relReady (s : State) (k : Nat) (r : Release) : Bool :=
  !r.begun && (r.ready || (match r.closed with
    | none => true
    | some cl => ((s.stack k).findEntry r.ctx cl.group cl.buffer).isNone))

def execReleaseStart (stack hdr : Nat) (s : State) : Host.Outcome State Fault Refusal :=
  if ¬ stack < 12 then .fault .noSuchUnit
  else if !s.rhzRuns stack then notEnabled "the Rhizoid does not work"
  else
    let rs := (s.stack stack).releases
    match rs.findIdx? (fun r => r.hdr == hdr && !r.begun) with
    | none => notEnabled "no release of this layer waits"
    | some i => match rs[i]? with
      | none => notEnabled "no release of this layer waits"
      | some r =>
        if !s.relReady stack r then notEnabled "the buffer has not been OPEN at the new step"
        else .next (s.relStart stack i r)

/-! Answers to remote writes (R248, R251, R261). -/

/-- The release that sent a write over a link: stack, place in its list, and the destination's list position. -/
def State.findWrite (s : State) (l id : Nat) : Option (Nat × Nat × Nat) :=
  (List.range 12).findSome? (fun k =>
    (s.stack k).releases.zipIdx.findSome? (fun r =>
      (r.1.unacked.find? (fun u => u.2.1 == id && u.2.2 == l)).map (fun u => (k, r.2, u.1))))

/-- A release changed in place. -/
def State.updRel (s : State) (k i : Nat) (f : Release → Release) : State :=
  s.setStack k { s.stack k with releases := upd (s.stack k).releases i f }

/-- An acknowledged write; the last one of a destination sends its stamp. -/
def State.relAck (s : State) (l id : Nat) : State :=
  match s.findWrite l id with
  | none => s
  | some (k, i, pos) =>
    let s1 := s.updRel k i (fun r => { r with unacked := r.unacked.filter (fun u => !(u.2.1 == id && u.2.2 == l)) })
    match (s1.stack k).releases[i]? with
    | none => s1
    | some r =>
      if r.unacked.any (fun u => u.1 == pos) then s1
      else match r.stamps.find? (fun t => t.1 == pos) with
        | none => s1
        | some (_, node, space, addr) =>
          let s2 := s1.updRel k i (fun r => { r with stamps := r.stamps.filter (fun t => t.1 != pos) })
          match s2.pathTo r.ctx r.group node with
          | none => s2.relSettle k i
          | some (l2, v) => (((s2.sendWrites 0x20 r.group l2 v addr space r.stamp).1).relStamped k).relSettle k i

/-- A destination ended without its stamp. -/
def State.relDrop (s : State) (k i pos code : Nat) : State :=
  (s.updRel k i (fun r => ({ r with unacked := r.unacked.filter (fun u => u.1 != pos),
                                     stamps := r.stamps.filter (fun t => t.1 != pos) } : Release).note code)).relSettle k i

/-- The releases whose writes a link has lost (R251): 0x600B with the entry's index. -/
def State.relLost (s : State) (l : Nat) : Nat → State
  | 0 => s
  | fuel + 1 =>
    match (List.range 12).findSome? (fun k => (s.stack k).releases.zipIdx.findSome? (fun r =>
        (r.1.unacked.find? (fun u => u.2.2 == l)).map (fun u => (k, r.2, u.1, r.1.hdr)))) with
    | none => s
    | some (k, i, pos, hdr) => State.relLost ((s.updEvent k 0x600B hdr pos).relDrop k i pos 0x600B) l fuel

/-! Mirror copies (R280). -/

/-- The link and channel to a node for a context, whatever the group, and the channel's group. -/
def State.mirrorPath (s : State) (c node : Nat) : Option (Nat × Nat × Nat) :=
  (s.routeOf node).bind (fun l =>
    (((List.range 28).map (· + 4)).find? (fun v =>
      let w := s.vcMap l v
      let k := SMap.get {} (s.link l).slots (bits w 19 16)
      bit w 31 && k.bound && k.ctx == c && bits w 19 16 != 0)).map (fun v => (l, v, bits (s.vcMap l v) 15 0)))

/-- An area sent to the buddy: cut where the sum of offset and delta wraps. -/
def State.mirrorArea (s : State) (k c : Nat) (path : Nat × Nat × Nat) (off n delta : Nat) : State :=
  match s.rhzRead k c off n with
  | (s1, .error _) => s1
  | (s1, .ok bs) =>
    let at_ := (off + delta) % stackBytes
    let first := min n (stackBytes - at_)
    let base := 2 ^ 43 + k * stackBytes
    let a := s1.sendWrites 0x23 path.2.2 path.1 path.2.1 (base + at_) 1 (bs.take first)
    (a.1.sendWrites 0x23 path.2.2 path.1 path.2.1 base 1 (bs.drop first)).1

/-- The copy of a layer: its header and the areas w, m1 and m2 in use. -/
def State.mirrorLayer (s : State) (k hdr c : Nat) : State :=
  let o := Reg.LML_MIRROR + 16 * c
  let delta := s.fld .fabric o 100 64
  match s.mirrorPath c (s.fld .fabric o 47 32), s.rhzRead k c hdr 192 with
  | some path, (s1, .ok bs) =>
    let h := LHdr.ofBytes bs
    ((h.sizes h.proth).take 3).zipIdx.foldl (fun s x =>
      if x.1 = 0 then s else s.mirrorArea k c path (h.area x.2) x.1 delta) (s1.mirrorArea k c path hdr 192 delta)
  | some _, (s1, .error _) => s1
  | none, _ => s

def execMirrorSend (stack hdr : Nat) (s : State) : Host.Outcome State Fault Refusal :=
  if ¬ stack < 12 then .fault .noSuchUnit
  else if !s.rhzRuns stack then notEnabled "the Rhizoid does not work"
  else
    let x := s.stack stack
    match x.mirrors.find? (fun m => m.1 == hdr) with
    | none => notEnabled "no mirror copy of this layer is due"
    | some m =>
      if x.releases.any (fun r => r.hdr == hdr && !r.begun) then notEnabled "the layer's release has not begun"
      else .next ((s.setStack stack { x with mirrors := x.mirrors.erase m }).mirrorLayer stack hdr m.2)

end Sys2Proof.Machine
end

