-- ==== Sys2Proof/Machine/Resets.lean ====
section
/-!
DEFINITION. The return of register fields to their reset values (00_scope.md, R10 to R13; 15_host_interface.md, R388).
-/
namespace Sys2Proof.Machine

/-- The five kinds of reset (R10). -/
inductive ResetKind where
  | cold | module | partition | context | link
  deriving DecidableEq, Repr

/-- The scope reset of a page's header (R388). -/
def PageKind.scope : PageKind → ResetBy
  | .ctx => .context
  | .prt | .est | .ledger | .rhz | .mpe | .lml | .frd | .pna => .partition
  | _ => .module

/-- Whether a reset of a kind returns a field of a page to its reset value: the named reset or a wider one (R10). -/
def ResetBy.hit (page : PageKind) (k : ResetKind) : ResetBy → Bool
  | .none => false
  | .cold => k == .cold
  | .module => k == .cold || k == .module
  | .partition => k == .cold || k == .module || k == .partition
  | .context => k != .link
  | .link => k != .context
  | .scope => match page.scope with
    | .context => k != .link
    | .partition => k == .cold || k == .module || k == .partition
    | _ => k == .cold || k == .module

/-- The page with a given number. -/
def pageOfId (i : Nat) : Page :=
  if i = 0 then .top else if i < 3 then .hif (i - 1) else if i < 5 then .fnc (i - 3) else if i = 5 then .thl
  else if i < 8 then .mbx (i - 6) else if i = 8 then .lch else if i = 9 then .clk else if i = 10 then .tmb
  else if i = 11 then .pwr else if i = 12 then .mgt
  else if i < 25 then (match (i - 13) % 3 with
    | 0 => .prt ((i - 13) / 3)
    | 1 => .est ((i - 13) / 3)
    | _ => .ledger ((i - 13) / 3))
  else if i < 37 then .rhz (i - 25) else if i < 49 then .mpe (i - 37) else if i = 49 then .rgn
  else if i < 66 then .lml (i - 50) else if i = 66 then .fabric else if i < 99 then .frd (i - 67)
  else if i < 131 then .ctx (i - 99) else .pna (i - 131)

/-- The bits of a word whose fields satisfy `q`. -/
def fieldBits (fs : List RField) (q : RField → Bool) : Nat :=
  fs.foldl (fun n f => if q f then n ||| ((2 ^ (f.hi + 1 - f.lo) - 1) <<< f.lo) else n) 0

/-- The fields chosen by page, offset and field return to their reset values. -/
def State.resetFields (s : State) (q : Page → Nat → RField → Bool) : State :=
  { s with regs := s.regs.filterMap (fun e =>
      let pg := pageOfId (e.1 / 2048)
      let off := e.1 % 1024 * 4
      let keep := BitVec.ofNat 32 (fieldBits (pg.kind.word off) (q pg off))
      let v := e.2 &&& ~~~keep
      if v = 0#32 then none else some (e.1, v)) }

/-- The fields that a reset of a kind reaches on the pages chosen return to their reset values. -/
def State.resetPages (s : State) (k : ResetKind) (sel : Page → Bool) : State :=
  s.resetFields (fun pg _ f => sel pg && f.resetBy.hit pg.kind k)

end Sys2Proof.Machine
end

