-- ==== Sys2Proof/Machine/Link.lean ====
section
/-!
DEFINITION. Links: resets, training, lanes, key slots and sessions (11_lumur_fabric.md, R254 to R257, R265 to R273, R282,
R283).
-/
namespace Sys2Proof.Machine

/-- The link counters (R283). -/
def lmlCounter (i : Nat) : Nat := 0x080 + 4 * i

/-- An event of a link on its own page (R285). -/
def State.lmlEvent (s : State) (l code a2 : Nat) : State := s.raise (.lml l) code l a2

/-- `LML_LINK_STS.state` (R283); 4 says that the spare is in use (DEDUCED, log entry 28). -/
def Link.stateCode (x : Link) : Nat :=
  match x.phase with
  | .down => 0
  | .training => 1
  | .bootstrap => 2
  | .up => if x.half.isSome then 5 else if x.spareFor.isSome then 4 else 3

/-- The word `LML_LINK_STS`. -/
def Link.status (x : Link) : Nat :=
  x.stateCode + x.failed % 512 * 2 ^ 3 + (if x.half = some true then 2 ^ 12 else 0) + x.peer % 65536 * 2 ^ 16

def Link.slot (x : Link) (k : Nat) : KeySlot := SMap.get {} x.slots k
def Link.setSlot (x : Link) (k : Nat) (y : KeySlot) : Link := { x with slots := SMap.set {} x.slots k y }

/-- Whether a link carries frames. -/
def Link.runs (x : Link) : Bool := x.phase == .bootstrap || x.phase == .up

/-! The line (R255 to R257, R263). -/

/-- The lane that carries symbol `j` of a codeword: logical lane j mod 8, or j mod 4 of the half kept, with lane 8 in place
of the lane that it replaces (R255, R272, R273). -/
def Link.laneOf (x : Link) (j : Nat) : Nat :=
  let i := match x.half with
    | none => j % 8
    | some high => j % 4 + if high then 4 else 0
  if x.spareFor = some i then 8 else i

/-- The symbols of a superblock, by the lanes that carry them. -/
def Link.lanes (x : Link) (ctl : Nat) (flits : List Byte) : List (Nat × List Nat) :=
  let w := lineWords ctl flits
  let on (k : Nat) (cw : List Nat) : List Nat := (cw.zipIdx.filter (fun y => x.laneOf y.2 == k)).map Prod.fst
  ((List.range 9).map (fun k => (k, on k w.1 ++ on k w.2))).filter (fun y => !y.2.isEmpty)

/-- The control word of a superblock that reports channel `v` (R256). -/
def Link.control (x : Link) (start idle v : Nat) (nak : Bool) : Nat :=
  controlWord start idle ((x.seqIn + 65535) % 65536) nak v (SMap.get 0 x.got v)

/-- A superblock sent. -/
def State.sendBlock (s : State) (l start idle v : Nat) (nak : Bool) (flits : List Byte) : State :=
  s.emit (.superblock l ((s.link l).lanes ((s.link l).control start idle v nak) flits))

/-- An idle superblock, for its control word. -/
def State.sendControl (s : State) (l v : Nat) (nak : Bool) : State :=
  s.sendBlock l 0 31 v nak (List.replicate 1280 0#8)

/-- The next channel in rotation for a control word without a change of credits (R263). -/
def State.nextReport (s : State) (l : Nat) : State × Nat :=
  let v := ((s.link l).reported + 1) % 32
  (s.setLink l { s.link l with reported := v }, v)

/-- The superblocks of a frame sent. -/
def State.sendFlits (s : State) (l : Nat) (bs : List Byte) : State :=
  (frameBlocks (ceilDiv bs.length 1280) true bs).foldl (fun s b =>
    let r := s.nextReport l
    r.1.sendBlock l b.1 b.2.1 r.2 false b.2.2) s

/-- A control word that asks for a replay (R264). -/
def State.sendNak (s : State) (l : Nat) : State :=
  let r := s.nextReport l
  (r.1.setLink l { r.1.link l with naked := true }).sendControl l r.2 true

/-! Slots (R266 to R270). -/

/-- A notice to the peer's Thallus on VC3 about a slot (R265, R270): 1 retired, 2 a binding asked for, 3 bound. Its layout
is the model's (log entry 115). -/
def State.tellSlot (s : State) (l kind k fsid : Nat) : State :=
  s.queueMsg l 3 { bytes := leBytes 2 kind ++ leBytes 2 k ++ leBytes 4 fsid }


/-- The key of a slot in a direction and epoch (R266). -/
def slotKey (lm : List Byte) (slot dir epoch fsid : Nat) : List Byte :=
  hkdfExpand lm (ascii "lumur slot" ++ leBytes 1 slot ++ leBytes 1 dir ++ leBytes 4 epoch
    ++ (if slot = 0 then [] else leBytes 4 fsid)) 32

/-- The initialization vector of a frame (R267). -/
def frameIv (epoch counter : Nat) : List Byte := beBytes 4 epoch ++ beBytes 8 counter

/-- The key under which this module sends, and receives, on a slot. -/
def Link.key (x : Link) (k epoch : Nat) (sending : Bool) : List Byte :=
  slotKey (x.lm.getD []) k (if sending == x.requester then 0 else 1) epoch (x.slot k).fsid

/-- The last epoch (R269). -/
def lastEpoch : Nat := 0xFFFFFFFF

/-- A slot moved to its next epoch; the last one has none. -/
def KeySlot.next (k : KeySlot) : KeySlot :=
  if k.txEpoch < lastEpoch then { k with txEpoch := k.txEpoch + 1, txCount := 0 } else k

/-- The channels of a link that carry a slot. -/
def State.channelsOf (s : State) (l k : Nat) : List Nat :=
  ((List.range 28).map (· + 4)).filter (fun v => let w := s.vcMap l v
                                                 bit w 31 && bits w 19 16 == k)

/-- A context slot retired in both directions (R270): no frame starts on it, its keys are gone, and what waited on its
channels is dropped. -/
def State.retireSlot (s : State) (l k : Nat) : State :=
  let x := s.link l
  let y := x.slot k
  if !y.bound then s
  else
    let vs := s.channelsOf l k
    let drop {α : Type} (m : SMap α) : SMap α := m.filter (fun e => !vs.contains e.1)
    let x1 : Link := { x with tx := drop x.tx, rx := drop x.rx }
    (s.setLink l (x1.setSlot k { retired := some y.rxEpoch, staleSaid := y.staleSaid })).capExternal y.ctx 3 l 0

/-- A context slot retired, and the peer told on VC3 to retire its end. -/
def State.retireTell (s : State) (l k : Nat) : State :=
  let y := (s.link l).slot k
  if y.bound then (s.retireSlot l k).tellSlot l 1 k y.fsid else s

/-- Every slot of a context retired on every link. -/
def State.retireCtx (s : State) (c : Nat) : State :=
  (List.range 16).foldl (fun s l =>
    ((List.range 8).map (· + 1)).foldl (fun s k =>
      let y := (s.link l).slot k
      if y.bound ∧ y.ctx = c then s.retireTell l k else s) s) s

/-! Results of tenancy requests (R352). -/

/-- The result of the request of a partition's page, with the done notice of R395. -/
def State.reqDone (s : State) (p code reason : Nat) : State :=
  let s1 := s.setPart p { s.part p with reqBusy := false, request := none }
  let s2 := (s1.setFld (.prt p) Reg.PRT_REQ_RES 15 0 code).setFld (.prt p) Reg.PRT_REQ_RES 23 16 reason
  let s3 := ((s2.setFld (.prt p) Reg.PRT_REQ_CTL 0 0 0).setFld (.prt p) Reg.PRT_REQ_CTL 1 1 1).noteSet (.prt p) 0
    Reg.PRT_REQ_CTL 2
  s3.pageMessage (.prt p) 0 (s3.portOfPart p) 0

/-- A request refused with 0xA002 (R353, R373). -/
def State.tenRefuse (s : State) (p op reason : Nat) : State := (s.raise (.prt p) 0xA002 op reason).reqDone p 0xA002 reason

/-- Bindings that a link was asked for and that can no longer be confirmed: their requests fail (reason 4, peer). -/
def State.dropWaits (s : State) (l : Nat) (q : SlotWait → Bool) : State :=
  (s.link l).waits.foldl (fun s w => match w.2 with
    | some x =>
      if q x then
        let s1 := s.setLink l { s.link l with waits := SMap.set none (s.link l).waits w.1 none }
        match x.page with
        | some p => s1.tenRefuse p 7 4
        | none => s1
      else s
    | none => s) s

/-! Link resets (R282, R285). -/

/-- Writes of releases that no answer has come for. -/
def State.unackedWrites (s : State) : Nat :=
  ((List.range 12).map (fun k => ((s.stack k).releases.map (fun r => r.unacked.length)).sum)).sum

/-- A Link reset without its event. Messages that wait on the link are lost with those in flight (log entry 28). -/
def State.linkClear (s : State) (l : Nat) : State :=
  let x := s.link l
  let ctxs := (((List.range 8).map (· + 1)).filterMap (fun k => if (x.slot k).bound then some (x.slot k).ctx else none)).eraseDups
  let s1 := ctxs.foldl (fun s c => s.capExternal c 2 l 0x8003) (s.dropWaits l (fun _ => true))
  let hold := s1.fld (.lml l) Reg.LML_LINK_CTL 1 1 == 1
  let s2 := s1.setLink l { phase := if hold then .down else .training }
  (s2.resetPages .link (fun pg => pg == .lml l)).relLost l s2.unackedWrites

/-- A Link reset with its cause; one raised while its partition's reset is in progress is absorbed (R12). -/
def State.linkReset (s : State) (l cause : Nat) : State :=
  if (s.part (s.partOfQuarter (quarterOfLink l))).resetting then s
  else ((s.linkClear l).lmlEvent l 0x8003 cause).resync

/-- A write of `LML_LINK_CTL` (R283): hold, and a Link reset where retrain is written as 1; a link that is newly held goes
down. -/
def State.linkCtl (s : State) (l value : Nat) (hostLocked : Bool) : State :=
  let was := s.fld (.lml l) Reg.LML_LINK_CTL 1 1
  let now := if hostLocked then was else bits value 1 1
  let s1 := s.setFld (.lml l) Reg.LML_LINK_CTL 1 1 now
  if now = 1 ∧ was = 0 then
    let s2 := s1.linkReset l 0
    s2.setLink l { s2.link l with phase := .down }
  else if bit value 0 then s1.linkReset l 0
  else if now = 0 ∧ was = 1 then s1.setLink l { s1.link l with phase := .training }
  else s1

/-- A mixed register written whole: its RW fields meet a lock, the others act (R390). -/
def State.mixedWrite (s : State) (r : Requester) (pg : Page) (off : Nat) (eff : State → Bool → State) : State :=
  let locked := s.lockBinds r pg
  let s1 := eff s locked
  if locked then s1.lockMet r pg off else s1

def execLinkRetrain (r : Requester) (l value : Nat) (s : State) : Host.Outcome State Fault Refusal :=
  if ¬ l < 16 then .fault .noSuchUnit
  else if !bit value 0 then notEnabled "the write does not set retrain"
  else regWrite s r (.lml l) Reg.LML_LINK_CTL false (fun s =>
    s.mixedWrite r (.lml l) Reg.LML_LINK_CTL (fun s locked => s.linkCtl l value locked))

/-- A link has retrained at its full width; its session is yet to be established. -/
def execLinkTrained (l : Nat) (s : State) : Host.Outcome State Fault Refusal :=
  if ¬ l < 16 then .fault .noSuchUnit
  else if s.clk.inReset then notEnabled "a Module reset is in force"
  else if (s.link l).phase ≠ .training then notEnabled "the link is not training"
  else .next (s.setLink l { s.link l with phase := .bootstrap })

/-- A write of `LML_REKEY_CTL` (R269): exp, if it is in range and not locked, and force. -/
def State.rekeyCtl (s : State) (l value : Nat) (locked : Bool) : State :=
  let e := bits value 5 0
  let s1 := if !locked ∧ 20 ≤ e ∧ e ≤ 47 then s.setFld (.lml l) Reg.LML_REKEY_CTL 5 0 e else s
  if !bit value 8 then s1
  else
    let x := s1.link l
    s1.setLink l ((List.range 9).foldl (fun (x : Link) k =>
      if (x.slot k).bound then x.setSlot k (x.slot k).next else x) x)

def execRekeyForce (r : Requester) (l value : Nat) (s : State) : Host.Outcome State Fault Refusal :=
  if ¬ l < 16 then .fault .noSuchUnit
  else if !bit value 8 then notEnabled "the write does not set force"
  else regWrite s r (.lml l) Reg.LML_REKEY_CTL false (fun s =>
    s.mixedWrite r (.lml l) Reg.LML_REKEY_CTL (fun s locked => s.rekeyCtl l value locked))

/-- A peer's notice on VC3 that a context slot is retired (R270). -/
def execSlotRetireNotice (l slot : Nat) (s : State) : Host.Outcome State Fault Refusal :=
  if ¬ (l < 16 ∧ 1 ≤ slot ∧ slot ≤ 8) then .fault .noSuchUnit
  else if (s.link l).phase ≠ .up then notEnabled "the link has no session"
  else thlRequest s (.slotRetire l slot) (fun s => s.retireSlot l slot)

/-! Lanes (R271 to R273). -/

/-- Failed lanes of a half: lanes 0 to 3, or 4 to 7. -/
def Link.failedIn (x : Link) (high : Bool) : Nat :=
  ((List.range 4).filter (fun i => bit x.failed (i + if high then 4 else 0))).length

/-- The first failed lane of a half. -/
def Link.firstFailed (x : Link) (high : Bool) : Option Nat :=
  ((List.range 4).map (fun i => i + if high then 4 else 0)).find? (fun i => bit x.failed i)

/-- The link goes to 4 lanes, or down where neither half can be completed (R273); one at 4 lanes already takes the half that
the rule then names, without a second event. The cause of the Link reset is an event code that the spec does not name: it
is a free value. -/
def State.degrade (s : State) (l : Nat) : State :=
  let x := s.link l
  let high := decide (x.failedIn true < x.failedIn false)
  let spare := if bit x.failed 8 then 0 else 1
  if x.failedIn high ≤ spare then
    let s1 := s.setLink l { x with half := some high, spareFor := x.firstFailed high, remapping := none, remapStage := 0 }
    if x.half.isNone then s1.lmlEvent l 0x8002 (if high then 1 else 0) else s1
  else
    let d := s.drawWord
    d.1.linkReset l (d.2 % 65536)

/-- A lane is declared failed. -/
def State.failLane (s : State) (l lane : Nat) : State :=
  let x0 := s.link l
  if bit x0.failed lane then s
  else
    let x : Link := { x0 with failed := x0.failed ||| 2 ^ lane }
    let s1 := s.setLink l x
    let matters := match x.half with
      | none => decide (lane < 8) || x.spareFor.isSome || x.remapping.isSome
      | some h => if lane = 8 then x.spareFor.isSome else decide (lane / 4 = if h then 1 else 0)
    if !matters then s1
    else if x.half.isNone ∧ lane < 8 ∧ x.spareFor.isNone ∧ x.remapping.isNone ∧ !bit x.failed 8 then
      (s1.setLink l { x with remapping := some lane, remapStage := 1 }).emit (.orderedSet l [BitVec.ofNat 8 lane])
    else s1.degrade l

def execLaneFailed (l lane : Nat) (s : State) : Host.Outcome State Fault Refusal :=
  if ¬ (l < 16 ∧ lane < 9) then .fault .noSuchUnit
  else if !(s.link l).runs then notEnabled "the link is not up"
  else if bit (s.link l).failed lane then notEnabled "the lane has already failed"
  else .next (s.failLane l lane)

/-- The end of a window of 2^24 codewords (R271): the corrected symbols of each lane are those of the superblocks received,
and those of the idle ones that no command brought, which it gives. -/
def execLaneErrorWindow (l : Nat) (counts : List Nat) (s : State) : Host.Outcome State Fault Refusal :=
  if ¬ l < 16 then .fault .noSuchUnit
  else if !(s.link l).runs then notEnabled "the link is not up"
  else
    let thresh := s.fld (.lml l) Reg.LML_LANE_CTL 15 0
    let seen := (s.link l).laneErrs
    .next ((List.range 9).foldl (fun s i =>
      if thresh ≠ 0 ∧ thresh < SMap.get 0 seen i + counts.getD i 0 ∧ (s.link l).runs then s.failLane l i else s)
      (s.setLink l { s.link l with laneErrs := [] }))

/-- A remap ordered set (R272): the answer to this module's own, or the peer's request, which is answered. -/
def execRemapOrderedSet (l lane : Nat) (s : State) : Host.Outcome State Fault Refusal :=
  if ¬ (l < 16 ∧ lane < 8) then .fault .noSuchUnit
  else if !(s.link l).runs then notEnabled "the link is not up"
  else
    let x := s.link l
    if x.remapping = some lane then .next (s.setLink l { x with remapStage := 2 })
    else if x.remapping.isNone ∧ x.spareFor.isNone ∧ x.half.isNone ∧ !bit x.failed 8 then
      .next ((s.setLink l { x with failed := x.failed ||| 2 ^ lane, remapping := some lane, remapStage := 2 }).emit
        (.orderedSet l [BitVec.ofNat 8 lane]))
    else .next ((s.setLink l { x with failed := x.failed ||| 2 ^ lane }).degrade l)

def execRemapDeskewDone (l : Nat) (s : State) : Host.Outcome State Fault Refusal :=
  if ¬ l < 16 then .fault .noSuchUnit
  else
    let x := s.link l
    match x.remapping with
    | none => notEnabled "no lane is being remapped"
    | some lane =>
      if x.remapStage ≠ 2 then notEnabled "both ends have not switched"
      else
        let s1 := s.setLink l { x with spareFor := some lane, remapping := none, remapStage := 0 }
        .next (((s1.bump (.lml l) (lmlCounter 7)).lmlEvent l 0x8001 lane).sendNak l)

end Sys2Proof.Machine
end

