-- ==== Sys2Proof/Machine/Frames.lean ====
section
/-!
DEFINITION. Frames, credits, acknowledgements, delivery of messages and remote writes (11_lumur_fabric.md, R256 to R264,
R267 to R269; 09_gradient_reduction.md, R202).
-/
namespace Sys2Proof.Machine

/-! The timebase in units of 2^−16 ns (R274, R283). -/

/-- The timebase now. -/
def State.fineTime (s : State) : Nat := (s.tmb.ns * 2 ^ 40 + s.tmb.frac) / 2 ^ 24

/-- A timestamp (R274): the time in steps of 15.625 ps, which are 1,024 units; which of two neighbouring steps a time
between them takes is a free value (log entry 30). -/
def State.stamp (s : State) : State × Nat :=
  let t := s.fineTime
  if t % 1024 = 0 then (s, t)
  else
    let d := s.drawWord
    (d.1, (t / 1024 + d.2 % 2) * 1024)

/-- The kind of a time message in the layout of the model: 1 request, 2 answer; and its number (log entry 30). -/
def timeKind (bs : List Byte) : Nat := leNat (bs.take 8)
def timeNumber (bs : List Byte) : Nat := leNat (slice bs 8 8)
def timeRequest (n : Nat) : List Byte := leBytes 8 1 ++ leBytes 8 n ++ leBytes 48 0
def timeAnswer (n t2 t3 : Nat) : List Byte := leBytes 8 2 ++ leBytes 8 n ++ leBytes 16 t2 ++ leBytes 16 t3 ++ leBytes 16 0

/-! Frame headers (R259). -/

/-- A frame header with its fields under the names of R259. -/
structure FrameHdr where
  vc : Nat
  slot : Nat
  som : Bool
  eom : Bool
  fm1 : Nat
  len : Nat
  epoch : Nat
  counter : Nat
  seq : Nat
  deriving DecidableEq, Repr

def FrameHdr.bytes (h : FrameHdr) : List Byte :=
  leBytes 32 (h.vc + h.slot * 2 ^ 5 + (if h.som then 2 ^ 9 else 0) + (if h.eom then 2 ^ 10 else 0) + h.fm1 * 2 ^ 11
    + h.len * 2 ^ 15 + h.epoch * 2 ^ 32 + h.counter * 2 ^ 64 + h.seq * 2 ^ 128)

def FrameHdr.ofBytes (bs : List Byte) : FrameHdr :=
  let d := leNat (bs.take 32)
  { vc := bits d 4 0, slot := bits d 8 5, som := bit d 9, eom := bit d 10, fm1 := bits d 14 11, len := bits d 26 15,
    epoch := bits d 63 32, counter := bits d 111 64, seq := bits d 143 128 }

/-- The reserved bits of a frame header are 0. -/
def frameReserved (bs : List Byte) : Bool :=
  let d := leNat (bs.take 32)
  bits d 31 27 == 0 && bits d 127 112 == 0 && bits d 255 144 == 0

/-! Sending (R258, R260, R263, R264, R269). -/

/-- Flits of a channel's receive buffer (R262). -/
def State.bufferFlits (s : State) (l v : Nat) : Nat := bits (s.vcMap l v) 26 20 + 1

/-- The flits of the next frame of a message: as full as the message and the receive buffer allow (log entry 29). -/
def State.frameFlits (s : State) (l v : Nat) (m : Msg) : Nat :=
  min (min 16 (s.bufferFlits l v)) (ceilDiv (m.bytes.length - m.sent + 48) 256)

/-- Flits that the peer's buffer of a channel can take. -/
def State.credits (s : State) (l v : Nat) : Nat :=
  let x := s.link l
  s.bufferFlits l v - (SMap.get 0 x.sent v + 256 - SMap.get 0 x.freed v % 256) % 256

/-- Whether a channel is ready to send. -/
def State.ready (s : State) (l v : Nat) : Bool :=
  let x := s.link l
  let w := s.vcMap l v
  let k := bits w 19 16
  match SMap.get [] x.tx v with
  | [] => false
  | m :: _ =>
    bit w 31 && (decide (v < 4) || (s.role != 0 && k != 0))
      && (if x.phase = .bootstrap then v == 3 else (x.slot k).bound && !(x.slot k).ended)
      && decide (s.frameFlits l v m ≤ s.credits l v)

/-- The channel that the sender chooses (R263). -/
def State.chosen (s : State) (l : Nat) : Option Nat :=
  ([1, 0, 2, 3] ++ (List.range 28).map (fun i => ((s.link l).rotate + 1 + i) % 28 + 4)).find? (s.ready l)

/-- A slot before a frame: at 2^exp frames it moves to its next epoch (R269). -/
def KeySlot.turn (k : KeySlot) (limit : Nat) : KeySlot := if limit ≤ k.txCount ∧ k.txEpoch ≠ 0 then k.next else k

/-- The bytes of a frame (R258, R267); epoch 0 is sent in clear with a zero tag (R266). -/
def Link.frame (x : Link) (h : FrameHdr) (payload : List Byte) : List Byte :=
  let size := 256 * (h.fm1 + 1)
  let e := if h.epoch = 0 then (payload, List.replicate 16 0#8)
           else gcmEncrypt (x.key h.slot h.epoch true) (frameIv h.epoch h.counter) h.bytes payload
  h.bytes ++ e.1 ++ List.replicate (size - 48 - payload.length) 0#8 ++ e.2

/-- A message as it departs: a time request is stamped with t1, and a time answer takes t3 (R274). -/
def State.depart (s : State) (l v : Nat) (m : Msg) : State × Msg :=
  if v ≠ 1 then (s, m)
  else if timeKind m.bytes = 1 then
    let t := s.stamp
    (t.1.setLink l { t.1.link l with timeAsked := (t.1.link l).timeAsked ++ [(timeNumber m.bytes, t.2)] }, m)
  else if timeKind m.bytes = 2 then
    let t := s.stamp
    (t.1, { m with bytes := timeAnswer (timeNumber m.bytes) (leNat (slice m.bytes 16 16)) t.2 })
  else (s, m)

/-- The next frame of a channel is sent. -/
def State.sendFrame (s0 : State) (l v : Nat) (m0 : Msg) : State :=
  let s := (s0.depart l v m0).1
  let m := (s0.depart l v m0).2
  let x := s.link l
  let k := bits (s.vcMap l v) 19 16
  let limit := 2 ^ s.fld (.lml l) Reg.LML_REKEY_CTL 5 0
  let slot := (x.slot k).turn limit
  let F := s.frameFlits l v m
  let payload := (m.bytes.drop m.sent).take (256 * F - 48)
  let done := m.sent + payload.length
  let h : FrameHdr := { vc := v, slot := k, som := m.sent == 0, eom := done == m.bytes.length, fm1 := F - 1,
                        len := payload.length, epoch := slot.txEpoch, counter := slot.txCount, seq := x.seqOut }
  let bs := x.frame h payload
  let used : KeySlot := { slot with txCount := slot.txCount + 1 }
  let exceeds := decide (used.txEpoch = lastEpoch) && decide (limit ≤ used.txCount)
  let rest := (SMap.get [] x.tx v).drop 1
  let queue := if done < m.bytes.length then { m with sent := done } :: rest else rest
  let x1 : Link := { x with tx := SMap.set [] x.tx v queue, sent := SMap.set 0 x.sent v ((SMap.get 0 x.sent v + F) % 256),
                             seqOut := (x.seqOut + 1) % 65536, replay := x.replay ++ [(x.seqOut, bs)],
                             rotate := if v < 4 then x.rotate else v - 4 }
  let s1 := (s.setLink l (x1.setSlot k { used with ended := used.ended || exceeds })).sendFlits l bs
  if exceeds then s1.lmlEvent l 0x800F k else s1

/-- A frame is started (R263, R264): not while 64 frames are unacknowledged or a lane is being remapped. -/
def execFrameTransmit (l : Nat) (s : State) : Host.Outcome State Fault Refusal :=
  if ¬ l < 16 then .fault .noSuchUnit
  else
    let x := s.link l
    if !x.runs ∨ x.remapping.isSome then notEnabled "the link starts no frame"
    else if 64 ≤ x.replay.length then notEnabled "64 frames are unacknowledged"
    else match s.chosen l with
      | none => notEnabled "no channel is ready to send"
      | some v => match SMap.get [] x.tx v with
        | [] => notEnabled "no channel is ready to send"
        | m :: _ => .next (s.sendFrame l v m)

/-! Superblocks received (R256, R257). -/

/-- A control word of the peer: acknowledgement, credits, and a replay where nak is set. -/
def State.takeControl (s : State) (l n : Nat) : State :=
  let x := s.link l
  let ack := bits n 25 10
  let kept := match x.replay.findIdx? (fun r => r.1 == ack) with
    | some i => x.replay.drop (i + 1)
    | none => x.replay
  let s1 := s.setLink l { x with replay := kept, freed := SMap.set 0 x.freed (bits n 31 27) (bits n 39 32) }
  if bit n 26 then (kept.foldl (fun s r => s.sendFlits l r.2) s1).bump (.lml l) (lmlCounter 2) kept.length else s1

/-- Whether the decoder cannot correct a codeword. -/
def uncorrectable (errs : List Nat) : Bool := decide (rsCorrects < errs.length)

/-- The symbols corrected in a codeword, attributed to their lanes. -/
def Link.blame (x : Link) (errs : List Nat) : Link :=
  if uncorrectable errs then x
  else { x with laneErrs := errs.foldl (fun m j => SMap.set 0 m (x.laneOf j) (SMap.get 0 m (x.laneOf j) + 1)) x.laneErrs }

/-- A superblock decoded: its codewords are counted, and its control word acts unless either half of it is lost. -/
def State.takeBlock (s : State) (l : Nat) (b : Superblock) : State :=
  let es := [b.errs0, b.errs1]
  let bad := es.countP uncorrectable
  let fixed := es.countP (fun e => !e.isEmpty && !uncorrectable e)
  let s1 := ((s.setLink l (es.foldl Link.blame (s.link l))).bump (.lml l) (lmlCounter 0) fixed).bump (.lml l) (lmlCounter 1) bad
  if bad = 0 then s1.takeControl l b.ctl.toNat else s1

/-- A superblock in which no frame has a flit, for its control word. -/
def execControlWordReceived (l : Nat) (block : Superblock) (s : State) : Host.Outcome State Fault Refusal :=
  if ¬ l < 16 then .fault .noSuchUnit
  else if !(s.link l).runs then notEnabled "the link is not up"
  else .next (s.takeBlock l block)

/-! Receiving (R261, R268, R202). -/

/-- A whole message of a channel. Contributions go to their stack; VC2 and writes wait for Thallus and the I/O die; time
messages are stamped. Messages of VC0 and VC3 have no meaning but that of the commands that announce them. -/
def State.deliver (s : State) (l v k : Nat) (bytes : List Byte) : State :=
  let x := s.link l
  let keep (s : State) : State := s.setLink l { x with inbox := x.inbox ++ [(v, k, bytes)] }
  if v = 1 then
    let t := s.stamp
    let y := t.1.link l
    if timeKind bytes = 1 then t.1.setLink l { y with timeDue := y.timeDue ++ [(timeNumber bytes, t.2)] }
    else if timeKind bytes = 2 then
      t.1.setLink l { y with timeGot := y.timeGot ++ [(timeNumber bytes, leNat (slice bytes 16 16), leNat (slice bytes 32 16), t.2)] }
    else s
  else if v = 2 then
    if 64 ≤ s.thl.queue.length then s.thlBusy (.fabric l) else (keep s).thlArrive (.fabric l)
  else if v < 4 then s
  else
    let kind := leNat (bytes.take 1)
    if 1 ≤ kind ∧ kind ≤ 0x13 then
      let c := (x.slot k).ctx
      let dest := (Contrib.ofBytes bytes).stack
      if (s.stacksOf (c / 8)).contains dest then s.toStack dest { ctx := c, sender := .link l, bytes := bytes } else s.lmlEvent l 0x8009 v
    else if 0x20 ≤ kind ∧ kind ≤ 0x23 then keep s
    else s.lmlEvent l 0x8009 v

/-- A frame's payload joined to its message. A part of a message whose beginning was never received is dropped. -/
def State.assemble (s : State) (l : Nat) (h : FrameHdr) (payload : List Byte) : State :=
  let x := s.link l
  let old := SMap.get [] x.rx h.vc
  if !h.som ∧ old = [] then s
  else
    let all := if h.som then payload else old ++ payload
    let s1 := s.setLink l { x with rx := SMap.set [] x.rx h.vc (if h.eom then [] else all) }
    if h.eom then s1.deliver l h.vc h.slot all else s1

/-- A frame that consumed its sequence number: it is acknowledged and its credits are returned at once. -/
def State.consume (s : State) (l : Nat) (h : FrameHdr) : State :=
  let x := s.link l
  let s1 := s.setLink l { x with seqIn := (x.seqIn + 1) % 65536, naked := false,
                                 got := SMap.set 0 x.got h.vc ((SMap.get 0 x.got h.vc + h.fm1 + 1) % 256) }
  s1.sendControl l h.vc false

/-- Row 3 of R268: whether a frame's header is legal and its channel and slot stand. A slot under whose retired epoch the
frame comes is left to row 4 (R270). -/
def State.frameFits (s : State) (l : Nat) (h : FrameHdr) (bs : List Byte) : Bool :=
  let x := s.link l
  let w := s.vcMap l h.vc
  let k := x.slot h.slot
  frameReserved bs && 256 * (h.fm1 + 1) == bs.length && decide (1 ≤ h.len) && decide (h.len + 48 ≤ bs.length)
    && bit w 31 && bits w 19 16 == h.slot
    && (if x.phase = .bootstrap then h.vc == 3 else k.bound || k.retired == some h.epoch)

/-- Row 4 of R268: the previous or retired epoch of slot `i`. A context slot's first epoch is 1: it has none before it. -/
def KeySlot.stale (k : KeySlot) (i epoch : Nat) : Bool :=
  k.retired == some epoch || (k.bound && epoch + 1 == k.rxEpoch && (i == 0 || epoch != 0))

/-- The plaintext of a frame, if its tag and counter are right (row 6 of R268). -/
def Link.open (x : Link) (h : FrameHdr) (bs : List Byte) : Option (List Byte) :=
  let k := x.slot h.slot
  let expect := if h.epoch = k.rxEpoch then k.rxCount else 0
  let ct := slice bs 32 h.len
  let tag := bs.drop (bs.length - 16)
  if h.counter ≠ expect then none
  else if h.epoch = 0 then (if leNat tag = 0 then some ct else none)
  else gcmDecrypt (x.key h.slot h.epoch false) (frameIv h.epoch h.counter) (bs.take 32) ct tag

/-- An accepted frame (row 8 of R268). -/
def State.acceptFrame (s : State) (l : Nat) (h : FrameHdr) (plain : List Byte) : State :=
  let x := s.link l
  let k := x.slot h.slot
  let s1 := s.setLink l (x.setSlot h.slot { k with rxEpoch := h.epoch, rxCount := h.counter + 1 })
  (s1.consume l h).assemble l h plain

/-- The decision of R268 from row 2 on. -/
def State.judgeFrame (s : State) (l : Nat) (bs : List Byte) : State :=
  let x := s.link l
  let h := FrameHdr.ofBytes bs
  let k := x.slot h.slot
  if h.seq ≠ x.seqIn then s.sendNak l
  else if !s.frameFits l h bs then ((s.consume l h).bump (.lml l) (lmlCounter 5)).lmlEvent l 0x8009 h.vc
  else if k.stale h.slot h.epoch then
    let s1 := (s.consume l h).bump (.lml l) (lmlCounter 3)
    if k.staleSaid = some h.epoch then s1
    else
      let y := s1.link l
      (s1.setLink l (y.setSlot h.slot { y.slot h.slot with staleSaid := some h.epoch })).lmlEvent l 0x8005
        (h.slot + h.epoch % 2 ^ 28 * 16)
  else if h.epoch ≠ k.rxEpoch ∧ (h.epoch ≠ k.rxEpoch + 1 ∨ x.phase = .bootstrap) then
    ((s.consume l h).bump (.lml l) (lmlCounter 4)).lmlEvent l 0x8006 h.slot
  else match x.open h bs with
    | none => ((s.bump (.lml l) (lmlCounter 6)).lmlEvent l 0x8007 h.slot).linkReset l 0x8007
    | some plain =>
      if s.bufferFlits l h.vc < h.fm1 + 1 then (s.lmlEvent l 0x800A h.vc).linkReset l 0x800A
      else s.acceptFrame l h plain

/-- The bytes of the frame that begins at a flit of the first of some superblocks: its header tells its length. -/
def frameAt (flit : Nat) (blocks : List Superblock) : List Byte :=
  let bs := (blocks.flatMap (fun b => b.flits)).drop (256 * flit)
  bs.take (256 * ((FrameHdr.ofBytes bs).fm1 + 1))

/-- Whether a frame begins at a flit, whose start bit is set (R258), and ends in the last of the superblocks. -/
def frameStands (flit : Nat) (blocks : List Superblock) : Bool :=
  match blocks with
  | [] => false
  | b :: _ =>
    let last := flit + (frameAt flit blocks).length / 256
    bit b.ctl.toNat flit && !bit b.ctl.toNat (5 + flit) && decide (5 * (blocks.length - 1) < last)
      && decide (last ≤ 5 * blocks.length) && blocks.all (fun b => b.flits.length == 1280)

/-- Whether a flit of the frame lies in an uncorrectable codeword (row 1 of R268). -/
def frameLost (flit : Nat) (blocks : List Superblock) : Bool :=
  (List.range ((frameAt flit blocks).length / 256)).any (fun i =>
    match blocks[(flit + i) / 5]? with
    | some b => (flitIn ((flit + i) % 5) false && uncorrectable b.errs0) || (flitIn ((flit + i) % 5) true && uncorrectable b.errs1)
    | none => false)

/-- The superblocks that the frame is the first to have a flit in: they are counted, and their control words act, with it. -/
def newBlocks (flit : Nat) (blocks : List Superblock) : List Superblock :=
  match blocks with
  | [] => []
  | b :: rest => if (List.range flit).all (fun i => bit b.ctl.toNat (5 + i)) then b :: rest else rest

/-- Whether the start bits of a superblock can be read: a control word with a lost half is ignored whole (R257). -/
def startSeen (blocks : List Superblock) : Bool :=
  match blocks with
  | [] => false
  | b :: _ => !uncorrectable b.errs0 && !uncorrectable b.errs1

/-- A frame decoded: it begins at flit `flit` of the first superblock (R257, R258, R268). -/
def State.takeFrame (s : State) (l flit : Nat) (blocks : List Superblock) : State :=
  let s1 := (newBlocks flit blocks).foldl (fun s b => s.takeBlock l b) s
  if frameLost flit blocks then (s1.raiseLimited msTicks l (.lml l) 0x8004 l (s1.link l).seqIn).sendNak l
  else if startSeen blocks then s1.judgeFrame l (frameAt flit blocks)
  else s1

def execFrameReceived (l flit : Nat) (blocks : List Superblock) (s : State) : Host.Outcome State Fault Refusal :=
  if ¬ l < 16 then .fault .noSuchUnit
  else if !(s.link l).runs then notEnabled "the link is not up"
  else if !frameStands flit blocks then notEnabled "no frame begins at the flit and ends in the last superblock"
  else .next (s.takeFrame l flit blocks)

/-! Remote and mirror writes (R261). -/

/-- The first message of VC4 to VC31 that waits at the I/O die. -/
def Link.nextWriteMsg (x : Link) : Option (Nat × Nat × List Byte) := x.inbox.find? (fun m => decide (4 ≤ m.1))

/-- The meaning of a command on a waiting message of a kind. -/
def onWrite (s : State) (l kind : Nat) (eff : State → Nat → Nat → List Byte → State) : Host.Outcome State Fault Refusal :=
  if ¬ l < 16 then .fault .noSuchUnit
  else match (s.link l).nextWriteMsg with
    | none => notEnabled "no message waits"
    | some m =>
      if leNat (m.2.2.take 1) ≠ kind then notEnabled "a message of another kind waits first"
      else .next (eff (s.setLink l { s.link l with inbox := (s.link l).inbox.erase m }) m.1 m.2.1 m.2.2)

/-- An answer to a write (R261). -/
def State.answerWrite (s : State) (l v kind : Nat) (bs : List Byte) : State :=
  let d := leNat (bs.take 64)
  s.queueMsg l v { bytes := writeHeader kind (bits d 23 8) s.node 0 0 0 (bits d 159 128) }

/-- A received write: performed where every byte lies in the context's partition and regions, and outside or inside
sealed regions as its kind has it. -/
def State.performWrite (s : State) (l v k : Nat) (bs : List Byte) (mirror : Bool) : State :=
  let d := leNat (bs.take 64)
  let y := (s.link l).slot k
  let data := bs.drop 64
  let space := bits d 86 84
  let a := bits d 83 40
  let ok := y.bound && decide (space < 2) && bits d 127 96 == data.length && !data.isEmpty
    && s.holds { ctx := y.ctx } space a data.length
    && s.viewOwned y.ctx space a data.length (fun g => g.sealedBit == mirror)
  if !y.bound then s
  else if !ok then s.answerWrite l v 0x22 bs
  else match s.writeView (y.ctx / 8) space a (if mirror then 3 else 0) y.ctx data (runFuel data.length) with
    | (s1, true) => s1.answerWrite l v 0x21 bs
    | (s1, false) => s1.answerWrite l v 0x22 bs

def execRemoteWrite (l : Nat) (s : State) : Host.Outcome State Fault Refusal :=
  onWrite s l 0x20 (fun s v k bs => s.performWrite l v k bs false)

def execMirrorWrite (l : Nat) (s : State) : Host.Outcome State Fault Refusal :=
  onWrite s l 0x23 (fun s v k bs => s.performWrite l v k bs true)

def execRemoteWriteAck (l : Nat) (s : State) : Host.Outcome State Fault Refusal :=
  onWrite s l 0x21 (fun s _ _ bs => s.relAck l (bits (leNat (bs.take 64)) 159 128))

def execRemoteWriteRefusal (l : Nat) (s : State) : Host.Outcome State Fault Refusal :=
  onWrite s l 0x22 (fun s _ _ bs =>
    let id := bits (leNat (bs.take 64)) 159 128
    let s1 := s.lmlEvent l 0x800E id
    match s1.findWrite l id with
    | some (k, i, pos) => s1.relDrop k i pos 0x800E
    | none => s1)

end Sys2Proof.Machine
end

