-- ==== Sys2Proof/Machine/LinkTime.lean ====
section
/-!
DEFINITION. The exchange of time over a link and fabric messages (11_lumur_fabric.md, R274 to R281).
-/
namespace Sys2Proof.Machine

/-! Time (R274, R275). The layout of the messages on VC1 is the model's (log entry 30). -/

/-- The role of a link in the exchange of time. -/
def State.timeRole (s : State) (l : Nat) : Nat := s.fld (.lml l) Reg.LML_TIME_CTL 1 0

/-- The key of the period of a follower's requests. -/
def timeKey (l : Nat) : Nat := 0x8100 * 2 ^ 40 + l

def execTimeRequestTimer (l : Nat) (s : State) : Host.Outcome State Fault Refusal :=
  if ¬ l < 16 then .fault .noSuchUnit
  else if s.timeRole l ≠ 2 ∨ (s.link l).phase ≠ .up then notEnabled "the link is no follower"
  else if !s.rateOpen (timeKey l) (200 * 2 ^ s.fld (.lml l) Reg.LML_TIME_CTL 5 2) then notEnabled "the period has not passed"
  else
    let s1 := (s.rateNote (timeKey l)).queueMsg l 1 { bytes := timeRequest (s.link l).timeNum }
    .next (s1.setLink l { s1.link l with timeNum := (s.link l).timeNum + 1 })

/-- The answer of a responder: it carries t2, and takes t3 when it departs, 40 ns or more after t2. -/
def execTimeAnswer (l : Nat) (s : State) : Host.Outcome State Fault Refusal :=
  if ¬ l < 16 then .fault .noSuchUnit
  else match (s.link l).timeDue with
    | [] => notEnabled "no request waits for its answer"
    | (n, t2) :: rest =>
      if s.timeRole l ≠ 1 ∧ s.timeRole l ≠ 2 then notEnabled "the link answers no request"
      else if s.fineTime < t2 + 40 * 65536 then notEnabled "40 ns have not passed"
      else
        let s1 := s.queueMsg l 1 { bytes := timeAnswer n t2 0 }
        .next (s1.setLink l { s1.link l with timeDue := rest })

/-- A quotient whose rounding the spec does not state: either neighbour, by a free value (log entry 5). -/
def State.openRound (s : State) (num : Int) (den : Nat) : State × Int :=
  if num % (den : Int) = 0 then (s, num / (den : Int))
  else
    let r := s.drawWord
    (r.1, num / (den : Int) + (r.2 % 2 : Nat))

/-- θ and δ of an exchange in 2^−16 ns, with a in ps. -/
def State.exchange (s : State) (a : Int) (t1 t2 t3 t4 : Nat) : State × Int × Int :=
  let i (n : Nat) : Int := n
  let th := s.openRound (((i t2 - i t1) + (i t3 - i t4)) * 1000 - a * 65536) 2000
  let de := th.1.openRound ((i t4 - i t1) - (i t3 - i t2)) 2
  (de.1, th.2, de.2)

/-- The time within which an answer must arrive (R275), in 2^−16 ns. -/
def answerLimit : Nat := 100000 * 65536

/-- A request without an answer in time: θ is not updated. -/
def State.timeLost (s : State) (l n : Nat) : State :=
  let x := s.link l
  (s.setLink l { x with timeAsked := x.timeAsked.filter (fun a => a.1 != n) }).lmlEvent l 0x800B 0

/-- The registers of an exchange, saturated. On the link that the timebase follows, θ is a sample (R451). -/
def State.timeSet (s : State) (l n t1 t2 t3 t4 : Nat) : State :=
  let r := s.exchange (signed 32 (s.word (.lml l) Reg.LML_TIME_ASYM)) t1 t2 t3 t4
  let th := max (-(2 ^ 31 : Int)) (min r.2.1 (2 ^ 31 - 1))
  let s1 := r.1.setWord (.lml l) Reg.LML_TIME_OFS (ofSigned 32 th)
  let s2 := s1.setWord (.lml l) Reg.LML_TIME_DLY (min r.2.2.toNat 0xFFFFFFFF)
  let x := s2.link l
  let s3 := s2.setLink l { x with timeAsked := x.timeAsked.filter (fun a => a.1 != n) }
  if s.fld .mgt Reg.MGT_TIME_CTL 1 0 = 1 ∧ s.fld .mgt Reg.MGT_TIME_CTL 5 2 = l then
    { s3 with mgt := { s3.mgt with sample := some th } }
  else s3

/-- The answer that arrived at t4 with the times t2 and t3 is used: θ and δ go to the link's registers. One that came later
than 100 µs changes neither, and one whose request has timed out is dropped (R275). -/
def execTimeAnswerReceived (l t2 t3 t4 : Nat) (s : State) : Host.Outcome State Fault Refusal :=
  if ¬ l < 16 then .fault .noSuchUnit
  else match (s.link l).timeGot.find? (fun g => g.2 == (t2, t3, t4)) with
    | none => notEnabled "no such answer has arrived"
    | some (n, _) =>
      let s1 := s.setLink l { s.link l with timeGot := (s.link l).timeGot.erase (n, t2, t3, t4) }
      .next (match (s.link l).timeAsked.find? (fun a => a.1 == n) with
        | none => s1
        | some a => if t4 ≤ a.2 + answerLimit then s1.timeSet l n a.2 t2 t3 t4 else s1.timeLost l n)

/-- The oldest request whose answer has not arrived times out. -/
def execTimeAnswerTimeout (l : Nat) (s : State) : Host.Outcome State Fault Refusal :=
  if ¬ l < 16 then .fault .noSuchUnit
  else match (s.link l).timeAsked.find? (fun a => (s.link l).timeGot.all (fun g => g.1 != a.1)) with
    | none => notEnabled "no request is outstanding"
    | some a =>
      if s.fineTime ≤ a.2 + answerLimit then notEnabled "100 µs have not passed"
      else .next (s.timeLost l a.1)

/-! Fabric messages (R278). Their bodies are laid out as log entry 31 says. -/

/-- The bytes of the first message to Thallus that waits on VC2 of a link, and the state without it. -/
def State.takeMessage (s : State) (l : Nat) : Option (State × List Byte) :=
  match (s.link l).inbox.find? (fun m => m.1 == 2) with
  | none => none
  | some m => some (s.setLink l { s.link l with inbox := (s.link l).inbox.erase m }, m.2.2)

/-- An event of the fabric page. -/
def State.fabricEvent (s : State) (code a2 : Nat) : State := s.raise .fabric code 16 a2

/-- Type, node and body of a fabric message. -/
def fabType (m : List Byte) : Nat := leNat (slice m 0 4)
def fabNode (m : List Byte) : Nat := leNat (slice m 60 2)
def fabBody (m : List Byte) : List Byte := (m.drop 64).take (64 * leNat (slice m 62 2))

/-- The current fabric nonce. -/
def State.fabNonce (s : State) : Nat := s.words .fabric Reg.LML_FNONCE 2

/-- A new fabric nonce (R278). -/
def State.newFabNonce (s : State) : State :=
  let d := s.draw 8
  d.1.setWords .fabric Reg.LML_FNONCE 2 (leNat d.2)

/-- Whether a fabric message is accepted apart from its type: block, device and nonce. -/
def State.fabricGood (s : State) (m : List Byte) : Bool :=
  let signed := m.take (64 + 64 * leNat (slice m 62 2))
  s.authBlock 4 3 signed (m.drop signed.length) && slice m 4 48 == s.deviceDigest && leNat (slice m 52 8) == s.fabNonce
    && s.fabNonce != 0

/-- A refused fabric message; a block that fails is reported as well (R325). -/
def State.fabricReject (s : State) (m : List Byte) : State :=
  let signed := m.take (64 + 64 * leNat (slice m 62 2))
  let s1 := if s.authBlock 4 3 signed (m.drop signed.length) then s else s.sigRejected 3 4
  s1.fabricEvent 0x800D (fabType m)

/-- The role written, with its event. -/
def State.setRole (s : State) (node role : Nat) : State :=
  ((s.setFld .fabric Reg.LML_NODE 15 0 node).setFld .fabric Reg.LML_NODE 17 16 role).fabricEvent 0x800C role

/-- Word `i` of a body. -/
def bodyWord (b : List Byte) (i : Nat) : Nat := leNat (slice b (4 * i) 4)

/-- The route table of a body. -/
def State.setRoutes (s : State) (b : List Byte) : State :=
  (List.range 64).foldl (fun s i => s.setWord .fabric (Reg.LML_ROUTE + 4 * i) (bodyWord b i &&& 0x83FFFFFF)) s

/-- The flits that channel map entries hand out (R262). -/
def credSum (ws : List Nat) : Nat := (ws.map (fun w => if bit w 31 then bits w 26 20 + 1 else 0)).sum

/-- The flits of a link's receive buffer for VC4 to VC31 (R262). -/
def credLimit : Nat := 960

/-- The maps of a body keep within every link's receive buffer. -/
def mapsFit (b : List Byte) : Bool :=
  (List.range 16).all (fun l => decide (credSum ((List.range 28).map (fun v => bodyWord b (64 + 28 * l + v))) ≤ credLimit))

/-- The channel maps of a body: 28 words for each link. -/
def State.setMaps (s : State) (b : List Byte) : State :=
  (List.range 16).foldl (fun s l => (List.range 28).foldl (fun s v =>
    s.setWord (.lml l) (Reg.LML_VC + 16 + 4 * v) (bodyWord b (64 + 28 * l + v) &&& 0x87FFFFFF)) s) s

/-- The contexts that are not FREE. -/
def State.usedCtxs (s : State) : List Nat := (List.range 32).filter (fun c => (s.ctx c).state != .free)

/-- A capture record for every context (R457). -/
def State.capFabric (s : State) (kind : Nat) : State := s.usedCtxs.foldl (fun s c => s.capExternal c kind 16 0x800C) s

/-- STANDBY: a module that holds tenant state is not taken (log entry 31). -/
def State.fabStandby (s : State) : Option State :=
  if s.usedCtxs = [] then some (s.setRole 0xFFFF 1) else none

/-- ADOPT, from STANDBY only (R279). Maps that exceed a receive buffer are refused with it (R262; DEDUCED, log entry 115). -/
def State.fabAdopt (s : State) (m : List Byte) : Option State :=
  if s.role ≠ 1 ∨ !mapsFit (fabBody m) then none
  else some ((((s.setRoutes (fabBody m)).setMaps (fabBody m)).setRole (fabNode m) 2).capFabric 5)

/-- ACTIVATE, from ADOPT only. -/
def State.fabActivate (s : State) : Option State := if s.role ≠ 2 then none else some (s.setRole s.node 3)

/-- The link that a route word selects. -/
def routeLink (w : Nat) : Nat := if bit w 24 then bits w 23 20 else bits w 19 16

/-- A binding of slot `k` of link `l` asked of the peer, with its channel map entries (R265). -/
def State.askBind (s : State) (l k : Nat) (w : SlotWait) : State :=
  (s.setLink l { s.link l with waits := SMap.set none (s.link l).waits k (some w) }).tellSlot l 2 k w.fsid

/-- The channel map entries of bindings that wait on a link. -/
def Link.waitingMaps (x : Link) : List (Nat × Nat) := x.waits.flatMap (fun w => match w.2 with
  | some y => y.maps
  | none => [])

/-- The words of the channel map of a link with entries added to those that stand or wait, for VC4 to VC31. -/
def State.mapWith (s : State) (l : Nat) (ms : List (Nat × Nat)) : List Nat :=
  ((List.range 28).map (· + 4)).map (fun v => match (ms ++ (s.link l).waitingMaps).find? (fun m => m.1 == v) with
    | some m => m.2
    | none => s.vcMap l v)

/-- Whether the peer of a link may carry a context's groups: for a joint context, only a member of its policy (R265). -/
def State.peerServes (s : State) (l c : Nat) : Bool :=
  match (s.ctx c).policy with
  | some q => q.members.contains (s.link l).peerId
  | none => true

/-- Whether a binding can be asked for on a link: it stands, its peer may carry the context, and the receive buffer has
room (R262, R265). -/
def State.bindFits (s : State) (l c : Nat) (ms : List (Nat × Nat)) : Bool :=
  (s.link l).phase == .up && s.peerServes l c && decide (credSum (s.mapWith l ms) ≤ credLimit)

/-- Whether a slot of a link neither holds keys nor waits for them. -/
def Link.slotFree (x : Link) (k : Nat) : Bool := !(x.slot k).bound && (SMap.get none x.waits k).isNone

/-- The entries of a moved slot on another link: each channel keeps its number where that is free, or takes the first that
is (DESIGN CHOICE, log entry 115); none where the channels run out. -/
def State.moveMaps (s : State) (from_ dest k kk : Nat) : Option (List (Nat × Nat)) :=
  let free (got : List (Nat × Nat)) (v : Nat) : Bool :=
    !bit (s.vcMap dest v) 31 && (got ++ (s.link dest).waitingMaps).all (fun m => m.1 != v)
  (s.channelsOf from_ k).foldl (fun r v => r.bind (fun got =>
    ((v :: (List.range 28).map (· + 4)).find? (free got)).map (fun u =>
      got ++ [(u, setBits (s.vcMap from_ v) 19 16 kk)]))) (some [])

/-- A slot of a link retired, and a free slot of another asked for in its place where the binding fits there (R279). -/
def State.moveSlot (s : State) (from_ dest k : Nat) : State :=
  let y := (s.link from_).slot k
  let s1 := s.retireTell from_ k
  match ((List.range 8).map (· + 1)).find? (s.link dest).slotFree with
  | none => s1
  | some kk => match s.moveMaps from_ dest k kk with
    | none => s1
    | some ms =>
      if s.bindFits dest y.ctx ms then s1.askBind dest kk { page := none, ctx := y.ctx, fsid := y.fsid, maps := ms } else s1

/-- The slots of a link moved to another. -/
def State.moveSlots (s : State) (from_ dest : Nat) : State :=
  ((List.range 8).map (· + 1)).foldl (fun s k =>
    if ((s.link from_).slot k).bound then s.moveSlot from_ dest k else s) s

/-- ROUTE: the routes are written; where an entry's selected link changed, the slots of the old link move to the new
one. -/
def State.fabRoute (s : State) (m : List Byte) : Option State :=
  let b := fabBody m
  let moved := (List.range 64).filterMap (fun i =>
    let old := s.word .fabric (Reg.LML_ROUTE + 4 * i)
    let new := bodyWord b i
    if bit old 31 ∧ bit new 31 ∧ bits old 15 0 = bits new 15 0 ∧ routeLink old ≠ routeLink new then
      some (routeLink old, routeLink new) else none)
  let s1 := (s.setRoutes b).fabricEvent 0x800C s.role
  some ((moved.foldl (fun s x => s.moveSlots x.1 x.2) s1).capFabric 4)

/-- One range of a RESTORE: read by the stack's base die (class 4) and sent back at offset minus delta. -/
def State.restoreRange (s : State) (k c off n : Nat) (path : Nat × Nat × Nat) (delta : Nat) : State :=
  match s.readRun k off n 4 c with
  | (s1, none) => s1
  | (s1, some bs) =>
    let at_ := (off + stackBytes - delta % stackBytes) % stackBytes
    let first := min n (stackBytes - at_)
    let base := 2 ^ 43 + k * stackBytes
    let a := s1.sendWrites 0x23 path.2.2 path.1 path.2.1 (base + at_) 1 (bs.take first)
    (a.1.sendWrites 0x23 path.2.2 path.1 path.2.1 base 1 (bs.drop first)).1

/-- RESTORE (R281): the context is the one whose slot carries the fabric session identifier. -/
def State.fabRestore (s : State) (m : List Byte) : Option State :=
  let b := fabBody m
  let fsid := bodyWord b 0
  match s.routeOf (fabNode m) with
  | none => some s
  | some l =>
    match ((List.range 8).map (· + 1)).find? (fun k => ((s.link l).slot k).bound && ((s.link l).slot k).fsid == fsid) with
    | none => some s
    | some k => match (s.channelsOf l k).head? with
      | none => some s
      | some v =>
        let c := ((s.link l).slot k).ctx
        let delta := s.fld .fabric (Reg.LML_MIRROR + 16 * c) 100 64
        some ((List.range 12).foldl (fun s i =>
          let off := leNat (slice b (16 + 16 * i) 8)
          let n := leNat (slice b (24 + 16 * i) 8)
          if n = 0 then s else s.restoreRange i c off n (l, v, bits (s.vcMap l v) 15 0) delta) s)

/-- A fabric message judged and, where it is accepted, applied; a new nonce follows (R278). -/
def State.fabricApply (s : State) (m : List Byte) : State × Bool :=
  if !s.fabricGood m then (s.fabricReject m, false)
  else
    let r := match fabType m with
      | 1 => s.fabStandby
      | 2 => s.fabAdopt m
      | 3 => s.fabActivate
      | 4 => s.fabRoute m
      | 5 => s.fabRestore m
      | _ => none
    match r with
    | some s1 => (s1.newFabNonce, true)
    | none => (s.fabricEvent 0x800D (fabType m), false)

end Sys2Proof.Machine
end

