-- ==== Sys2Proof/Machine/Stop.lean ====
section
/-!
DEFINITION. What resets and teardowns stop: contexts, partitions, links and memory protection (R10 to R12, R87, R117,
R144, R167, R190, R223, R251, R282, R311, R361, R370, R457).
-/
namespace Sys2Proof.Machine

/-! Pinnae (R86, R87, R117). -/

/-- The vector instruction in the engine of a pinna interrupted (R117): which elements of its destination hold their new
value is free; its masks are cleared by the zeroing, and a scalar register it was to write keeps its value. -/
def State.interruptVec (s : State) (n : Nat) : State :=
  let p := s.pinna n
  match p.vecList, p.launch with
  | q :: _, some l =>
    let done := ((s.vecWrite n q l).1.pinna n).spad
    (s.setPinna n { p with spad := interrupted p.spad done (Config.wroteNew s.freeCtr) (vFields q.word.toNat) q }).tookFree 1
  | _, _ => s

/-- A pinna stopped without events: the steps of R86, and what is on its way to it in a tree. -/
def State.haltPinna (s0 : State) (n : Nat) : State :=
  let s := s0.interruptVec n
  let p := (s.pinna n).quit .idle
  let s1 := s.setPinna n { p with pc := 0, treePort := none, submitted := [], done := [], faultPc := 0,
                                  faultCode := 0 }
  { s1 with treeNet := s1.treeNet.filter (fun t => t.dst ≠ n ∧ t.src ≠ n) }

/-- The pinnae that run a LAUNCH of a context. -/
def State.pinnaeOf (s : State) (c : Nat) : List Nat :=
  (s.pinnae.filter (fun p => (p.2.launch.map (fun l => l.ctx)) == some c)).map Prod.fst

/-! Engines (R136, R144). -/

/-- Every engine of the module. -/
def allEngines : List EngineId :=
  ((List.range 32).flatMap (fun f => (List.range 4).map (fun k => EngineId.frond f k)))
    ++ ((List.range 2).flatMap (fun x => (List.range 4).map (fun k => EngineId.host x k)))

/-- Queued descriptors of a context discarded in every engine. -/
def State.discardQueued (s : State) (c : Nat) : State :=
  allEngines.foldl (fun s e =>
    let g := s.engine e
    if g.queue.any (fun q => q.ctx == c) then s.setEngine e { g with queue := g.queue.filter (fun q => q.ctx != c) } else s) s

/-- Whether an engine runs a descriptor of a context. -/
def State.engineBusy (s : State) (c : Nat) : Bool :=
  allEngines.any (fun e => ((s.engine e).running.map (fun q => q.ctx)) == some c)

/-- A running descriptor cut at the end of a cycle (R144): how many elements have been moved is a free value. Only the
bytes written remain; a sealed chunk leaves none. -/
def State.cutDesc (s : State) (e : EngineId) (q : QDesc) : State :=
  if q.sealArg.isSome ∨ !s.descReady e q then s
  else
    let d := s.drawWord
    let x := Desc.ofBytes q.bytes
    let t := (d.1.runPass e q x (some (d.2 % (x.count + 1))) none (d.1.convertCode e x)).s
    { d.1 with stackTab := t.stackTab, pinnae := t.pinnae, fronds := t.fronds, ports := t.ports }

/-- An engine stopped and emptied. -/
def State.stopEngine (s : State) (e : EngineId) : State :=
  let s1 := match (s.engine e).running with
    | some q => s.cutDesc e q
    | none => s
  s1.setEngine e {}

/-! Contexts (R361). -/

/-- Fields in `[lo, lo + n)` of a page return to their reset values. -/
def State.resetRange (s : State) (pg : Page) (lo n : Nat) : State :=
  s.resetFields (fun q off _ => q == pg && decide (lo ≤ off) && decide (off < lo + n))

/-- The estimator slots of a context (R190). -/
def State.estOf (s : State) (c : Nat) : List Nat :=
  ((List.range 63).map (· + 1)).filter (fun n => s.estFld (c / 8) n 0 0 == 1 && s.estFld (c / 8) n 62 58 == c)

/-- A context's slots of the estimator and of the fronds, and its ledger, return to their reset values (R144, R190). -/
def State.resetSlots (s : State) (c : Nat) : State :=
  let p := c / 8
  let s1 := (s.estOf c).foldl (fun s n =>
    let s1 := s.resetRange (.est p) (estOff n) 32
    { s1 with estHeld := SMap.set (none, none) s1.estHeld (64 * p + n) (none, none),
              estWait := SMap.set false s1.estWait (64 * p + n) false }) s
  let s2 := s1.resetRange (.ledger p) (Reg.PRT_LEDGER + 0x1A0 * (c % 8)) 0x1A0
  s2.resetFields (fun pg off _ => match pg with
    | .frd f =>
      let n := (off - Reg.FRD_STAT) / 32 + 1
      decide (Reg.FRD_STAT ≤ off) && s1.fld (.frd f) (statOff n) 165 165 == 1 && s1.fld (.frd f) (statOff n) 164 160 == c
    | _ => false)

/-- The fields that a Context reset reaches on the pages of the blocks the context uses: its own page, the pinnae it
runs on, and the fronds where it runs a LAUNCH or a descriptor (log entry 32). `own` says whether its own page is
among them. -/
def State.resetCtxPages (s : State) (c : Nat) (pinnae fronds : List Nat) (own : Bool) : State :=
  s.resetFields (fun pg off f => match pg with
    | .ctx d => own && d == c && f.resetBy.hit pg.kind .context
    | .pna n => pinnae.contains n && decide (0x40 ≤ off) && f.resetBy.hit pg.kind .context
    | .frd g => fronds.contains g && decide (0x40 ≤ off) && decide (off < Reg.FRD_STAT) && f.resetBy.hit pg.kind .context
    | _ => false)

/-- The fronds on which a context runs. -/
def State.frondsOf (s : State) (c : Nat) : List Nat :=
  (List.range 32).filter (fun f => (s.pinnaeOf c).any (fun n => frondOfPinna n == f)
    || (List.range 4).any (fun k => (((s.frond f).engine k).running.map (fun q => q.ctx)) == some c))

/-- A context's work in a stack removed (R167, R223, R251). -/
def Stack.dropCtx (x : Stack) (c : Nat) : Stack :=
  { x with lanes := x.lanes.filter (fun l => l.ctx ≠ c), entries := x.entries.filter (fun e => e.2.ctx ≠ c),
           unarmed := x.unarmed.filter (fun u => u.1 ≠ c), releases := x.releases.filter (fun r => r.ctx ≠ c),
           mirrors := x.mirrors.filter (fun m => m.2 ≠ c),
           progs := x.progs.filter (fun g => g.2.owner ≠ c) }

/-- The stop of a context's commands (step 1 of R361 and step 2 of R362). Descriptors that run end at their boundary by
their own command. -/
def State.stopCtx (s : State) (c : Nat) : State :=
  let s1 := s.discardQueued c
  let s2 := (s1.pinnaeOf c).foldl (fun s n => s.haltPinna n) s1
  let s2a := (List.range 12).foldl (fun s k =>
    let s1 := if (s.laneRuns k).any (fun l => l.ctx == c) then s.cutLane k else s
    s1.setStack k ((s1.stack k).dropCtx c)) s2
  let s3 := (List.range 32).foldl (fun s f =>
    s.setFrond f { s.frond f with cse := (s.frond f).cse.filter (fun r => r.ctx ≠ c) }) s2a
  let x := s3.ctx c
  (s3.setCtx c { x with jobs := [], waiting := [] }).resetSlots c

/-- A context's capture ends: the EXTERNAL record of the reset, then the TRAILER (R457). -/
def State.capEnd (s : State) (c kind what code : Nat) : State :=
  if s.capMode c ≠ 1 then s
  else ((s.capExternal c kind what code).capTrailer c).setFld (.ctx c) Reg.CTX_CAP_CTL 1 0 0

/-- The mirror entry of a context cleared (R282). -/
def State.clearMirror (s : State) (c : Nat) : State := s.resetRange .fabric (Reg.LML_MIRROR + 16 * c) 16

/-- The effects of a Context reset that need no waiting, without events. The VF's `FNC_VF.tdi` is among its fields (R399). -/
def State.ctxReset (s : State) (c kind what code : Nat) : State :=
  let pinnae := s.pinnaeOf c
  let fronds := s.frondsOf c
  let s1 := (s.capEnd c kind what code).stopCtx c
  let s2 := ((List.range 16).foldl (fun s l => s.dropWaits l (fun w => w.ctx == c)) (s1.retireCtx c)).clearMirror c
  let s3 := s2.resetCtxPages c pinnae fronds true
  let x := s3.ctx c
  let v := s3.portOfCtx c
  let s4 := s3.setPort v { s3.port v with tdis := SMap.set {} (s3.port v).tdis (c + 1) {} }
  ({ s4 with wlDone := s4.wlDone.filter (fun i => i ≠ (Page.ctx c).id) } : State).setCtx c { x with reason := 0, turn := 0, capture := {} }

/-! Partitions. -/

def State.stacksIn (s : State) (p : Nat) : List Nat := s.stacksOf p
def State.frondsIn (s : State) (p : Nat) : List Nat :=
  (List.range 32).filter (fun f => s.partOfQuarter (quarterOfFrond f) == p)
def State.linksIn (s : State) (p : Nat) : List Nat :=
  (List.range 16).filter (fun l => s.partOfQuarter (quarterOfLink l) == p)
def ctxsIn (p : Nat) : List Nat := (List.range 8).map (fun i => 8 * p + i)

/-- A stack emptied (R167, R223, R251); DRAM keeps its contents. -/
def Stack.resetWork (x : Stack) : Stack :=
  { x with lanes := [], entries := [], inbox := [], unarmed := [], progs := [], releases := [], mirrors := [],
           zeroing := true, acceptSeq := 0, checkKey := 0#256 }

/-- The engines of a partition: those of its fronds, and host engines that run or hold its contexts' descriptors. -/
def State.stopEngines (s : State) (p : Nat) : State :=
  let mine (q : QDesc) : Bool := q.ctx / 8 == p
  let s1 := (s.frondsIn p).foldl (fun s f => (List.range 4).foldl (fun s k => s.stopEngine (.frond f k)) s) s
  (List.range 2).foldl (fun s x => (List.range 4).foldl (fun s k =>
    let e := EngineId.host x k
    let s1 := match (s.engine e).running with
      | some q => if mine q then (let s2 := s.cutDesc e q
                                  s2.setEngine e { s2.engine e with running := none, lines := [] }) else s
      | none => s
    let g := s1.engine e
    s1.setEngine e { g with queue := g.queue.filter (fun q => !mine q) }) s) s1

/-- The effects of a Partition reset on every block that it reaches, without the check key (R320). Its only events are those
of its links, which begin a Link reset with every field back at its reset value (R282, R285). -/
def State.partReset (s : State) (p : Nat) : State :=
  let s1 := (ctxsIn p).foldl (fun s c => s.capEnd c 1 p 0) s
  let s2 := s1.stopEngines p
  let pinnae := (List.range 768).filter (fun n => s2.pinnaPart n == p && (s2.pinna n != {}))
  let s3 := pinnae.foldl (fun s n => s.haltPinna n) s2
  let s4 := (s3.stacksIn p).foldl (fun s k =>
    let s1 := s.cutLane k
    s1.setStack k (s1.stack k).resetWork) s3
  let s5 := (s4.frondsIn p).foldl (fun s f => s.setFrond f { s.frond f with cse := [] }) s4
  let s6 := (ctxsIn p).foldl (fun s c =>
    let s1 := s.ctxReset c 1 p 0
    s1.setCtx c { s1.ctx c with resetting := false }) s5
  let s7 := s6.resetFields (fun pg off f => match pg with
    | .fnc x => x == s6.portOfPart p && decide (0x100 ≤ off) && f.resetBy.hit pg.kind .partition
        && decide (8 * p ≤ (off - 0x120) / 32) && decide ((off - 0x120) / 32 < 8 * p + 8)
    | pg => pg.part s6 == some p && f.resetBy.hit pg.kind .partition)
  let s8 := (s7.linksIn p).foldl (fun s l => (s.linkClear l).lmlEvent l 0x8003 0) s7
  { s8.setPart p { s8.part p with turn := 0 } with
      haltPart := SMap.set false s8.haltPart p false,
      wlDone := s8.wlDone.filter (fun i => (pageOfId i).part s8 != some p),
      estHeld := s8.estHeld.filter (fun e => e.1 / 64 ≠ p), estWait := s8.estWait.filter (fun e => e.1 / 64 ≠ p) }

end Sys2Proof.Machine
end

