-- ==== Sys2Proof/Machine/PartReset.lean ====
section
/-!
DEFINITION. Partition and Context resets (00_scope.md, R10 to R12; 13_trust_keys_attestation.md, R320; 14_tenancy.md, R361,
R370; 16_clocks_resets_time.md, R414).
-/
namespace Sys2Proof.Machine

/-! The request block of a partition's page (R353). -/

def State.reqAddr (s : State) (p : Nat) : Nat := s.words (.prt p) Reg.PRT_REQ_ADDR_LO 2

/-- The request block of a page; one that cannot be read, or is not aligned to 64 B, counts as operation 0. -/
def State.reqBlock (s : State) (p : Nat) : List Byte :=
  if s.reqAddr p % 64 ≠ 0 then leBytes 64 0
  else (s.hostRead (s.portOfPart p) (s.reqAddr p) 64).getD (leBytes 64 0)

def byteAt (bs : List Byte) (i : Nat) : Nat := (bs.getD i 0#8).toNat

/-- A region request refused (R291). -/
def State.rgnRefuse (s : State) (p r reason : Nat) : State := (s.raise .rgn 0x700A (r % 64) reason).reqDone p 0x700A reason

/-- The refusal of a request that a Partition reset overtakes: of a region request with 0x700A, of any other with 0xA002,
reason 1 (R353, R370). -/
def State.refuseOvertaken (s : State) (p : Nat) (bs : List Byte) : State :=
  let op := byteAt bs 0
  if op = 4 ∨ op = 5 ∨ op = 6 then s.rgnRefuse p (byteAt bs 2) 1 else s.tenRefuse p op 1

/-- A Partition reset begins: its effects, and the refusal of the page's pending request (R370). It ends with the check
keys. A second one while it is in progress is absorbed (R12). -/
def State.partBegin (s : State) (p : Nat) : State :=
  if (s.part p).resetting then s
  else
    let pending := s.thl.queue.contains (.tenancy p) || (s.part p).reqBusy
    let bs := s.reqBlock p
    let s1 := ({ s with thl := { s.thl with queue := s.thl.queue.erase (.tenancy p) } } : State).partReset p
    let s2 := s1.setPart p { s1.part p with resetting := true, reqBusy := false, request := none }
    (if pending then s2.refuseOvertaken p bs else s2).resync

/-- A write of `PRT_RESET` (R371). -/
def State.partResetWrite (s : State) (p value : Nat) : State := if bit value 0 then s.partBegin p else s

def execPartitionReset (r : Requester) (p value : Nat) (s : State) : Host.Outcome State Fault Refusal :=
  if !bit value 0 then notEnabled "the write does not set go"
  else regWrite s r (.prt p) Reg.PRT_RESET false (fun s => s.partResetWrite p value)

/-- A fresh check key in every stack of a partition (R320). -/
def State.newCheckKeys (s : State) (p : Nat) : State :=
  let d := s.draw 32
  (d.1.stacksIn p).foldl (fun s k => s.setStack k { s.stack k with checkKey := BitVec.ofNat 256 (leNat d.2) }) d.1

/-- Thallus's part in the end of a Partition reset: the write of R320 completes it. While the DRBG serves nothing, the
request is refused, and the reset does not end (R317). -/
def State.partFinish (s : State) (p : Nat) : State :=
  if !(s.part p).resetting ∨ !s.thl.trngOk then s
  else
    let s1 := s.newCheckKeys p
    s1.setPart p { s1.part p with resetting := false }

/-- The end of a Partition reset: it asks Thallus for check keys (R316, R320). -/
def execPartitionResetDone (p : Nat) (s : State) : Host.Outcome State Fault Refusal :=
  if ¬ p < 4 then .fault .noSuchUnit
  else if !(s.part p).resetting then notEnabled "no Partition reset is in progress"
  else if s.thl.stage ≠ 1 then notEnabled "the runtime of Thallus is not ready"
  else thlRequest s (.checkKeys p) (fun s => s.partFinish p)

/-- A Context reset begins (R361). During a teardown, or while a wider reset is in progress, it is absorbed (R12, R361). -/
def State.ctxBegin (s : State) (c : Nat) : State :=
  let x := s.ctx c
  if x.state = .teardown ∨ x.resetting ∨ (s.part (c / 8)).resetting then s
  else
    let s1 := ((s.capEnd c 0 c 0xA00C).stopCtx c).resetCtxPages c (s.pinnaeOf c) (s.frondsOf c) false
    let s2 := (List.range 16).foldl (fun s l => s.dropWaits l (fun w => w.ctx == c)) (s1.retireCtx c)
    let s3 := s2.clearMirror c
    (s3.setCtx c { s3.ctx c with resetting := true }).resync

/-- A write of `CTX_RESET` (R372). -/
def State.ctxResetWrite (s : State) (c value : Nat) : State := if bit value 0 then s.ctxBegin c else s

/-- A function-level reset of the context's VF: its TDI unlocks, and the Context reset begins (R351, R383). -/
def State.vfReset (s : State) (c : Nat) : State :=
  let x := s.portOfCtx c
  let p := s.port x
  (s.setPort x { p with tdis := SMap.set {} p.tdis (c + 1) {}, fns := SMap.set {} p.fns (c + 1) {} }).ctxBegin c

/-- A Context reset by a write of `CTX_RESET.go`, or (without a requester) by a function-level reset of the VF. -/
def execContextReset (r : Option Requester) (c value : Nat) (s : State) : Host.Outcome State Fault Refusal :=
  match r with
  | none =>
    if ¬ c < 32 then .fault .noSuchUnit
    else if !((s.port (s.portOfCtx c)).linkUp && s.vfUp (s.portOfCtx c) (c + 1)) then notEnabled "the VF is not enabled"
    else .next (s.vfReset c)
  | some r =>
    if !bit value 0 then notEnabled "the write does not set go"
    else regWrite s r (.ctx c) Reg.CTX_RESET false (fun s => s.ctxResetWrite c value)

/-- The end of a Context reset: its engines have stopped; the fields return to their reset values; the context is ACTIVE
again, or in TEARDOWN where one began meanwhile. -/
def execContextResetDone (c : Nat) (s : State) : Host.Outcome State Fault Refusal :=
  if ¬ c < 32 then .fault .noSuchUnit
  else if !(s.ctx c).resetting then notEnabled "no Context reset is in progress"
  else if s.engineBusy c then notEnabled "an engine still runs a descriptor of the context"
  else
    let s1 := s.ctxReset c 0 c 0xA00C
    let x := s1.ctx c
    let s2 := s1.setCtx c { x with resetting := false, state := match x.state with
      | .faulted => .active
      | st => st }
    .next (if x.state = .teardown then s2 else s2.raise (.ctx c) 0xA00C c 0)

end Sys2Proof.Machine
end

