-- ==== Sys2Proof/Machine/Mailbox.lean ====
section
/-!
DEFINITION. The mailboxes of the host ports and Thallus's queue (13_trust_keys_attestation.md, R316, R322, R344, R347).
-/
namespace Sys2Proof.Machine

/-! The mailbox registers (R347). -/

def State.mbxAddr (s : State) (x : Nat) : Nat := s.words (.mbx x) Reg.THL_MBX_ADDR_LO 2
def State.mbxLen (s : State) (x : Nat) : Nat := s.fld (.mbx x) Reg.THL_MBX_LEN 23 0

/-- Whether a mailbox's request waits or is being signed. -/
def State.mbxBusy (s : State) (x : Nat) : Bool :=
  s.thl.queue.contains (.mailbox x) || (s.thl.signing.map (fun g => g.src)) == some (.mailbox x)

/-- A response: written into the request's buffer where it fits, with its length, result and done notice (R344, R395).
`op` is the operation that 0x9010 reports for a response that does not fit. -/
def State.mbxAnswer (s : State) (x op code retry : Nat) (resp : List Byte) : State :=
  let long := decide (s.mbxLen x < resp.length)
  let s1 := if long then s.thlEvent 0x9010 op 6 else if resp = [] then s else (s.hostWrite x (s.mbxAddr x) resp).1
  let s2 := s1.setFld (.mbx x) Reg.THL_MBX_RLEN 23 0 resp.length
  let s3 := (s2.setFld (.mbx x) Reg.THL_MBX_RES 15 0 (if long then 0x9010 else code)).setFld (.mbx x) Reg.THL_MBX_RES 27 16 retry
  ((s3.setFld (.mbx x) Reg.THL_MBX_CTL 2 2 1).noteSet (.mbx x) 0 Reg.THL_MBX_CTL 4).pageMessage (.mbx x) 0 x 0

/-- `THL_MBX_CTL.go`: the request joins Thallus's queue, unless the page has one outstanding or the queue is full (R316). -/
def State.mbxGo (s : State) (x : Nat) : State :=
  if s.mbxBusy x then s.thlBusy (.mailbox x)
  else if 64 ≤ s.thl.queue.length then (s.thlBusy (.mailbox x)).mbxAnswer x 0 0x9011 0 []
  else (s.thlArrive (.mailbox x)).setFld (.mbx x) Reg.THL_MBX_CTL 0 0 1

/-- The request of a mailbox, if it can be read and its length is legal. -/
def State.mbxRequest (s : State) (x : Nat) : Option (List Byte) :=
  if s.mbxLen x < 16 ∨ 8388608 < s.mbxLen x then none else s.hostRead x (s.mbxAddr x) (s.mbxLen x)

/-- The operation of a mailbox's request; 0 where there is none. -/
def State.mbxOp (s : State) (x : Nat) : Nat :=
  match s.mbxRequest x with
  | some bs => leNat (slice bs 0 2)
  | none => 0

/-- Thallus takes a mailbox's request. -/
def State.mbxTake (s : State) (x : Nat) : State := (s.thlTake (.mailbox x)).setFld (.mbx x) Reg.THL_MBX_CTL 0 0 0

/-- The meaning of a mailbox operation: its request must stand at the head of Thallus's queue. `eff` gets the request. -/
def mailboxOp (s : State) (x op : Nat) (eff : State → List Byte → State) : Host.Outcome State Fault Refusal :=
  if ¬ x < 2 then .fault .noSuchUnit
  else if !s.thlServes then notEnabled "Thallus serves no request now"
  else if s.thl.queue.head? ≠ some (.mailbox x) then notEnabled "the mailbox's request is not at the head of the queue"
  else match s.mbxRequest x with
    | none => notEnabled "the request cannot be read"
    | some bs =>
      if leNat (slice bs 0 2) ≠ op then notEnabled "the request is another operation" else .next (eff (s.mbxTake x) bs)

/-- The meaning of a signed message, from a mailbox (operation `op`, behind 16 bytes of arguments), the management
controller or a link. `eff` answers the result code. While the DRBG serves nothing, no new nonce can be drawn, and the
message is refused with 0x900C (R317). -/
def signedMessage (s : State) (src : MsgSource) (op : Nat) (q : List Byte → Bool) (act : State → List Byte → State × Nat) :
    Host.Outcome State Fault Refusal :=
  let eff (s : State) (m : List Byte) : State × Nat := if s.thl.trngOk then act s m else (s, 0x900C)
  match src with
  | .mailbox x =>
    if !q ((s.mbxRequest x).getD [] |>.drop 16) then notEnabled "the message is of another type"
    else mailboxOp s x op (fun s bs =>
      let r := eff s (bs.drop 16)
      r.1.mbxAnswer x op r.2 0 [])
  | .mc m =>
    if s.thl.stage ≠ 1 then notEnabled "the runtime of Thallus is not ready"
    else if !q m then notEnabled "the message is of another type" else thlRequest s (.mc m) (fun s => (eff s m).1)
  | .link l =>
    if !s.thlServes then notEnabled "Thallus serves no request now"
    else if s.thl.queue.head? ≠ some (.fabric l) then notEnabled "the link's message is not at the head of the queue"
    else match (s.thlTake (.fabric l)).takeMessage l with
      | none => notEnabled "no message waits"
      | some (s1, m) => if !q m then notEnabled "the message is of another type" else .next (eff s1 m).1

/-! Identity (R322, R323). -/

/-- Both certificates, or both public keys where there are none. -/
def State.identityBytes (s : State) : List Byte :=
  if s.thl.dir.certs = [] then s.rsaKey ++ leBytes 4 rsaE ++ s.slhKey else s.thl.dir.certs.flatten

def execIdentity (port : Nat) (s : State) : Host.Outcome State Fault Refusal :=
  mailboxOp s port 2 (fun s _ => s.mbxAnswer port 2 0 0 s.identityBytes)

/-! Fabric messages (R278). -/

/-- A fabric message carried out: 0, or 0x800D. -/
def State.fabricServe (s : State) (m : List Byte) : State × Nat :=
  let r := s.fabricApply m
  (r.1, if r.2 then 0 else 0x800D)

/-- STANDBY; a message whose type no other command names is refused here. -/
def execFabricStandby (src : MsgSource) (s : State) : Host.Outcome State Fault Refusal :=
  signedMessage s src 9 (fun m => !(decide (2 ≤ fabType m) && decide (fabType m ≤ 5))) (fun s m => s.fabricServe m)

def execFabricAdopt (src : MsgSource) (s : State) : Host.Outcome State Fault Refusal :=
  signedMessage s src 9 (fun m => fabType m == 2) (fun s m => s.fabricServe m)

def execFabricActivate (src : MsgSource) (s : State) : Host.Outcome State Fault Refusal :=
  signedMessage s src 9 (fun m => fabType m == 3) (fun s m => s.fabricServe m)

def execFabricRoute (src : MsgSource) (s : State) : Host.Outcome State Fault Refusal :=
  signedMessage s src 9 (fun m => fabType m == 4) (fun s m => s.fabricServe m)

def execFabricRestore (src : MsgSource) (s : State) : Host.Outcome State Fault Refusal :=
  signedMessage s src 9 (fun m => fabType m == 5) (fun s m => s.fabricServe m)

/-! Key updates (R327 to R329). -/

/-- A record written to its copy: of slot 3 in the meter's partition, of another slot in the directory (R327). -/
def State.storeRecord (s : State) (slot copy : Nat) (rec_ : List Byte) : State :=
  if slot = 3 then { s with met := { s.met with records := SMap.set [] s.met.records copy rec_ } }
  else s.setDir (fun d => { d with records := SMap.set [] d.records (2 * slot + copy) rec_ })

/-- The steps of a key update: the record written with its MAC and read back, then the fused counter raised by one. Where
the fuse reads back wrong, the update ends there with 0x900F (R318, R329); its end otherwise is `done`. -/
def State.slotUpdate (s : State) (slot counter : Nat) (body : List Byte) (done : State → State × Nat) : State × Nat :=
  let s1 := s.storeRecord slot (counter % 2) (recordOf (s.recordKey slot) body)
  let r := s1.fuse (slotFuses slot) (counter - 1) 1
  if r.2 then done r.1 else (r.1, 0x900F)

/-- The first failing row of R329 for a message, with the block that fails it, if one does. -/
def State.keyUpdateBad (s : State) (m : List Byte) : Option (Nat × Option Nat) :=
  let b := m.take 512
  let blocks := m.drop 512
  let slot := leNat (slice b 0 1)
  let counter := leNat (slice b 4 4)
  let fused := s.slotCounter slot
  let n := if counter = 1 then 1 else 2
  let new := blocks.drop (blockLen * (n - 1))
  if slot < 1 ∨ 5 < slot then some (1, none)
  else if fused = 64 then some (2, none)
  else if counter ≠ fused + 1 then some (3, none)
  else if slice b 8 48 ≠ s.deviceDigest then some (4, none)
  else if slice b 1 1 ≠ [1#8] ∨ leNat (slice b 440 4) ≠ 65537 ∨ leNat (slice b 2 2) ≠ 0 ∨ leNat (slice b 492 20) ≠ 0
      ∨ blocks.length ≠ n * blockLen then some (5, none)
  else if 2 ≤ counter ∧ !s.authBlock slot 2 b (blocks.take blockLen) then some (6, some slot)
  else if !blockOk (bodyKey b) (slot + 0x80) 2 b new then some (7, some (slot + 0x80))
  else none

/-- A key update judged and applied: the result code. None is, once a fuse of the slot's counter has read back wrong (R318). The record of slot 3 is the Lichenometer's, which logs it first
(R329, R438, R442). -/
def State.keyUpdate (s : State) (m : List Byte) : State × Nat :=
  let slot := leNat (slice m 0 1)
  let counter := leNat (slice m 4 4)
  if m.length < 512 then (s.thlEvent 0x9010 3 6, 0x9010)
  else if s.thl.fuseBad.contains (slotFuses slot) then (s, 0x900F)
  else match s.keyUpdateBad m with
    | some (reason, block) =>
      let s1 := match block with
        | some signer => s.sigRejected 2 signer
        | none => s
      (s1.thlEvent 0x9007 slot reason, 0x9007)
    | none =>
      if slot ≠ 3 then s.slotUpdate slot counter (m.take 512) (fun s => (s.thlEvent 0x9006 slot counter, 0))
      else match s.meterEntry 6 0 (leBytes 8 counter ++ (bodyKey (m.take 512)).digest) with
        | (s1, false) => (s1.meterEvent 0xC008 0 4, 0xC008)
        | (s1, true) => s1.slotUpdate slot counter (m.take 512) (fun s => (s.meterCount.thlEvent 0x9006 slot counter, 0))

def execKeyUpdate (port : Nat) (s : State) : Host.Outcome State Fault Refusal :=
  mailboxOp s port 3 (fun s bs =>
    let r := s.keyUpdate (bs.drop 16)
    r.1.mbxAnswer port 3 r.2 0 [])

end Sys2Proof.Machine
end

