-- ==== Sys2Proof/Machine/Calyptra.lean ====
section
/-!
DEFINITION. The Calyptra: its snapshot, its signing, and answers while the device changes (13_trust_keys_attestation.md,
R317, R332 to R337).
-/
namespace Sys2Proof.Machine

/-! Images (R339, R340). -/

/-- Copy `c` (0 A, 1 B) of image `i`. -/
def State.img (s : State) (i c : Nat) : Img :=
  { state := SMap.get 0 s.thl.dir.states (2 * (i - 1) + c), bytes := SMap.get [] s.thl.flash (imageBase i c) }

/-- The state of a copy written in the directory. -/
def State.setImgState (s : State) (i c st : Nat) : State :=
  s.setDir (fun d => { d with states := SMap.set 0 d.states (2 * (i - 1) + c) st })

/-- A copy written: its state in the directory, its bytes in the flash. -/
def State.setImg (s : State) (i c : Nat) (x : Img) : State :=
  let s1 := s.setImgState i c x.state
  { s1 with thl := { s1.thl with flash := SMap.set [] s1.thl.flash (imageBase i c) x.bytes } }

def Img.version (x : Img) : Nat := leNat (slice x.bytes 8 4)
def Img.svn (x : Img) : Nat := leNat (slice x.bytes 12 4)
def Img.bodyLen (x : Img) : Nat := leNat (slice x.bytes 16 4)
def Img.body (x : Img) : List Byte := (x.bytes.drop 0x10000).take x.bodyLen

def State.svn (s : State) (i : Nat) : Nat := s.fuseCount (svnFuses i)

/-- The running copy of an image. -/
def State.runningCopy (s : State) (i : Nat) : Nat := if (s.img i 1).state = 1 then 1 else 0

/-! State flags and sections (R334, R335). -/

/-- The numbers of the images. -/
def imageNos : List Nat := [1, 2, 3, 4]

/-- Whether an image has a staged copy. -/
def State.stagedCopy (s : State) (i : Nat) : Option Nat :=
  if (s.img i 0).state = 2 then some 0 else if (s.img i 1).state = 2 then some 1 else none

/-- The state flags. -/
def State.flags (s : State) : Nat :=
  let b (c : Bool) (k : Nat) : Nat := if c then 2 ^ k else 0
  b (imageNos.any (fun i => (s.stagedCopy i).isSome)) 0
    + ((List.range 4).map (fun p => b (s.part p).resetting (1 + p))).sum
    + b (s.haltDev || !s.haltPart.isEmpty) 5 + b (s.thl.fallback != 0) 6 + b s.thl.liveDone 7

/-- A section with its heading; its length counts the heading (DEDUCED, log entry 33). -/
def calSection (type : Nat) (body : List Byte) : List Byte :=
  leBytes 2 type ++ leBytes 2 0 ++ leBytes 4 (8 + body.length) ++ body

/-- The entry of a copy; the fields of a copy that is empty, or is being written, are zero. -/
def State.calImage (s : State) (i c : Nat) : List Byte :=
  let x := s.img i c
  leBytes 1 i ++ leBytes 1 c ++ leBytes 1 x.state
    ++ (if x.state = 0 then leBytes 61 0
        else leBytes 1 x.svn ++ leBytes 4 x.version ++ leBytes 8 0 ++ sha384 x.body)

def State.calImages (s : State) : List Byte := imageNos.flatMap (fun i => s.calImage i 0 ++ s.calImage i 1)
def State.calSvns (s : State) : List Byte := imageNos.flatMap (fun i => leBytes 8 (s.svn i))

/-- The entry of an authority slot. -/
def State.calSlot (s : State) (k : Nat) : List Byte :=
  leBytes 1 k ++ leBytes 1 (s.slotCounter k) ++ leBytes 14 0
    ++ (match s.slotKey k with
        | some key => key.digest
        | none => leBytes 48 0)
def State.calSlots (s : State) : List Byte := [1, 2, 3, 4, 5, 6, 7, 8].flatMap s.calSlot

/-- Whether `MPE_ESC` is locked (R313). -/
def escLock : Nat := 4096 + 49
def State.escLocked (s : State) : Bool := s.wlDone.contains escLock

/-- The entries of a partition and its contexts. -/
def State.calCtx (s : State) (c : Nat) : List Byte :=
  let x := s.ctx c
  let st := if x.state = .free then 0 else if x.joint then 2 else 1
  leBytes 1 st ++ leBytes 1 (if x.proth then 1 else 0)
    ++ (match x.policy with
        | some p => leBytes 1 p.rule ++ leBytes 13 0 ++ slice p.digest 0 48
        | none => leBytes 62 0)
def State.calPart (s : State) (p : Nat) : List Byte :=
  leBytes 1 (s.portOfPart p) ++ leBytes 1 (if (s.part p).resetting then 1 else 0) ++ leBytes 62 0
    ++ (ctxsIn p).flatMap s.calCtx
def State.calParts (s : State) : List Byte :=
  leBytes 1 s.layout ++ leBytes 1 s.escPolicy ++ leBytes 1 (if s.escLocked then 1 else 0) ++ leBytes 61 0
    ++ (List.range 4).flatMap s.calPart

/-- The code of a region's state (R313). -/
def RegionState.code : RegionState → Nat
  | .free => 0 | .init => 1 | .active => 2 | .rekey => 3 | .fenced => 4 | .zeroing => 5

/-- Word `i` of `MPE_RGN_r`. -/
def Region.word (g : Region) (i : Nat) : Nat :=
  match i with
  | 0 => g.state.code + (if g.tree then 8 else 0) + (if g.sealedBit then 16 else 0) + g.owner % 32 * 2 ^ 5
      + g.inStacks % 4096 * 2 ^ 10 + g.prog % 1024 * 2 ^ 22
  | 1 => g.base % 65536 + g.limit % 65536 * 65536
  | 2 => g.mbase % 65536 + g.mlimit % 65536 * 65536
  | _ => g.epoch % 2 ^ 32

def Region.calEntry (g : Region) : List Byte :=
  leBytes 4 (({ g with prog := 0 } : Region).word 0) ++ leBytes 4 (g.word 1) ++ leBytes 4 (g.word 2) ++ leBytes 4 (g.word 3)
def State.calRegions (s : State) : List Byte := (List.range 64).flatMap (fun r => (s.region r).calEntry)

def ProgSlot.calEntry (g : ProgSlot) : List Byte :=
  leBytes 1 (if g.valid then 1 else 0) ++ leBytes 1 g.owner ++ leBytes 1 g.ni ++ leBytes 13 0
    ++ (if g.valid then sha384 (slice g.image 0 320) else leBytes 48 0)
def State.calProgs (s : State) : List Byte :=
  (List.range 12).flatMap (fun k => (List.range 8).flatMap (fun i => (SMap.get {} (s.stack k).progs i).calEntry))

def State.calMeter (s : State) : List Byte := s.met.sealDigest ++ leBytes 8 s.met.evcnt ++ leBytes 8 0
def State.calBoot (s : State) : List Byte := leBytes 1 s.thl.bootB ++ leBytes 1 s.thl.fallback ++ leBytes 14 0

/-- The body of a section. -/
def State.calBody (s : State) : Nat → List Byte
  | 1 => s.calImages
  | 2 => s.calSvns
  | 3 => s.calSlots
  | 4 => s.calParts
  | 5 => s.calRegions
  | 6 => s.calProgs
  | 7 => s.calMeter
  | _ => s.calBoot

def State.calSections (s : State) : List Byte :=
  [1, 2, 3, 4, 5, 6, 7, 8].flatMap (fun t => calSection t (s.calBody t))

/-- The header and sections of a Calyptra as the device stands (R332, R333). -/
def State.calyptra (s : State) (requester : Nat) (nonce : List Byte) : List Byte :=
  let secs := s.calSections
  ascii "CALYPTRA" ++ leBytes 2 1 ++ leBytes 2 requester ++ leBytes 4 (128 + secs.length) ++ slice nonce 0 32
    ++ leBytes 8 s.tmb.ns ++ leBytes 2 (s.tmb.frac / 2 ^ 24) ++ leBytes 6 0 ++ s.deviceDigest ++ leBytes 4 s.flags
    ++ leBytes 12 0 ++ secs

/-! Refusals and unavailability (R317, R322, R337). -/

/-- The retry time of R337 in ms. -/
def State.retryMs (s : State) : Nat := max 1 (2000 - (s.ticks - s.clk.resetAt) / msTicks)

/-- `PROG` of a page: value, unit and busy (R389). -/
def State.setProg (s : State) (pg : Page) (value unit : Nat) (busy : Bool) : State :=
  s.setFld pg 0x020 31 0 (value % 2 ^ 28 + unit * 2 ^ 28 + if busy then 2 ^ 31 else 0)

/-- The snapshot is taken and the signing begins. -/
def State.startSigning (s : State) (src : MsgSource) (requester : Nat) (nonce : List Byte) : State :=
  { s with thl := { s.thl with signing := some { src := src, doc := s.calyptra requester nonce, start := s.ticks } } }

/-- A mailbox request that no other operation's command serves: CALYPTRA itself, or a malformed request. -/
def State.mbxCalyptra (s : State) (x : Nat) : State :=
  let s1 := s.mbxTake x
  match s.mbxRequest x with
  | none => (s1.thlEvent 0x9010 0 6).mbxAnswer x 0 0x9010 0 []
  | some bs =>
    let op := leNat (slice bs 0 2)
    if op ≠ 1 then (s1.thlEvent 0x9010 op 4).mbxAnswer x op 0x9010 0 []
    else match s.signRefusal with
      | some code => s1.mbxAnswer x 1 code 0 []
      | none => s1.startSigning (.mailbox x) (mbxRequester x) (slice bs 16 32)

/-- A Calyptra request. During the ROM stage the host interface answers it (R337). -/
def execCalyptra (src : MsgSource) (s : State) : Host.Outcome State Fault Refusal :=
  match src with
  | .link _ => notEnabled "no Calyptra is requested over a link"
  | .mc m =>
    if s.clk.inReset then notEnabled "a Module reset is in force"
    else if s.thl.stage ≠ 1 then .next (s.thlEvent 0x9012 0xFFFD s.retryMs)
    else thlRequest s (.mc m) (fun s => match s.signRefusal with
      | some _ => s
      | none => s.startSigning (.mc m) 0xFFFD m)
  | .mailbox x =>
    if ¬ x < 2 then .fault .noSuchUnit
    else if s.clk.inReset then notEnabled "a Module reset is in force"
    else if s.thl.stage ≠ 1 then
      (if s.thl.queue.contains (.mailbox x) ∧ s.mbxOp x = 1 then
        .next (((s.mbxTake x).thlEvent 0x9012 (mbxRequester x) s.retryMs).mbxAnswer x 1 0x9012 s.retryMs [])
      else notEnabled "the mailbox requests no Calyptra")
    else if !s.thlServes ∨ s.thl.queue.head? ≠ some (.mailbox x) then
      notEnabled "the mailbox's request is not at the head of the queue"
    else if decide (2 ≤ s.mbxOp x) && decide (s.mbxOp x ≤ 9) then notEnabled "the request is another operation"
    else .next (s.mbxCalyptra x)

/-- The Calyptra is signed: RSA-3072 and SLH-DSA, after their self-check (R317, R332). -/
def execCalyptraSigned (failures : Nat) (s : State) : Host.Outcome State Fault Refusal :=
  match s.thl.signing with
  | none => notEnabled "no Calyptra is being signed"
  | some g =>
    let s2 := ({ s with thl := { s.thl with signing := none } } : State).selfCheck 6 failures
    if 2 ≤ failures then
      .next (match g.src with
        | .mailbox x => s2.mbxAnswer x 1 0x9004 0 []
        | _ => s2)
    else
      let b := s2.ownBlock 6 g.doc
      let doc := g.doc ++ b.2
      let s3 := b.1.bump .thl 0x054 2
      .next (match g.src with
        | .mailbox x => s3.mbxAnswer x 1 0 0 doc
        | _ => s3.emit (.mctp doc))

end Sys2Proof.Machine
end

