-- ==== Sys2Proof/Machine/Firmware.lean ====
section
/-!
DEFINITION. Images: verification, transfers, staging and activation (13_trust_keys_attestation.md, R339, R340, R342 to
R344).
-/
namespace Sys2Proof.Machine

/-- The largest size of an image (R339). -/
def imageSize : Nat → Nat
  | 1 => 2 * 2 ^ 20
  | 2 => 4 * 2 ^ 20
  | 3 => 2 * 2 ^ 20
  | 4 => 2 ^ 20
  | _ => 0

/-- The first condition of R340 that the bytes of an image fail, from 1; 0 where the copy verifies. Nothing is taken to meet
the last one once a fuse of the image's counter has read back wrong (R318; log entry 105). -/
def State.imageBad (s : State) (i : Nat) (bs : List Byte) : Nat :=
  let x : Img := { bytes := bs }
  let h := slice bs 0 128
  let legal := h.take 4 == ascii "KFIM" && leNat (slice h 4 1) == i && leNat (slice h 5 1) == 1 && leNat (slice h 6 2) == 0
    && decide (x.svn ≤ 64) && leNat (slice h 68 60) == 0
  if !legal then 1
  else if imageSize i < 0x10000 + x.bodyLen ∨ bs.length < 0x10000 + x.bodyLen then 2
  else if slice h 20 48 ≠ sha384 x.body then 3
  else if !s.authBlock 1 1 h (slice bs 128 blockLen) then 4
  else if x.svn < s.svn i ∨ s.thl.fuseBad.contains (svnFuses i) then 5
  else 0

/-- A copy that fails R340: state 4, the event, and where its block failed that event too (R325). -/
def State.rejectCopy (s : State) (i c bad : Nat) : State :=
  let s1 := s.setImg i c { s.img i c with state := 4 }
  let s2 := if bad = 4 then s1.sigRejected 1 1 else s1
  s2.thlEvent 0x9001 (i + c * 256) bad

/-! Transfers (R343). -/

/-- The copy that a transfer of an image writes. -/
def State.idleCopy (s : State) (i : Nat) : Nat := 1 - s.runningCopy i

/-- Begin: the reason of the refusal, or the transfer. -/
def State.fwBegin (s : State) (i len : Nat) (path : Option Nat) : State × Nat :=
  let bad := if s.thl.xfer.isSome then 1 else if i < 1 ∨ 4 < i then 2 else if imageSize i < len then 3 else 0
  if bad ≠ 0 then (s.thlEvent 0x9009 i bad, 0x9009)
  else
    let s1 := s.setImg i (s.idleCopy i) {}
    let s2 : State := { s1 with thl := { s1.thl with xfer := some { image := i, path := path, len := len } } }
    ((s2.setProg .thl 0 2 true).setWord .thl 0x024 (ceilDiv len 4096), 0)

/-- Data at an offset. -/
def State.fwData (s : State) (path : Option Nat) (off : Nat) (bs : List Byte) : State × Nat :=
  match s.thl.xfer with
  | none => (s.thlEvent 0x9009 0 4, 0x9009)
  | some x =>
    if x.path ≠ path then (s.thlEvent 0x9009 x.image 1, 0x9009)
    else if off ≠ x.got.length ∨ x.len < off + bs.length then (s.thlEvent 0x9009 x.image 4, 0x9009)
    else
      let got := x.got ++ bs
      (({ s with thl := { s.thl with xfer := some { x with got := got } } } : State).setProg .thl (got.length / 4096) 2 true, 0)

/-- A transfer ends or is abandoned. -/
def State.endXfer (s : State) : State := ({ s with thl := { s.thl with xfer := none } } : State).setProg .thl 0 0 false

/-- End: the copy is verified and staged, in place of any other staged copy of the image. -/
def State.fwEnd (s : State) (path : Option Nat) : State × Nat :=
  match s.thl.xfer with
  | none => (s.thlEvent 0x9009 0 5, 0x9009)
  | some x =>
    if x.path ≠ path then (s.thlEvent 0x9009 x.image 1, 0x9009)
    else
      let i := x.image
      let c := s.idleCopy i
      let s1 := (s.setImg i c { state := 0, bytes := x.got }).endXfer
      let bad := if x.got.length < x.len then 2 else s1.imageBad i x.got
      if bad ≠ 0 then ((s1.rejectCopy i c bad).thlEvent 0x9009 i 5, 0x9009)
      else ((s1.setImg i c { state := 2, bytes := x.got }).thlEvent 0x9008 i (s1.img i c).version, 0)

/-- A transfer abandoned: its copy stays in state 0. -/
def State.fwCancel (s : State) (path : Option Nat) : State :=
  match s.thl.xfer with
  | some x => if x.path = path then s.endXfer else s
  | none => s

/-! Activation (R342, R343). -/

/-- Whether a locked or running TDI of a port forbids a live activation (R383). -/
def State.noFwUpdate (s : State) : Bool :=
  s.ports.any (fun p => p.2.tdis.any (fun t => t.2.noFwUpdate && (match t.2.state with
    | .locked | .run => true
    | _ => false)))

/-- An activation request: a staged image 2 starts its live activation; the other images wait for the next Module
reset. -/
def State.activate (s : State) (i : Nat) (live : Bool) : State × Nat :=
  if i < 1 ∨ 4 < i then (s.thlEvent 0x9009 i 2, 0x9009)
  else if i ≠ 2 ∨ !live then (s, 0)
  else if s.noFwUpdate then (s.thlEvent 0x9009 2 1, 0x9009)
  else if (s.stagedCopy 2).isNone then (s.thlEvent 0x9009 2 2, 0x9009)
  else
    let awaiting := 2 :: s.thl.awaiting.filter (· ≠ 2)
    let since := SMap.set 0 s.thl.startedAt 2 s.ticks
    let s1 : State := { s with thl := { s.thl with live := true, awaiting := awaiting, startedAt := since },
                               mgt := { s.mgt with restarting := true } }
    (s1.setFld .mgt Reg.MGT_STS 0 0 0, 0)

/-- The security version of a copy committed (R342). -/
def State.commitSvn (s : State) (i c : Nat) : State :=
  let v := (s.img i c).svn
  if s.svn i < v ∧ !s.thl.fuseBad.contains (svnFuses i) then
    let r := s.fuse (svnFuses i) (s.svn i) (v - s.svn i)
    if r.2 then r.1.thlEvent 0x900B i v else r.1
  else s

/-- A new copy that reports ready: it runs, and the other copy is inactive, unless it is empty. -/
def State.copyReady (s : State) (i c : Nat) : State :=
  let o := s.img i (1 - c)
  let s1 := s.setImg i c { s.img i c with state := 1 }
  let s2 := s1.setImg i (1 - c) { o with state := if o.state = 0 then 0 else 3 }
  s2.commitSvn i c

/-- Image 2 runs in the management controller: its status and event (R462, R464). -/
def State.mcStarted (s : State) (c : Nat) : State :=
  ({ s.setFld .mgt Reg.MGT_STS 0 0 1 with mgt := { s.mgt with restarting := false } }).raise .mgt 0xE003 (s.img 2 c).version 0

/-- Image 3 runs in the link controllers: every link that is not held trains (R282), and every port whose PERST# is high
(R480). -/
def State.linksStarted (s : State) : State :=
  let s1 := (List.range 16).foldl (fun s l =>
    let hold := s.fld (.lml l) Reg.LML_LINK_CTL 1 1 == 1
    if (s.link l).phase = .down ∧ !hold then s.setLink l { s.link l with phase := .training } else s) s
  (List.range 2).foldl (fun s x =>
    if (s.port x).perst ∨ (s.port x).linkUp then s else s.setPort x { s.port x with training := true }) s1

/-- Whether image 3 runs. -/
def State.image3Runs (s : State) : Bool := s.thl.stage == 1 && !s.thl.awaiting.contains 3

/-- What follows once an image runs in its destination. -/
def State.destStarted (s : State) (i c : Nat) : State :=
  if i = 2 then s.mcStarted c else if i = 3 then s.linksStarted else s

/-- A destination reports that its new copy is ready. -/
def execImageDestReady (image : Nat) (s : State) : Host.Outcome State Fault Refusal :=
  if ¬ (2 ≤ image ∧ image ≤ 4) then .fault .noSuchUnit
  else if s.clk.inReset ∨ !s.thl.awaiting.contains image then notEnabled "no new copy of the image is starting"
  else match s.stagedCopy image with
    | none => notEnabled "no new copy of the image is starting"
    | some c =>
      let live := s.thl.live && image == 2
      let s1 : State := { s with thl := { s.thl with awaiting := s.thl.awaiting.filter (· ≠ image),
                                                     live := s.thl.live && !live, liveDone := s.thl.liveDone || live } }
      let s2 := s1.copyReady image c
      let s3 := s2.destStarted image c
      .next (if live then s3.thlEvent 0x900A image (s.img image c).version else s3)

/-- A destination has not reported ready within 500 ms: the previous copy is booted. -/
def execImageReadyTimeout (image : Nat) (s : State) : Host.Outcome State Fault Refusal :=
  if ¬ (2 ≤ image ∧ image ≤ 4) then .fault .noSuchUnit
  else if s.clk.inReset ∨ !s.thl.awaiting.contains image then notEnabled "no new copy of the image is starting"
  else if s.ticks < SMap.get 0 s.thl.startedAt image + 500 * msTicks then notEnabled "500 ms have not passed"
  else match s.stagedCopy image with
    | none => notEnabled "no new copy of the image is starting"
    | some c =>
      let s1 := s.setImg image c { s.img image c with state := 4 }
      let s2 : State := { s1 with thl := { s1.thl with awaiting := s1.thl.awaiting.filter (· ≠ image), fallback := image,
                                                       live := s1.thl.live && image != 2,
                                                       bootB := setBits s1.thl.bootB (image - 1) (image - 1) (1 - c) } }
      let s3 := s2.thlEvent 0x9002 image (1 - c)
      .next (s3.destStarted image (1 - c))

/-! The mailbox operations (R344, R347). -/

/-- The result of an operation without a response. -/
def mbxResult (x op : Nat) (r : State × Nat) : State := r.1.mbxAnswer x op r.2 0 []

def execFwBegin (port : Nat) (s : State) : Host.Outcome State Fault Refusal :=
  mailboxOp s port 4 (fun s bs => mbxResult port 4 (s.fwBegin (leNat (slice bs 2 1)) (leNat (slice bs 4 4)) (some port)))

def execFwData (port : Nat) (s : State) : Host.Outcome State Fault Refusal :=
  mailboxOp s port 5 (fun s bs => mbxResult port 5 (s.fwData (some port) (leNat (slice bs 4 4)) (bs.drop 16)))

def execFwEnd (port : Nat) (s : State) : Host.Outcome State Fault Refusal :=
  mailboxOp s port 6 (fun s _ => mbxResult port 6 (s.fwEnd (some port)))

def execActivate (port : Nat) (s : State) : Host.Outcome State Fault Refusal :=
  mailboxOp s port 7 (fun s bs => mbxResult port 7 (s.activate (leNat (slice bs 2 1)) true))

/-- `THL_MBX_CTL.cancel`: a queued request of the page, or else its transfer, is abandoned. -/
def State.mbxCancel (s : State) (x : Nat) : State :=
  if s.thl.queue.contains (.mailbox x) then s.mbxTake x else s.fwCancel (some x)

/-- A write of `THL_MBX_CTL`: done cleared, cancel, then go. -/
def State.mbxCtl (s : State) (x value : Nat) : State :=
  let s1 := if bit value 2 ∧ !bit (s.setNow (.mbx x) 0 Reg.THL_MBX_CTL) 2 then s.setFld (.mbx x) Reg.THL_MBX_CTL 2 2 0 else s
  let s2 := if bit value 1 then s1.mbxCancel x else s1
  if bit value 0 then s2.mbxGo x else s2

def execMailboxCancel (r : Requester) (port value : Nat) (s : State) : Host.Outcome State Fault Refusal :=
  if !bit value 1 then notEnabled "the write does not set cancel"
  else regWrite s r (.mbx port) Reg.THL_MBX_CTL false (fun s => s.mbxCtl port value)

/-! Operator messages (R330, R331, R350). -/

/-- A new operator nonce. -/
def State.newBootNonce (s : State) : State :=
  let d := s.draw 8
  d.1.setWords .thl Reg.THL_BOOTNONCE 2 (leNat d.2)

def opType (m : List Byte) : Nat := leNat (slice m 0 4)
def opBody (m : List Byte) : List Byte := (m.drop 64).take (leNat (slice m 60 4))

/-- The reason for which an operator message is refused whatever its type; 0 for none. -/
def State.operatorBad (s : State) (m : List Byte) : Nat :=
  let signed := m.take (64 + leNat (slice m 60 4))
  if m.length ≠ 64 + leNat (slice m 60 4) + blockLen then 6
  else if !s.authBlock 2 4 signed (m.drop signed.length) then 1
  else if slice m 4 48 ≠ s.deviceDigest then 2
  else if leNat (slice m 52 8) ≠ s.words .thl Reg.THL_BOOTNONCE 2 then 3
  else 0

/-- A refused operator message. -/
def State.operatorReject (s : State) (m : List Byte) (reason : Nat) : State × Nat :=
  let s1 := if reason = 1 then s.sigRejected 4 2 else s
  (s1.thlEvent 0x9010 (opType m) reason, 0x9010)

/-- Type 1: the escalation policy is written and locked; 3 is ignored and does not lock (R313). -/
def State.operatorEsc (s : State) (m : List Byte) : State × Nat :=
  let bad := s.operatorBad m
  let v := leNat (slice (opBody m) 0 1)
  if bad ≠ 0 then s.operatorReject m bad
  else if opType m ≠ 1 then s.operatorReject m 4
  else if s.escLocked then s.operatorReject m 5
  else if opBody m = [] then s.operatorReject m 6
  else if 3 ≤ v then (s.newBootNonce, 0)
  else
    let s1 := s.setFld .rgn Reg.MPE_ESC 1 0 v
    (({ s1 with wlDone := s1.wlDone ++ [escLock] } : State).newBootNonce, 0)

/-- A type-1 message, or one whose type no other command names. -/
def execOperatorEscPolicy (src : MsgSource) (s : State) : Host.Outcome State Fault Refusal :=
  match src with
  | .link _ => notEnabled "no operator message arrives over a link"
  | src => signedMessage s src 8 (fun m => opType m != 2) (fun s m => s.operatorEsc m)

/-- Whether every context and every region of the device is FREE (R350). -/
def State.allFree (s : State) : Bool :=
  s.ctxs.all (fun c => c.2.state == .free) && s.regions.all (fun r => r.2.state == .free)

/-- The layout and the owning ports taken into use, and kept in the directory (R350). -/
def State.setLayout (s : State) (layout ports : Nat) : State :=
  { s.setDir (fun d => { d with layout := layout, ports := ports }) with
      layout := layout, portOf := (List.range layout).foldl (fun m p => SMap.set 0 m p (bits ports p p)) [] }

/-- Type 2: the layout (R350). -/
def State.operatorLayout (s : State) (m : List Byte) : State × Nat :=
  let bad := s.operatorBad m
  let b := opBody m
  let layout := leNat (slice b 0 1)
  let ports := leNat (slice b 1 1)
  if bad ≠ 0 then s.operatorReject m bad
  else if b.length ≠ 8 ∨ ¬ (layout = 1 ∨ layout = 2 ∨ layout = 4) ∨ 2 ^ layout ≤ ports ∨ leNat (b.drop 2) ≠ 0 then
    s.operatorReject m 6
  else if !s.allFree then s.operatorReject m 5
  else
    let s1 := (List.range layout).foldl (fun s p => s.partBegin p) (s.setLayout layout ports)
    ((s1.raise (.prt 0) 0xA001 layout ports).newBootNonce, 0)

def execOperatorPartitionLayout (src : MsgSource) (s : State) : Host.Outcome State Fault Refusal :=
  match src with
  | .link _ => notEnabled "no operator message arrives over a link"
  | src => signedMessage s src 8 (fun m => opType m == 2) (fun s m => s.operatorLayout m)

end Sys2Proof.Machine
end

