-- ==== Sys2Proof/Machine/Boot.lean ====
section
/-!
DEFINITION. Module resets, the boot of Thallus, and the health of its TRNG (13_trust_keys_attestation.md, R317, R319, R321,
R322, R338, R341, R342, R346; 16_clocks_resets_time.md, R410, R415, R422).
-/
namespace Sys2Proof.Machine

/-! Module resets (R10, R311, R346, R370, R375, R400, R422, R444, R461). -/

/-- What a Module reset leaves of Thallus: its OTP and its flash. A transfer in progress is abandoned. -/
def Thallus.restart (t : Thallus) : Thallus :=
  { otp := t.otp, dir := t.dir, dirMac := t.dirMac, flash := t.flash, marked := t.marked }

/-- What a Module reset leaves of the Lichenometer: its log, counter, parameters, images, and the
accounts of contexts and idle partitions (log entry 34). -/
def Meter.restart (m : Meter) : Meter :=
  { acct := m.acct.filter (fun a => 4 ≤ a.1), evcnt := m.evcnt, records := m.records, params := m.params, images := m.images, running := m.running, staged := m.staged,
    log := m.log, seq := m.seq, acked := m.acked, sigs := m.sigs, logFull := m.logFull }

/-- What a Module reset leaves of a stack: DRAM keeps its bits; keys, root store and cache are cleared, so that nothing
reads them, and the counters that stand in metadata lines can no longer be authenticated. -/
def Stack.restart (x : Stack) : Stack := { mem := x.mem, ctrs := x.ctrs, err := x.err, zeroing := true }

/-- What a Module reset leaves of a port: the level of PERST#. Its memory is the host's. -/
def Port.restart (x : Port) : Port := { perst := x.perst, hostMem := x.hostMem }

/-- What a Module reset leaves of a frond: the bytes of its shared memory. -/
def Frond.restart (x : Frond) : Frond := { mem := x.mem }

/-- What a Module reset leaves of a pinna: its memories and registers; the file is zeroed (R86, R87). -/
def Pinna.restart (x : Pinna) : Pinna :=
  { imem := x.imem, spad := x.spad, sregs := x.sregs, aregs := x.aregs, groups := x.groups, masks := x.masks,
    zeroing := true }

/-- The event log at a Module reset: the flash ring and what continues from it (R455, R461). -/
def EventLog.restart (l : EventLog) : EventLog := { flash := l.flash, page := l.page, boot := l.boot }

/-- A parked or switching domain returns to source 0 (R410). -/
def Domain.recall (d : Domain) : Domain :=
  if d.cur ∨ d.phase ≠ .none then { cur := d.cur, phase := .stopping } else d

/-- The clock block as a Module reset is raised at a tick. -/
def Clocks.raise (c : Clocks) (now : Nat) : Clocks :=
  { c with inReset := true, resetAt := now, faultHeld := false,
           doms := (List.range 4).foldl (fun m i => SMap.modify {} m i Domain.recall) c.doms }

/-- A Module reset raised: every block returns to its reset state but for what the rules above keep. A descriptor that
runs is cut, and a vector instruction in an engine is interrupted. -/
def State.moduleReset (s : State) : State :=
  let s0 := allEngines.foldl (fun s e => match (s.engine e).running with
    | some q => s.cutDesc e q
    | none => s) s
  let sv := s0.pinnae.foldl (fun s p => s.interruptVec p.1) s0
  let s1 := sv.resetPages .module (fun _ => true)
  { s1 with wlDone := [], pinnae := (s1.pinnae.filter (fun p => p.1 < 768)).map (fun p => (p.1, p.2.restart)),
            fronds := (List.range 32).foldl (fun m f => SMap.set {} m f (s1.frond f).restart) [],
            ctxs := [], parts := [],
            stackTab := (List.range 12).foldl (fun m k => SMap.set {} m k (s1.stack k).restart) [],
            regions := [], treeNet := [], links := [],
            clk := s1.clk.raise s1.ticks,
            thl := s1.thl.restart, tmb := {}, met := s1.met.restart, mgt := {},
            pwr := { ok := s1.pwr.ok, stage := s1.pwr.stage, tripped := s1.pwr.tripped },
            ports := (List.range 2).foldl (fun m x => SMap.set {} m x (s1.port x).restart) [],
            log := s1.log.restart, haltDev := false, haltPart := [], estHeld := [], estWait := [], rate := [] }

/-- The watchdog of the Thallus ROM: the runtime has not signalled ready 2,000 ms after the release (R338, R342). -/
def execBootWatchdogExpiry (s : State) : Host.Outcome State Fault Refusal :=
  if s.clk.inReset ∨ s.thl.stage ≠ 0 ∨ !s.thl.started ∨ !s.thl.awaiting.contains 1 then
    notEnabled "no new copy of image 1 is starting"
  else if s.ticks < s.clk.releasedAt + 2000 * msTicks then notEnabled "the limit of R338 has not passed"
  else match s.stagedCopy 1 with
    | none => notEnabled "no new copy of image 1 is starting"
    | some c =>
      let s1 := s.setImg 1 c { s.img 1 c with state := 4 }
      .next ({ s1 with thl := { s1.thl with marked := some 1 } } : State).moduleReset

/-! Boot (R341). -/

/-- The copies of an image in the order in which a boot tries them: staged, the one that ran last, an inactive one. -/
def State.bootOrder (s : State) (i : Nat) : List Nat :=
  [2, 1, 3].flatMap (fun st => (List.range 2).filter (fun c => (s.img i c).state == st))

/-- The copy that a boot chooses: copies that fail verification are rejected. -/
def State.choose (s : State) (i : Nat) : List Nat → State × Option Nat
  | [] => (s, none)
  | c :: cs =>
    match s.imageBad i (s.img i c).bytes with
    | 0 => (s, some c)
    | bad => State.choose (s.rejectCopy i c bad) i cs

/-- A boot that stops: `FAULT_N` is held low (R341, R475). -/
def State.bootStop (s : State) : State :=
  { s with thl := { s.thl with stage := 2 }, clk := { s.clk with faultHeld := true } }

/-- An image chosen and started: a new copy must yet report ready. -/
def State.startImage (s : State) (i c : Nat) : State :=
  let s1 : State := { s with thl := { s.thl with bootB := setBits s.thl.bootB (i - 1) (i - 1) c } }
  if (s.img i c).state = 2 then
    { s1 with thl := { s1.thl with awaiting := s1.thl.awaiting ++ [i], startedAt := SMap.set 0 s1.thl.startedAt i s1.ticks } }
  else
    let o := s1.img i (1 - c)
    let s2 := s1.setImg i c { s1.img i c with state := 1 }
    let s3 := if o.state = 1 then s2.setImg i (1 - c) { o with state := 3 } else s2
    (s3.commitSvn i c).destStarted i c

/-- Whether the boot performs, or resumes, the first start: after a Cold reset, with bit 0 of OTP byte 40 clear (R321). -/
def Thallus.firstDue (t : Thallus) : Bool := t.cold && !t.otp.first

/-- Step 1 of the first start: the root secret drawn from the TRNG, wrapped, programmed and read back. -/
def State.makeSecret (s : State) : State :=
  if s.thl.otp.secret ≠ [] then s
  else
    let d := s.drawFree 32
    let w := keyWrap s.thl.otp.pufKey d.2
    let got := fusedBytes 0 w
    ({ d.1 with thl := { d.1.thl with otp := { d.1.thl.otp with secret := got } } } : State).fuseReport 0 w got

/-- The root secret as it unwraps under the PUF key. -/
def Otp.unwrap (o : Otp) : Option (List Byte) := keyUnwrap o.pufKey o.secret

/-- The ladder and the TRNG started, the DRBG instantiated (R319, R341). -/
def State.startLadder (s : State) : State :=
  let e := s.drawFree 48
  { e.1 with thl := { e.1.thl with rs := s.thl.otp.unwrap.getD [], trngOk := true, drbg := CtrDrbg.init e.2 } }

/-- The outputs of the ladder delivered to Thallus and to the Lichenometer, and the ladder locked. The seed of the RSA key,
which Thallus does not keep, is answered. -/
def State.takeOutputs (s : State) : State × List Byte :=
  let ask (meter : Bool) (l : LadderLabel) : List Byte := (s.ladderAsk meter l).getD []
  ({ s with thl := { s.thl with keys := LadderKeys.take (ask false), locked := true },
            met := { s.met with key := ask true .lichenometer, recKey := ask true (.slotRecord 3) } }, ask false .identityRsa)

/-- The RSA key decrypted from the flash; one that cannot be is regenerated from its seed and written again (R321, R322). -/
def State.loadRsa (s : State) (seed : List Byte) : State :=
  match cacheOpen s.thl.keys.cache s.thl.dir.cache with
  | some pq => { s with thl := { s.thl with idKey := pq } }
  | none =>
    let pq := rsaPrimes seed
    let iv := s.drawFree 12
    ({ iv.1 with thl := { iv.1.thl with idKey := pq } } : State).setDir (fun d =>
      { d with cache := cacheSeal s.thl.keys.cache iv.2 pq })

/-- Steps 3 and 4 of the first start: the digest programmed where it is blank, then bit 0 of byte 40. -/
def State.finishFirst (s : State) : State :=
  let w := s.ownDigest
  let got := fusedBytes 48 w
  let s1 := if s.thl.otp.digest ≠ [] then s
    else ({ s with thl := { s.thl with otp := { s.thl.otp with digest := got } } } : State).fuseReport 48 w got
  if Config.fuseFails 40 0 then s1.thlEvent 0x900F 40 0
  else ({ s1 with thl := { s1.thl with otp := { s1.thl.otp with first := true } } } : State).thlEvent 0x900E 0 0

/-- The identity compared with the OTP (R322). -/
def State.checkIdentity (s : State) : State :=
  if s.ownDigest = s.deviceDigest then s
  else ({ s with thl := { s.thl with mismatch := true } } : State).thlEvent 0x9003 0 0

/-- Whether the directory's HMAC verifies (R339). -/
def State.dirOk (s : State) : Bool := s.thl.dirMac == hmac384 s.thl.keys.dir s.thl.dir.bytes

/-- The copies of an image in a rebuilt directory: one that fails R340 is rejected, and one that verifies runs; where both
do, which of them is open (log entry 117). -/
def State.rebuildImage (s : State) (i : Nat) : State :=
  let judge (s : State) (c : Nat) : State :=
    if (s.img i c).bytes = [] then s.setImgState i c 0
    else match s.imageBad i (s.img i c).bytes with
      | 0 => s.setImgState i c 3
      | bad => s.rejectCopy i c bad
  let s1 := judge (judge s 0) 1
  match (List.range 2).filter (fun c => (s1.img i c).state == 3) with
  | [] => s1
  | [c] => s1.setImgState i c 1
  | _ =>
    let d := s1.drawWord
    d.1.setImgState i (d.2 % 2) 1

/-- The directory rebuilt from the images that verify. Slot records and the identity cache authenticate themselves;
certificates and policy keys are lost, and the layout is that of a shipped module (log entry 117). -/
def State.rebuildDir (s : State) : State :=
  imageNos.foldl (fun s i => s.rebuildImage i)
    ({ s.setDir (fun d => { records := d.records, cache := d.cache }) with layout := 1, portOf := [] })

/-- What the ROM does before it verifies the runtime: the ladder, the TRNG, the identity and the directory. A root secret
that fails to unwrap ends a first start, and the device never signs (R321). -/
def State.romStart (s : State) : State :=
  let first := s.thl.firstDue
  let s1 := (if first then s.makeSecret else s).startLadder
  let t := s1.takeOutputs
  let s2 := if first && s1.thl.otp.unwrap.isNone then
      ({ t.1 with thl := { t.1.thl with signStopped := true } } : State).thlEvent 0x900D 0 0
    else
      let k := t.1.loadRsa t.2
      (if first then k.finishFirst else k).checkIdentity
  if t.1.dirOk then s2 else s2.rebuildDir

/-- 0x9002 for the image that a watchdog marked before this boot (R342). -/
def State.noteFallback (s : State) (c : Nat) : State :=
  match s.thl.marked with
  | some i => ({ s with thl := { s.thl with marked := none, fallback := i } } : State).thlEvent 0x9002 i c
  | none => s

def execThallusBoot (s : State) : Host.Outcome State Fault Refusal :=
  if s.clk.inReset then notEnabled "a Module reset is in force"
  else if s.thl.started ∨ s.thl.stage ≠ 0 then notEnabled "the ROM has already run"
  else
    let s1 := s.romStart
    match s1.choose 1 (s1.bootOrder 1) with
    | (s2, none) => .next s2.bootStop
    | (s2, some c) =>
      let s3 := (s2.startImage 1 c).noteFallback c
      .next { s3 with thl := { s3.thl with started := true } }

/-- Images 2, 3 and 4 verified and loaded; none where the boot stops. -/
def State.loadImages (s : State) : List Nat → State × Bool
  | [] => (s, true)
  | i :: is =>
    match s.choose i (s.bootOrder i) with
    | (s1, none) => (s1, false)
    | (s1, some c) => State.loadImages (s1.startImage i c) is

/-- The nonces of operator and fabric messages drawn, where they are not and the DRBG serves (R278, R317, R330). -/
def State.drawNonces (s : State) : State :=
  if !s.thl.trngOk then s
  else
    let s1 := if s.words .thl Reg.THL_BOOTNONCE 2 = 0 then s.newBootNonce else s
    if s1.fabNonce = 0 then s1.newFabNonce else s1

/-- The runtime is ready: a new copy of image 1 is taken into use, images 2 to 4 are loaded, and the nonces are drawn
(R278, R330, R341, R342). -/
def execRuntimeReady (s : State) : Host.Outcome State Fault Refusal :=
  if s.clk.inReset ∨ !s.thl.started ∨ s.thl.stage ≠ 0 then notEnabled "the runtime is not starting"
  else
    let s1 := match s.thl.awaiting.contains 1, s.stagedCopy 1 with
      | true, some c =>
        ({ s with thl := { s.thl with awaiting := s.thl.awaiting.filter (· ≠ 1) } } : State).copyReady 1 c
      | _, _ => s
    match ({ s1 with thl := { s1.thl with stage := 1 } } : State).loadImages [2, 4, 3] with
    | (s2, false) => .next s2.bootStop
    | (s2, true) => .next s2.drawNonces

/-! The TRNG (R317). -/

/-- A failed health test: 1 repetition count, 2 adaptive proportion. -/
def execTrngHealthFail (kind : Nat) (s : State) : Host.Outcome State Fault Refusal :=
  if ¬ (kind = 1 ∨ kind = 2) then .fault .noSuchUnit
  else if s.clk.inReset ∨ !s.thl.trngOk then notEnabled "the TRNG does not run"
  else .next (({ s with thl := { s.thl with trngOk := false } } : State).thlEvent 0x900C kind 0)

/-- A new start-up test passes: the DRBG serves again, and draws the nonces that a runtime lacks. -/
def execTrngStartUpTest (s : State) : Host.Outcome State Fault Refusal :=
  if s.clk.inReset ∨ s.thl.trngOk ∨ !s.thl.started then notEnabled "no health test has failed"
  else
    let s1 : State := { s with thl := { s.thl with trngOk := true } }
    .next (if s.thl.stage = 1 then s1.drawNonces else s1)

end Sys2Proof.Machine
end

