-- ==== Sys2Proof/Machine/CaptureCtl.lean ====
section
/-!
DEFINITION. The modes of `CTX_CAP_CTL`: recording and replay begin and end (18_management_and_replay.md, R456 to R459).
-/
namespace Sys2Proof.Machine

/-! The ring (R456, R463). -/

/-- First bytes of the granules at the two ends of the ring: a region holds a run of every stack, so that these lie in
one region only if the whole ring does. -/
def State.ringEnds (s : State) (c : Nat) : List Nat :=
  let a := s.capAddr c
  let n := s.capSize c * 8
  let S := if s.capSpace c = 0 then (s.stacksOf (c / 8)).length else 1
  (List.range (min n S)).map (fun i => a + 8192 * i) ++ (List.range (min n S)).map (fun i => a + 8192 * (n - 1 - i))

/-- Whether the whole ring lies in one ACTIVE sealed region owned by the context (reason 1). -/
def State.ringOk (s : State) (c : Nat) : Bool :=
  let at_ (a : Nat) : Option (Nat × Nat) := s.resolve (c / 8) (s.capSpace c) a
  let first := (at_ (s.capAddr c)).map (fun x => x.1)
  decide (1 ≤ s.capSize c) && decide (s.capSize c ≤ 65535) && s.capAddr c % 65536 == 0
    && (match at_ (s.capAddr c) with
      | none => false
      | some (k, o) => match s.regionAt k (o / 64) with
        | none => false
        | some r =>
          let g := s.region r
          g.state == .active && g.sealedBit && g.owner == c
            && (s.ringEnds c).all (fun a => match at_ a with
              | some (k, o) => s.regionAt k (o / 64) == some r && (s.capSpace c == 0 || some k == first)
              | none => false))

/-! Records at the ends of a stream (R457, R458; layouts: log entry 13). -/

/-- The partition's pinna 0. -/
def State.firstPinna (s : State) (p : Nat) : Nat :=
  192 * (((List.range 4).find? (fun q => s.partOfQuarter q == p)).getD 0)

/-- Class and Prothallus bit of a context, as START records them. -/
def State.capClass (s : State) (c : Nat) : List Byte :=
  [if (s.ctx c).joint then 1#8 else 0#8, if (s.ctx c).proth then 1#8 else 0#8]

/-- The body of START. -/
def State.startBody (s : State) (c : Nat) : List Byte :=
  let p := c / 8
  let ns := s.estOf c
  let pg := Page.pna (s.firstPinna p)
  leBytes 1 c ++ s.capClass c ++ leBytes 1 ns.length
    ++ ns.flatMap (fun n => leBytes 4 n ++ leBytes 32 (s.estFld p n 255 0))
    ++ leBytes 4 (s.word pg Reg.PNA_MMA_CTL) ++ leBytes 4 (s.word pg Reg.PNA_VEC_CTL)
    ++ leBytes 4 (s.word pg Reg.PNA_TREE_TIMEOUT)

/-- The slots of a START record put back. -/
def State.restoreSlots (s : State) (c : Nat) (rec_ : List Byte) : State :=
  let p := c / 8
  (List.range (leNat (slice rec_ 19 1))).foldl (fun s i =>
    let n := leNat (slice rec_ (20 + 36 * i) 4)
    if 1 ≤ n ∧ n ≤ 63 then
      let s1 := s.setEst p n 255 0 (leNat (slice rec_ (24 + 36 * i) 32))
      { s1 with estHeld := SMap.set (none, none) s1.estHeld (64 * p + n) (none, none) }
    else s) s

/-- Whether the TRAILER stands and agrees with the records before it, under this device's key (R458). -/
def State.trailerOk (s : State) (rs : List CapRec) : Bool :=
  match rs.getLast? with
  | none => false
  | some t =>
    let before := rs.dropLast
    let start := (rs.map (fun r => r.bytes)).headD []
    t.type == 8 && leNat (slice t.bytes 16 8) == before.length
      && slice t.bytes 24 48 == hmac384 (s.capKey (leNat (slice start 16 1)) (leNat (slice start 8 8)))
        (before.flatMap (fun r => r.bytes))

/-! Modes (R456). -/

def State.setCapMode (s : State) (c m : Nat) : State := s.setFld (.ctx c) Reg.CTX_CAP_CTL 1 0 m

/-- A refusal. -/
def State.capRefuse (s : State) (c reason : Nat) : State := s.raise (.ctx c) 0xE104 c reason

/-- Mode 0 to 1. -/
def State.capStart (s : State) (c : Nat) : State :=
  if !s.ringOk c then s.capRefuse c 1
  else
    let x := s.ctx c
    let s1 := s.setCtx c { x with capture := { key := s.capKey c s.tmb.ns } }
    let s2 := (((s1.setFld (.ctx c) Reg.CTX_CAP_CTL 2 2 0).setWord (.ctx c) 0x114 0).setWord (.ctx c) 0x118 0).setCapMode c 1
    s2.capRecord c 1 (s2.startBody c)

/-- Mode 1 to 0. -/
def State.capStop (s : State) (c : Nat) : State := (s.capTrailer c).setCapMode c 0

/-- Mode 0 to 2. -/
def State.repStart (s : State) (c : Nat) : State :=
  if !s.ringOk c then s.capRefuse c 1
  else
    let rs := s.capRecords c
    match rs.head? with
    | none => s.capRefuse c 2
    | some r =>
      if r.type ≠ 1 ∨ slice r.bytes 17 2 ≠ s.capClass c then s.capRefuse c 2
      else if s.fld (.ctx c) Reg.CTX_CAP_CTL 3 3 = 0 ∧ !s.trailerOk rs then s.capRefuse c 3
      else
        let x := s.ctx c
        let s1 := (s.setCtx c { x with capture := { used := [0] } }).restoreSlots c r.bytes
        (((s1.setFld (.ctx c) Reg.CTX_CAP_CTL 2 2 0).setWord (.ctx c) 0x114 r.units).setWord (.ctx c) 0x118 0).setCapMode c 2

/-- Mode 2 to 0. -/
def State.repStop (s : State) (c : Nat) : State :=
  let x := s.ctx c
  (s.setCtx c { x with capture := {} }).setCapMode c 0

/-- A write of `CTX_CAP_CTL`: unver, and a change of mode that R456 lists. -/
def State.capCtl (s : State) (c value : Nat) : State :=
  let s1 := s.setFld (.ctx c) Reg.CTX_CAP_CTL 3 3 (bits value 3 3)
  match s.capMode c, bits value 1 0 with
  | 0, 1 => s1.capStart c
  | 1, 0 => s1.capStop c
  | 0, 2 => s1.repStart c
  | 2, 0 => s1.repStop c
  | _, _ => s1

/-- A change of mode by a write that takes effect, from mode `m`. -/
def onMode (s : State) (c m : Nat) (eff : State → State) : Host.Outcome State Fault Refusal :=
  if ¬ c < 32 then .fault .noSuchUnit
  else if s.clk.inReset ∨ s.lockOf (.ctx c) then notEnabled "no write of the mode takes effect now"
  else if s.capMode c ≠ m then notEnabled "the context is in another mode"
  else .next (eff s)

def execCaptureStart (c : Nat) (s : State) : Host.Outcome State Fault Refusal := onMode s c 0 (fun s => s.capStart c)

def execCaptureStop (c : Nat) (s : State) : Host.Outcome State Fault Refusal := onMode s c 1 (fun s => s.capStop c)

def execReplayStart (c : Nat) (s : State) : Host.Outcome State Fault Refusal := onMode s c 0 (fun s => s.repStart c)

def execReplayStop (c : Nat) (s : State) : Host.Outcome State Fault Refusal := onMode s c 2 (fun s => s.repStop c)

end Sys2Proof.Machine
end

