-- ==== Sys2Proof/Machine/Memory.lean ====
section
/-!
DEFINITION. Line requests, write-backs and the sweeps of a stack (07_memory_and_rhizoids.md, R151, R152;
12_memory_protection.md, R296, R300, R305 to R308).
-/
namespace Sys2Proof.Machine

/-- Disturbances of stored symbols from outside (line, symbol, value XORed), as R303 allows an attacker or a fault. -/
def Stack.disturb (x : Stack) (flips : List (Nat × Nat × Nat)) : Stack :=
  flips.foldl (fun x f =>
    if f.1 < stackLines ∧ f.2.1 < 72 then
      { x with err := SMap.set [] x.err f.1 ((x.errOf f.1).flip f.2.1 (f.2.2 % 256)) }
    else x) x

/-- A read of one line by a requester of class `cls` for context `ctx`, after the disturbances `flips`. -/
def execMemoryLineRead (stack line cls ctx : Nat) (flips : List (Nat × Nat × Nat)) (s : State) :
    Host.Outcome State Fault Refusal :=
  if ¬ (stack < 12 ∧ line < stackLines ∧ cls < 7 ∧ ctx < 32) then .fault .noSuchUnit
  else if s.clk.inReset then notEnabled "the module is in reset"
  else
    match (s.setStack stack ((s.stack stack).disturb flips)).readLine stack line cls ctx with
    | (s1, some bs) => .next (s1.emit (.readLine bs))
    | (s1, none) => .next (s1.emit .busError)

/-- A write of `data` at byte `off` of a line. -/
def execMemoryLineWrite (stack line cls ctx off : Nat) (data : List Byte) (s : State) : Host.Outcome State Fault Refusal :=
  if ¬ (stack < 12 ∧ line < stackLines ∧ cls < 7 ∧ ctx < 32 ∧ data ≠ [] ∧ off + data.length ≤ 64) then .fault .noSuchUnit
  else if s.clk.inReset then notEnabled "the module is in reset"
  else
    match s.writeLine stack line cls ctx off data with
    | (s1, true) => .next s1
    | (s1, false) => .next (s1.emit .busError)

/-- The write-back of a corrected line (R152). -/
def execEccWriteback (stack line : Nat) (s : State) : Host.Outcome State Fault Refusal :=
  if ¬ (stack < 12 ∧ line < stackLines) then .fault .noSuchUnit
  else
    let x := s.stack stack
    match x.writeback.find? (fun a => a.1 == line) with
    | none => notEnabled "no write-back of the line is due"
    | some a =>
      .next (s.setStack stack { x with err := SMap.set [] x.err line a.2, writeback := x.writeback.filter (fun b => b.1 ≠ line) })

/-! Sweeps (R305 to R308). -/

/-- The line ranges that a sweep visits in a stack, in increasing stack offset: first line and count (R306). -/
def Region.sweepRanges (g : Region) (k : SweepKind) : List (Nat × Nat) :=
  let n := (g.limit - g.base + 1) * unitLines
  let data := (g.base * unitLines, n)
  let w := g.mbase * unitLines
  match k with
  | .init => if g.tree then [(w, n / 8), (w + n / 4, ((g.geo.levels.tail).map Prod.snd).sum)] else [data]
  | .rekey => [data]
  | .zero =>
    if g.tree then
      let win := (w, (g.mlimit - g.mbase + 1) * unitLines)
      if g.base < g.mbase then [data, win] else [win, data]
    else [data]

/-- Lines of a region's part in a stack that a sweep visits. -/
def Region.sweepLines (g : Region) (k : SweepKind) : Nat := ((g.sweepRanges k).map Prod.snd).sum

/-- The line that stands at a place of a sweep. -/
def sweepAt : List (Nat × Nat) → Nat → Nat
  | [], _ => 0
  | [(a, n)], i => a + min i n
  | (a, n) :: rs, i => if i < n then a + i else sweepAt rs (i - n)

/-- The ranges [a, b) of lines that a sweep visits between two of its places. -/
def sweepPart : List (Nat × Nat) → Nat → Nat → List (Nat × Nat)
  | [], _, _ => []
  | (a, n) :: rs, lo, hi => (a + min lo n, a + min hi n) :: sweepPart rs (lo - n) (hi - n)

/-- Whether a line lies in one of some ranges. -/
def inRanges (rs : List (Nat × Nat)) (line : Nat) : Bool := rs.any (fun r => decide (r.1 ≤ line) && decide (line < r.2))

/-- The data lines whose contents the writing of some lines makes zero: themselves, or for the counter lines that an
initialisation in tree mode writes the eight data lines of each (R298). -/
def Region.zeroedBy (g : Region) (k : SweepKind) (rs : List (Nat × Nat)) : List (Nat × Nat) :=
  if k = .init ∧ g.tree then
    let geo := g.geo
    let data (m : Nat) : Nat := geo.data0 + 8 * min (m - g.mbase * unitLines) (geo.n / 8)
    rs.map (fun r => (data r.1, data r.2))
  else rs

/-- Lines of a stack written by an initialisation or zeroing sweep: what they held, and the write-backs that were due,
are gone (R152, R306). -/
def Stack.sweepClear (x : Stack) (g : Region) (k : SweepKind) (rs : List (Nat × Nat)) : Stack :=
  let data := g.zeroedBy k rs
  { x with err := x.err.filter (fun e => !inRanges rs e.1), writeback := x.writeback.filter (fun a => !inRanges rs a.1),
           mem := data.foldl (fun m r => Mem.clear m (64 * r.1) (64 * (r.2 - r.1))) x.mem,
           ctrs := x.ctrs.filter (fun c => !inRanges data c.1) }

/-! The re-key sweep. -/

/-- The poison line (R308): data 0, side-band 0 but for its bytes 4 and 5. -/
def poisonLine : List Byte := List.replicate 68 0#8 ++ [0xFF#8, 0xFF#8, 0#8, 0#8]

/-- The metadata lines of a region that a re-key sweep of data lines [a, b) works with. -/
def TreeGeo.around (g : TreeGeo) (a b m : Nat) : Bool :=
  let lo := a - g.data0
  let hi := b - g.data0
  match g.levelOf m with
  | some (j, i) => decide (lo / 8 ^ (j + 1) ≤ i) && decide (i * 8 ^ (j + 1) < hi)
  | none => decide (g.tag0 + lo / 8 ≤ m) && decide (g.tag0 + ceilDiv hi 8 > m)

/-- A metadata line as the sweep reads it: the outcomes of rows 1 and 3 of R309. -/
def State.rekeyMeta (s : State) (k r line : Nat) : State :=
  if (s.region r).state ≠ .rekey ∨ (s.stack k).cached line then s
  else
    let d := s.decode k line
    match d.2 with
    | none => d.1.metaDead k r line
    | some e => if d.1.digestBad k r [(line, some e)] line then d.1.tamper k r 0x7005 line else d.1

/-- The symbols in which the tag of a data line differs, in the cache or else in DRAM, from the one written. -/
def State.tagLeft (s : State) (k r line : Nat) : ErrPat :=
  let x := s.stack k
  let g := (s.region r).geo
  if x.cached (g.tagLine line) then x.tagDev g line
  else match decodeLine (x.errOf (g.tagLine line)) with
    | .clean e | .corrected e => (ErrPat.slot e ((line - g.data0) % 8)).map (fun a => (a.1 % 8, a.2))
    | .uncorrectable => []

/-- A data line as the sweep reads it under the old keys (R307, R308, R309): one beyond correction is listed to be
poisoned, one that fails its MAC or tag is handled as for a read, and what passes is written again. -/
def State.rekeyData (a : State × List Nat) (k r line : Nat) : State × List Nat :=
  let s := a.1
  let g := s.region r
  if g.state ≠ .rekey ∨ (g.tree ∧ (s.stack k).ctr line = 0) then a
  else
    match s.decode k line with
    | (s1, none) => ((s1.raise (.mpe k) 0x700C (r + k * 256) line).bump (.mpe k) (mpeCounter 6), a.2 ++ [line])
    | (s1, some e) =>
      match (if g.tree then s1.treePlain k r line e (s1.tagLeft k r line) else s1.nativePlain k r line e) with
      | none => (s1.tamper k r (if g.tree then 0x7004 else 0x7003) line, a.2)
      | some bs => (s1.setStack k ((s1.stack k).store line bs), a.2)

/-- A line poisoned under the keys that now apply: the pattern makes its stored symbols those of `poisonLine`. -/
def State.poison (s : State) (k line : Nat) (tree : Bool) : State :=
  let x := (s.stack k).store line (List.replicate 64 0#8)
  let s1 := s.setStack k (if tree then { x with ctrs := SMap.set 0 x.ctrs line 1 } else x)
  let y := s1.stack k
  s1.setStack k { y with err := SMap.set [] y.err line (ErrPat.between (s1.writtenLine k line) poisonLine) }

/-- The sweep takes data lines [a, b) from the old keys to the new (R307): metadata and data that DRAM changed are checked,
the boundary moves, counters that are not 0 become 1, and what was read is written anew. -/
def State.rekeyPart (s : State) (k r a b : Nat) : State :=
  let x := s.stack k
  let g := s.region r
  let geo := g.geo
  let isMeta (m : Nat) : Bool := g.metaCovers k m && geo.around a b m
  let metas := (x.err.map Prod.fst).filter isMeta
  let cachedDev := (x.cache.flatMap (fun e => e.2)).filterMap (fun c => if c.dev ≠ [] ∧ isMeta c.line then some c.line else none)
  let ofTag (m : Nat) : List Nat := if (geo.levelOf m).isNone then (List.range 8).map (fun n => geo.data0 + 8 * (m - geo.tag0) + n) else []
  let datas := ((x.err.map Prod.fst) ++ (metas ++ cachedDev).flatMap ofTag).filter (fun m => decide (a ≤ m) && decide (m < b))
  let s1 := metas.foldl (fun s m => s.rekeyMeta k r m) s
  let order := (datas.foldl (fun m l => SMap.set false m l true) ([] : SMap Bool)).map Prod.fst
  let d := order.foldl (fun p m => State.rekeyData p k r m) (s1, [])
  if (d.1.region r).state ≠ .rekey then d.1
  else
    let y := d.1.stack k
    let q := y.keySlot r
    let y1 : Stack :=
      { y with err := y.err.filter (fun e => !(metas.contains e.1)), writeback := y.writeback.filter (fun w => !isMeta w.1 && !inRanges [(a, b)] w.1),
               ctrs := if g.tree then y.ctrs.map (fun c => if a ≤ c.1 ∧ c.1 < b then (c.1, 1) else c) else y.ctrs,
               cache := y.cache.map (fun e => (e.1, e.2.map (fun c => if isMeta c.line then { c with dev := [] } else c))),
               keys := SMap.set {} y.keys r { q with bound := b } }
    d.2.foldl (fun s m => s.poison k m g.tree) (d.1.setStack k y1)

/-! Progress. -/

/-- The sweep that runs in stack `k` takes its next `n` lines, or those that are left. -/
def State.sweepBy (s : State) (k n : Nat) : State :=
  match (s.stack k).sweep with
  | none => s
  | some w =>
    let g := s.region w.region
    let rs := g.sweepRanges w.kind
    let hi := min (g.sweepLines w.kind) (w.pos + n)
    let part := sweepPart rs w.pos hi
    let s1 := match w.kind with
      | .rekey => part.foldl (fun s p => s.rekeyPart k w.region p.1 p.2) s
      | kind => s.setStack k ((s.stack k).sweepClear g kind part)
    if (s1.stack k).sweep.isNone then s1
    else
      let h := s1.region w.region
      let sum := h.swept + (hi - w.pos)
      let s2 := s1.setRegion w.region
        { h with swept := sum, prog := 1000 * sum / (g.sweepLines w.kind * ((List.range 12).filter g.has).length) }
      (s2.setStack k { s2.stack k with sweep := some { w with pos := hi } }).bump (.mpe k) (mpeCounter 5) (hi - w.pos)

/-- Whether another stack still owes the sweep of a region. -/
def State.sweepOwed (s : State) (k : Nat) (r : Nat) : Bool :=
  (List.range 12).any (fun j => j != k && ((s.stack j).sweep.any (fun v => v.region == r)
    || (s.stack j).sweeps.any (fun v => v.region == r)))

/-- The sweep of a stack ends there. -/
def State.sweepEnd (s : State) (k : Nat) : State :=
  match (s.stack k).sweep with
  | none => s
  | some w =>
    let s1 := s.sweepBy k ((s.region w.region).sweepLines w.kind)
    s1.setStack k { s1.stack k with sweep := none }

/-- An MPE starts the oldest sweep of its queue (R305). A sweep that runs in the stack ends there first, unless it is the
last of its region, whose end is SWEEP_DONE. -/
def execSweepStart (stack : Nat) (s : State) : Host.Outcome State Fault Refusal :=
  if ¬ stack < 12 then .fault .noSuchUnit
  else
    let x := s.stack stack
    match x.sweep, x.sweeps with
    | none, w :: ws =>
      if s.haltDev then notEnabled "every engine is stopped"
      else .next (s.setStack stack { x with sweep := some w, sweeps := ws })
    | some v, w :: ws =>
      if s.haltDev then notEnabled "every engine is stopped"
      else if !s.sweepOwed stack v.region then notEnabled "the sweep that runs is the last of its region"
      else
        let s1 := s.sweepEnd stack
        if (s1.stack stack).sweeps = w :: ws then .next (s1.setStack stack { s1.stack stack with sweep := some w, sweeps := ws })
        else .next s1
    | _, _ => notEnabled "no sweep can start"

/-- What sweeps move in one cycle of the timebase: a number of lines that the spec leaves open, at most 2,560 B of DRAM
traffic in each of its 6.4 Rhizoid cycles (R305), 64 B for a line written and 128 B for one read and written. The end in a
stack is SWEEP_START's or SWEEP_DONE's. -/
def State.sweepTick (s : State) : State :=
  if s.haltDev then s
  else (List.range 12).foldl (fun s k => match (s.stack k).sweep with
    | none => s
    | some w =>
      let d := s.drawWord
      let most := if w.kind = .rekey then 128 else 256
      let left := (s.region w.region).sweepLines w.kind - w.pos
      d.1.sweepBy k (min (d.2 % (most + 1)) (left - 1) / 8 * 8)) s

/-- The stacks of a region's mask. -/
def Region.stackList (g : Region) : List Nat := (List.range 12).filter g.has

/-- The state of a region after its sweep, and the kind that the event names. -/
def SweepKind.next : SweepKind → RegionState × Nat
  | .init => (.active, 0)
  | .rekey => (.active, 1)
  | .zero => (.free, 2)

/-- The old keys of a region destroyed in every MPE (R307). -/
def State.dropOldKeys (s : State) (r : Nat) : State :=
  (List.range 12).foldl (fun s k =>
    let x := s.stack k
    if (x.keySlot r).old.isNone then s
    else s.setStack k { x with keys := SMap.set {} x.keys r { cur := (x.keySlot r).cur } }) s

/-- The sweep of a region ends in every stack where it still runs; `last` is the stack that finished last (R305). -/
def execSweepDone (region last : Nat) (s : State) : Host.Outcome State Fault Refusal :=
  if ¬ (region < 64 ∧ last < 12) then .fault .noSuchUnit
  else
    let g := s.region region
    match (s.stack last).sweep with
    | none => notEnabled "no sweep of the region runs"
    | some w =>
      if ¬ (w.region = region ∧ g.has last ∧ !s.haltDev
          ∧ g.stackList.all (fun k => (s.stack k).sweeps.all (fun v => v.region != region))) then
        notEnabled "the region's sweep has not started in every stack"
      else
        let s1 := g.stackList.foldl (fun s k => if (s.stack k).sweep.any (fun v => v.region == region) then s.sweepEnd k else s) s
        if w.kind = .rekey ∧ (s1.region region).state ≠ .rekey then .next s1
        else
          let s2 := (s1.dropOldKeys region).setRegion region { s1.region region with state := w.kind.next.1, prog := 1000 }
          .next (s2.raise .rgn 0x700B (region + last * 256) w.kind.next.2)

end Sys2Proof.Machine
end

