-- ==== Sys2Proof/Machine/ReadAccess.lean ====
section
/-!
DEFINITION. Reads of registers: refusals and the answer (15_host_interface.md, R383, R386, R391).
-/
namespace Sys2Proof.Machine

/-- A read answered. -/
def State.answer (s : State) (r : Requester) (v : Nat) : State := s.emit (.readData r v)

/-- The meaning of a command that is a register read of `len` bytes: Unsupported Request where a locked TDI refuses it,
all ones for a wrong size, zero for a page that cannot be reached, and otherwise what `value` gives. -/
def regRead (s : State) (r : Requester) (pg : Page) (off len : Nat) (value : State → State × Nat) :
    Host.Outcome State Fault Refusal :=
  if !pg.exists then .fault .noSuchUnit
  else if !s.canAsk r then notEnabled "the requester cannot make accesses now"
  else if s.tdiRefuses r then .next ((s.barRefuse r (barOffset pg off)).emit (.unsupported r))
  else if !((len == 4 || len == 8) && off % len == 0) then
    .next ((s.badSize r pg off).answer r (2 ^ (8 * len) - 1))
  else if !s.reaches r pg then .next ((s.denied r pg off).answer r 0)
  else
    let v := value s
    .next (v.1.answer r v.2)

end Sys2Proof.Machine
end

