-- ==== Sys2Proof/Machine/Clock.lean ====
section
/-!
DEFINITION. The start of the clocks, resets in time, domain switches and the timebase (16_clocks_resets_time.md).
-/
namespace Sys2Proof.Machine

/-! Start from power (R404 to R406). -/

/-- The state as `PWR_OK` rises: what flash, OTP, DRAM and the host hold is kept (R167, R311), straps are sampled, and the Cold reset is in
force. -/
def State.coldStart (s : State) (settle mgmtPort : Nat) : State :=
  { State.reset with
    pending := s.pending, thl := { s.thl.restart with cold := true }, met := s.met.restart, log := s.log.restart, layout := s.layout,
    portOf := s.portOf, out := s.out, freeCtr := s.freeCtr, nextJob := s.nextJob, nextWrite := s.nextWrite,
    stackTab := (List.range 12).map (fun k => (k, (s.stack k).restart)),
    ports := (List.range 2).foldl (fun m x => SMap.set {} m x { hostMem := (s.port x).hostMem }) [],
    clk := { settle := settle % 8, mgmtPort := mgmtPort % 2, rstN := s.clk.rstN, throttleN := s.clk.throttleN } }

def execColdReset (settle mgmtPort : Nat) (s : State) : Host.Outcome State Fault Refusal :=
  if s.pwr.ok then notEnabled "PWR_OK is high" else .next (s.coldStart settle mgmtPort)

/-- The clock start moved from one phase to the next. -/
def clockStep (s : State) (from_ : ClockPhase) (eff : Clocks → Clocks) : Host.Outcome State Fault Refusal :=
  if !s.pwr.ok then notEnabled "PWR_OK is low"
  else if s.clk.phase ≠ from_ then notEnabled "the clock start stands elsewhere"
  else .next { s with clk := eff s.clk }

def execOscFirstEdge (s : State) : Host.Outcome State Fault Refusal :=
  clockStep s .waitEdge (fun c => { c with phase := .settling })

def execOscEdgeTimeout (s : State) : Host.Outcome State Fault Refusal :=
  clockStep s .waitEdge (fun c => { c with phase := .failed 1 })

def execSettleTimeEnd (s : State) : Host.Outcome State Fault Refusal :=
  clockStep s .settling (fun c => { c with phase := .pllStarting })

/-- The PLL is locked and the domains start; the Module reset that the Cold reset contains is still in force. -/
def execPllLocked (lockUs : Nat) (s : State) : Host.Outcome State Fault Refusal :=
  if 200 < lockUs then .fault .noSuchUnit
  else clockStep s .pllStarting (fun c => { c with phase := .running, lockUs := lockUs, resetAt := s.ticks })

def execPllLockTimeout (s : State) : Host.Outcome State Fault Refusal :=
  clockStep s .pllStarting (fun c => { c with phase := .failed 2 })

/-- Loss of lock: every domain stops, so that nothing that ran goes on (R406). -/
def execPllLockLost (s : State) : Host.Outcome State Fault Refusal :=
  if !s.pwr.ok ∨ s.clk.phase ≠ .running then notEnabled "the domains do not run"
  else
    let s1 := s.moduleReset
    .next { s1 with clk := { s1.clk with phase := .failed 3 } }

/-- One frame of the coded pattern. -/
def execFaultPatternFrame (s : State) : Host.Outcome State Fault Refusal :=
  match s.clk.phase with
  | .failed n =>
    if !s.pwr.ok then notEnabled "PWR_OK is low"
    else .next (({ s with clk := { s.clk with patternFrames := s.clk.patternFrames + 1 } } : State).emit (.faultPattern n))
  | _ => notEnabled "no pattern is shown"

/-- `FAULT_N` outside the coded patterns: whether it is driven low (R475). -/
def State.faultLow (s : State) : Bool := s.pwr.ok && s.clk.faultHeld

/-! Module resets (R415). -/

def execRstNAsserted (s : State) : Host.Outcome State Fault Refusal :=
  if !s.pwr.ok ∨ s.clk.phase ≠ .running then notEnabled "the timebase domain does not run"
  else
    let s1 := if s.clk.inReset then { s with clk := { s.clk with resetAt := s.ticks } } else s.moduleReset
    .next { s1 with clk := { s1.clk with rstN := false } }

/-- A write of `TOP_RESET` (R397). -/
def State.topResetWrite (s : State) (value : Nat) : State := if bit value 0 then s.moduleReset else s

def execTopResetGo (r : Requester) (value : Nat) (s : State) : Host.Outcome State Fault Refusal :=
  if !bit value 0 then notEnabled "the write does not set go"
  else regWrite s r .top Reg.TOP_RESET false (fun s => s.topResetWrite value)

/-- The release, at an alignment boundary (every 40 timebase cycles, R403) at least 200 cycles after the reset was raised,
with every domain back at source 0 (R410). Every partition then waits for its check key (R320). -/
def execModuleResetRelease (s : State) : Host.Outcome State Fault Refusal :=
  if !s.pwr.ok ∨ s.clk.phase ≠ .running ∨ !s.clk.inReset then notEnabled "no Module reset is in force"
  else if s.ticks < s.clk.resetAt + 200 ∨ s.ticks % 40 ≠ 0 then notEnabled "the release condition is not met"
  else if !s.clk.doms.isEmpty then notEnabled "a domain has not returned to source 0"
  else
    let s1 : State := { s with clk := { s.clk with inReset := false, rstN := true, releasedAt := s.ticks } }
    .next ((List.range s1.layout).foldl (fun s p => s.setPart p { s.part p with resetting := true }) s1)

/-! Domain switches (R407 to R410). -/

def State.dom (s : State) (i : Nat) : Domain := SMap.get {} s.clk.doms i
def State.setDom (s : State) (i : Nat) (d : Domain) : State :=
  { s with clk := { s.clk with doms := SMap.set {} s.clk.doms i d } }

/-- Whether every context of the partitions that hold a die is FREE, and its pinnae and engines are idle (R408). -/
def State.dieIdle (s : State) (die : Nat) : Bool :=
  let parts := [s.partOfQuarter (2 * die), s.partOfQuarter (2 * die + 1)]
  s.ctxs.all (fun c => !parts.contains (c.1 / 8) || c.2.state == .free)
    && s.pinnae.all (fun p => p.1 / 384 != die || (p.2.launch.isNone && !p.2.zeroing))
    && (List.range 16).all (fun f => (List.range 4).all (fun k =>
      let g := (s.frond (16 * die + f)).engine k
      g.running.isNone && g.queue.isEmpty))

/-- A write of `CLK_DOM_i`. -/
def State.domWrite (s : State) (i value : Nat) : State :=
  let d := s.dom i
  let src := bit value 0
  let store (s : State) : State := s.setFld .clk (Reg.CLK_DOM + 4 * i) 0 0 (if src then 1 else 0)
  if src = d.cur ∧ d.phase = .none then store s
  else if src ∧ !s.dieIdle (i % 2) then s.raise .clk 0xB002 i 1
  else if d.phase ≠ .none then s.raise .clk 0xB002 i 2
  else (store s).setDom i { d with target := src, phase := .stopping, since := s.ticks + 20 }

def execDomainSwitchRequest (r : Requester) (i value : Nat) (s : State) : Host.Outcome State Fault Refusal :=
  if ¬ i < 4 then .fault .noSuchUnit
  else if bit value 0 = (s.dom i).cur then notEnabled "the write does not differ from cur"
  else regWrite s r .clk (Reg.CLK_DOM + 4 * i) true (fun s => s.domWrite i value)

/-- Boundary B: an alignment boundary (every 40 ticks, R403), at least 640 root cycles (20 ticks) after the write, or any
within a Module reset (R409, R410). -/
def execDomainSwitchBoundary (i : Nat) (s : State) : Host.Outcome State Fault Refusal :=
  if ¬ i < 4 then .fault .noSuchUnit
  else if s.clk.phase ≠ .running ∨ (s.dom i).phase ≠ .stopping then notEnabled "no switch waits for its boundary"
  else if s.ticks < (s.dom i).since ∨ s.ticks % 40 ≠ 0 then notEnabled "no boundary B is reached"
  else .next (s.setDom i { s.dom i with phase := .restarting, since := s.ticks })

/-- Ticks from B to the tick in which the first edge of the new source falls, 33 of its periods after B (R409). -/
def restartTicks (i : Nat) (parked : Bool) : Nat := 33 * (if parked then 256 else if i < 2 then 4 else 8) / 32

/-- The first edge of the new source, 33 periods after B. A return under a Module reset leaves the `CLK` page at its reset values. -/
def execDomainSwitched (i : Nat) (s : State) : Host.Outcome State Fault Refusal :=
  if ¬ i < 4 then .fault .noSuchUnit
  else if s.clk.phase ≠ .running ∨ (s.dom i).phase ≠ .restarting then notEnabled "no switch is completing"
  else if s.ticks < (s.dom i).since + restartTicks i (s.dom i).target then notEnabled "the edges are suppressed"
  else
    let d := s.dom i
    let s1 := s.setDom i { cur := d.target, target := d.target }
    .next (if s.clk.inReset then s1 else (s1.bump .clk 0x068).raise .clk 0xB001 i (if d.target then 1 else 0))

/-- Whether a die's pinna domain is parked (R408). -/
def State.parked (s : State) (die : Nat) : Bool := (s.dom die).cur

/-! The timebase (R416 to R422). -/

/-- Units of 2^−40 ns in the timebase. -/
def Timebase.units (t : Timebase) : Nat := t.ns * 2 ^ 40 + t.frac

def Timebase.ofUnits (t : Timebase) (u : Nat) : Timebase := { t with ns := u / 2 ^ 40 % 2 ^ 64, frac := u % 2 ^ 40 }

/-- The slew step of a cycle, in 2^−24 ns, with the sign of what is left (R417). -/
def slewStep (left : Int) (step : Nat) : Int :=
  if 0 ≤ left then min left (step : Int) else max left (-(step : Int))

/-- Whether an output is driven (R420). -/
def State.ppsOn (s : State) : Bool := s.tmb.valid && s.fld .tmb Reg.TMB_OUT_CTL 0 0 == 1
def State.refOn (s : State) : Bool := s.tmb.valid && s.fld .tmb Reg.TMB_OUT_CTL 1 1 == 1

/-- A pulse one cycle older: 1 means that it is due to fall. -/
def ageing (n : Nat) : Nat := if n ≤ 1 then n else n - 1

/-- The timebase one cycle on. -/
def State.tmbTick (s : State) : State :=
  let t := s.tmb
  let step := slewStep t.left (s.fld .tmb Reg.TMB_SLEW_CTL 15 0)
  let inc : Int := 5 * 2 ^ 40 + signed 32 (s.word .tmb Reg.TMB_RATE) + step * 2 ^ 16
  let t1 := t.ofUnits (t.units + inc.toNat)
  let t2 : Timebase :=
    { t1 with left := t.left - step, setIn := t.setIn.map (· - 1), ppsHigh := ageing t.ppsHigh, refHigh := ageing t.refHigh,
              ppsDue := t.ppsDue || (s.ppsOn && t1.ns / 10 ^ 9 != t.ns / 10 ^ 9),
              refDue := t.refDue || (s.refOn && t1.ns / 100 != t.ns / 100) }
  let s1 : State := { s with tmb := t2 }
  if t.left ≠ 0 ∧ t2.left = 0 then s1.raise .tmb 0xB005 (t2.ns % 2 ^ 32) 0 else s1

/-- The waits of a tick at the banks of the scratchpads (R121): of each pinna whose arrays, vector engine or frond's DMA
engines are at work, a free number is counted (log entry 104). -/
def State.bankTick (s : State) : State :=
  s.pinnae.foldl (fun t x =>
    if x.2.queue.isEmpty && !(s.frond (frondOfPinna x.1)).engines.any (fun e => e.2.running.isSome) then t
    else t.bump (pnaPage x.1) Reg.PNA_BANK_STALL (Config.bankWaits x.1 s.ticks s.freeCtr)) s

/-- One edge of the 200 MHz domain. During a Module reset the timebase stays at 0 (R422). -/
def execTimebaseTick (s : State) : Host.Outcome State Fault Refusal :=
  if !s.pwr.ok ∨ s.clk.phase ≠ .running then notEnabled "the timebase domain does not run"
  else if s.tmb.setIn = some 0 then notEnabled "a set takes effect first"
  else
    let s1 : State := { s with ticks := s.ticks + 1 }
    .next (if s.clk.inReset then s1 else s1.tmbTick.sweepTick.bankTick)

/-- A write of `TMB_SET_CTL`: the fraction, and a set 64 cycles later (R418). -/
def State.setCtlWrite (s : State) (value : Nat) : State :=
  let s1 := s.setFld .tmb Reg.TMB_SET_CTL 15 0 value
  if bit value 16 then
    { s1.setFld .tmb Reg.TMB_SET_CTL 16 16 1 with tmb := { s1.tmb with setIn := some 64 } }
  else s1

def execTmbSetGo (r : Requester) (value : Nat) (s : State) : Host.Outcome State Fault Refusal :=
  if !bit value 16 then notEnabled "the write does not set go"
  else regWrite s r .tmb Reg.TMB_SET_CTL true (fun s => s.setCtlWrite value)

/-- A signed number of nanoseconds saturated to 32 bits. -/
def satNs (v : Int) : Nat := ofSigned 32 (max (-(2 ^ 31 : Int)) (min v (2 ^ 31 - 1)))

/-- The timebase set to a number of units, with its event. -/
def State.setTime (s : State) (ns frac16 : Nat) : State :=
  let t := s.tmb
  let t1 : Timebase :=
    { t with ns := ns % 2 ^ 64, frac := frac16 % 2 ^ 16 * 2 ^ 24, left := 0, valid := true, setIn := none, ppsDue := false,
             refDue := false }
  let s1 := ({ s with tmb := t1 } : State).setFld .tmb Reg.TMB_SET_CTL 16 16 0
  s1.raise .tmb 0xB004 (ns % 2 ^ 32) (satNs ((ns : Int) - t.ns))

def execTimeSet (s : State) : Host.Outcome State Fault Refusal :=
  if s.clk.inReset ∨ s.tmb.setIn ≠ some 0 then notEnabled "no set is due"
  else .next (s.setTime (s.words .tmb Reg.TMB_SET_LO 2) (s.fld .tmb Reg.TMB_SET_CTL 15 0))

/-- A write of `TMB_SLEW` replaces any remainder; one of 0 brings a remainder to zero (R417, log entry 76). -/
def State.slewWrite (s : State) (value : Nat) : State :=
  let s1 : State :=
    { s.setWord .tmb Reg.TMB_SLEW (value % 2 ^ 32) with tmb := { s.tmb with left := signed 32 value * 256 } }
  if s.tmb.left ≠ 0 ∧ s1.tmb.left = 0 then s1.raise .tmb 0xB005 (s.tmb.ns % 2 ^ 32) 0 else s1

def execTmbSlewWrite (r : Requester) (value : Nat) (s : State) : Host.Outcome State Fault Refusal :=
  regWrite s r .tmb Reg.TMB_SLEW true (fun s => s.slewWrite value)

/-! Latches (R424). -/

/-- The latch of a reader; Thallus has none. -/
def latchOf : Requester → Option Nat
  | .host x fn _ => some (64 * x + fn)
  | .mc => some 128
  | .thallus => none

/-- The fraction that `TMB_FRAC` shows. -/
def Timebase.frac16 (t : Timebase) : Nat := t.frac / 2 ^ 24

/-- A read of `TMB_NS_LO`, of 4 or 8 bytes. -/
def State.readNs (s : State) (r : Requester) (len : Nat) : State × Nat :=
  let t := s.tmb
  let s1 : State := match latchOf r with
    | none => s
    | some k =>
      let t1 := { t with latchFrac := SMap.set none t.latchFrac k (some t.frac16) }
      { s with tmb := if len = 8 then t1 else { t1 with latchHi := SMap.set none t.latchHi k (some (t.ns / 2 ^ 32)) } }
  (s1, if len = 8 then t.ns else t.ns % 2 ^ 32)

def execTmbNsLoRead (r : Requester) (len : Nat) (s : State) : Host.Outcome State Fault Refusal :=
  if ¬ (len = 4 ∨ len = 8) then notEnabled "the read is of another size"
  else regRead s r .tmb Reg.TMB_NS_LO len (fun s => s.readNs r len)

/-- A read of `TMB_NS_HI`, or of `TMB_FRAC`: the latched part, which it empties, or the live value. -/
def State.readLatched (s : State) (r : Requester) (frac : Bool) : State × Nat :=
  let t := s.tmb
  match latchOf r with
  | none => (s, if frac then t.frac16 else t.ns / 2 ^ 32)
  | some k =>
    if frac then
      ({ s with tmb := { t with latchFrac := SMap.set none t.latchFrac k none } }, (SMap.get none t.latchFrac k).getD t.frac16)
    else
      ({ s with tmb := { t with latchHi := SMap.set none t.latchHi k none } }, (SMap.get none t.latchHi k).getD (t.ns / 2 ^ 32))

def execTmbLatchedRead (r : Requester) (frac : Bool) (s : State) : Host.Outcome State Fault Refusal :=
  regRead s r .tmb (if frac then Reg.TMB_FRAC else Reg.TMB_NS_HI) 4 (fun s => s.readLatched r frac)

/-! Outputs (R420). -/

/-- A rising or a falling edge of `PPS_OUT`. -/
def execPpsEdge (s : State) : Host.Outcome State Fault Refusal :=
  if s.clk.inReset ∨ !s.ppsOn then notEnabled "PPS_OUT is not driven"
  else if s.tmb.ppsDue then
    .next { s with tmb := { s.tmb with ppsDue := false, ppsHigh := s.fld .tmb Reg.TMB_OUT_CTL 12 4 * msTicks + 1 } }
  else if s.tmb.ppsHigh = 1 then .next { s with tmb := { s.tmb with ppsHigh := 0 } }
  else notEnabled "no edge is due"

/-- A rising or a falling edge of `REF10M_OUT`: high for 50 ns. -/
def execRef10mEdge (s : State) : Host.Outcome State Fault Refusal :=
  if s.clk.inReset ∨ !s.refOn then notEnabled "REF10M_OUT is not driven"
  else if s.tmb.refDue then .next { s with tmb := { s.tmb with refDue := false, refHigh := 11 } }
  else if s.tmb.refHigh = 1 then .next { s with tmb := { s.tmb with refHigh := 0 } }
  else notEnabled "no edge is due"

/-- A write of `TMB_OUT_CTL`: an output that is no longer enabled goes low; a width outside [1, 500] is not written. -/
def State.outCtlWrite (s : State) (value : Nat) : State :=
  let w := bits value 12 4
  let s1 := s.setFld .tmb Reg.TMB_OUT_CTL 1 0 value
  let s2 := if 1 ≤ w ∧ w ≤ 500 then s1.setFld .tmb Reg.TMB_OUT_CTL 12 4 w else s1
  let t := s2.tmb
  { s2 with tmb := { t with ppsHigh := if bit value 0 then t.ppsHigh else 0, ppsDue := bit value 0 && t.ppsDue,
                            refHigh := if bit value 1 then t.refHigh else 0, refDue := bit value 1 && t.refDue } }

/-- A PTM Request: stamped at its arrival and answered 40 ns later (R385, R421). -/
def execPtmRequest (x : Nat) (s : State) : Host.Outcome State Fault Refusal :=
  if ¬ x < 2 then .fault .noSuchUnit
  else if s.clk.inReset ∨ !(s.port x).linkUp then notEnabled "the port's link is down"
  else .next (s.emit (.ptm x (leBytes 8 s.tmb.ns ++ leBytes 4 40)))

end Sys2Proof.Machine
end

