-- ==== Sys2Proof/Machine/EstFold.lean ====
section
/-!
DEFINITION. When a slot of the scale estimator folds (08_training_numerics.md, R173).
-/
namespace Sys2Proof.Machine

/-- The engines of a partition's fronds whose running descriptors name slot `n`, with those descriptors. -/
def State.estRuns (s : State) (p n : Nat) : List (EngineId × QDesc) :=
  ((List.range 32).filter (fun f => s.partOfQuarter (quarterOfFrond f) == p)).flatMap (fun f =>
    (List.range 4).filterMap (fun k => match (s.engine (.frond f k)).running with
      | some q =>
        let d := Desc.ofBytes q.bytes
        if d.ssrc = 1 ∧ d.sarg % 64 = n ∧ q.ctx / 8 = p then some (EngineId.frond f k, q) else none
      | none => none))

/-- Whether a running descriptor waits for slot `n` to record `seed` (R173). -/
def State.estWaits (s : State) (p n : Nat) (seed : BitVec 64) : Bool :=
  (s.estRuns p n).any (fun x => x.2.seed == seed && (s.engine x.1).held.isNone)

/-- Whether a conversion under the slot's code and a seed is in progress (R173). -/
def State.estBusy (s : State) (p n seed : Nat) : Bool :=
  (s.estRuns p n).any (fun x => x.2.seed.toNat == seed && (s.engine x.1).held.isSome)

/-- The code in force handed to the descriptors that wait for it (R173). -/
def State.estHand (s : State) (p n : Nat) (seed : BitVec 64) : State :=
  (s.estRuns p n).foldl (fun t x =>
    if x.2.seed = seed ∧ (s.engine x.1).held = none then
      t.setEngine x.1 { t.engine x.1 with held := s.estTake x.2 (Desc.ofBytes x.2.bytes) }
    else t) s

/-- Whether a `GCLOSE` at the head of an array's queue, in partition `p`, will convert under slot `n` and `seed` (R75, R173). -/
def State.estCloses (s : State) (p n : Nat) (seed : BitVec 64) : Bool :=
  s.pinnae.any (fun x => s.partOfQuarter (quarterOfPinna x.1) == p && (match x.2.launch with
    | some l => l.seed == seed && (List.range 4).any (fun arr => match x.2.queue.find? (QEntry.ofArray arr) with
      | some q => fOp q.word.toNat == 0x49 && !x.2.inTree arr && (gcFields q.word.toNat).slot == n && s.closeWaits x.1 q l
      | none => false)
    | none => false))

/-- Steps 1 to 3 of R173: while conversions under the old seed are in progress the fold waits and reports 0x1107 once;
then the slot folds, if it held a seed, and records the new one. -/
def execEstFold (p slot : Nat) (seed : BitVec 64) (s : State) : Host.Outcome State Fault Refusal :=
  if ¬ (p < 4 ∧ 1 ≤ slot ∧ slot ≤ 63) then .fault .noSuchUnit
  else if s.estSeeded p slot seed then notEnabled "the slot already holds this seed"
  else if !(s.estWaits p slot seed || s.estCloses p slot seed) then
    notEnabled "no conversion waits for this fold"
  else
    let valid := s.estFld p slot 57 57 == 1
    let old := s.estFld p slot 255 192
    let busy := valid && s.estBusy p slot old
    let noted := SMap.get false s.estWait (64 * p + slot)
    if busy then
      if noted then notEnabled "conversions of the old step are still in progress"
      else .next (({ s with estWait := SMap.set false s.estWait (64 * p + slot) true } : State).raise (.est p) 0x1107 slot 0)
    else
      let s1 := if valid then s.estFold p slot else s
      let s2 := (s1.setEst p slot 255 192 seed.toNat).setEst p slot 57 57 1
      .next (({ s2 with estWait := SMap.set false s2.estWait (64 * p + slot) false } : State).estHand p slot seed)

end Sys2Proof.Machine
end

