-- ==== Sys2Proof/Machine/MlKem.lean ====
section
/-!
DEFINITION. ML-KEM-1024 (FIPS 203) and the Keccak functions that it uses (FIPS 202) (11_lumur_fabric.md, R266).
-/
namespace Sys2Proof.Machine

/-! Keccak-f[1600] on 25 lanes. -/

/-- The round constants. -/
def keccakRC : List (BitVec 64) :=
  [0x0000000000000001#64, 0x0000000000008082#64, 0x800000000000808A#64, 0x8000000080008000#64,
   0x000000000000808B#64, 0x0000000080000001#64, 0x8000000080008081#64, 0x8000000000008009#64] ++
  [0x000000000000008A#64, 0x0000000000000088#64, 0x0000000080008009#64, 0x000000008000000A#64,
   0x000000008000808B#64, 0x800000000000008B#64, 0x8000000000008089#64, 0x8000000000008003#64] ++
  [0x8000000000008002#64, 0x8000000000000080#64, 0x000000000000800A#64, 0x800000008000000A#64,
   0x8000000080008081#64, 0x8000000000008080#64, 0x0000000080000001#64, 0x8000000080008008#64]

/-- The rotation of lane x + 5y. -/
def keccakRot : List Nat :=
  [0, 1, 62, 28, 27, 36, 44, 6, 55, 20, 3, 10, 43] ++ [25, 39, 41, 45, 15, 21, 8, 18, 2, 61, 56, 14]

def keccakRound (a : List (BitVec 64)) (rc : BitVec 64) : List (BitVec 64) :=
  let at_ (s : List (BitVec 64)) (x y : Nat) : BitVec 64 := s.getD (x % 5 + 5 * (y % 5)) 0
  let c := (List.range 5).map (fun x => at_ a x 0 ^^^ at_ a x 1 ^^^ at_ a x 2 ^^^ at_ a x 3 ^^^ at_ a x 4)
  let d := (List.range 5).map (fun x => c.getD ((x + 4) % 5) 0 ^^^ (c.getD ((x + 1) % 5) 0).rotateLeft 1)
  let t := (List.range 25).map (fun i => (a.getD i 0 ^^^ d.getD (i % 5) 0).rotateLeft (keccakRot.getD i 0))
  -- lane (x, y) goes to (y, 2x + 3y): place (X, Y) takes it from (X + 3Y, X)
  let b := (List.range 25).map (fun i => at_ t (i % 5 + 3 * (i / 5)) (i % 5))
  (List.range 25).map (fun i =>
    let v := at_ b (i % 5) (i / 5) ^^^ (~~~(at_ b (i % 5 + 1) (i / 5)) &&& at_ b (i % 5 + 2) (i / 5))
    if i = 0 then v ^^^ rc else v)

def keccakF (a : List (BitVec 64)) : List (BitVec 64) := keccakRC.foldl keccakRound a

/-- Blocks of `rate` bytes absorbed. -/
def keccakAbsorb (rate : Nat) : Nat → List (BitVec 64) → List Byte → List (BitVec 64)
  | 0, a, _ => a
  | n + 1, a, m =>
    let w := (List.range 25).map (fun i => if 8 * i < rate then BitVec.ofNat 64 (leNat (slice m (8 * i) 8)) else 0)
    keccakAbsorb rate n (keccakF (List.zipWith (· ^^^ ·) a w)) (m.drop rate)

/-- Blocks squeezed. -/
def keccakSqueeze (rate : Nat) : Nat → List (BitVec 64) → List Byte
  | 0, _ => []
  | n + 1, a => (a.flatMap (fun w => leBytes 8 w.toNat)).take rate ++ keccakSqueeze rate n (keccakF a)

/-- The sponge with a domain byte, to `len` bytes. -/
def keccak (rate : Nat) (dom : Byte) (m : List Byte) (len : Nat) : List Byte :=
  let pad := rate - m.length % rate
  let tail := if pad = 1 then [dom ^^^ 0x80#8] else [dom] ++ List.replicate (pad - 2) 0#8 ++ [0x80#8]
  let all := m ++ tail
  (keccakSqueeze rate (ceilDiv len rate) (keccakAbsorb rate (all.length / rate) (List.replicate 25 0) all)).take len

def sha3_256 (m : List Byte) : List Byte := keccak 136 0x06#8 m 32
def sha3_512 (m : List Byte) : List Byte := keccak 72 0x06#8 m 64
def shake128 (m : List Byte) (len : Nat) : List Byte := keccak 168 0x1F#8 m len
def shake256 (m : List Byte) (len : Nat) : List Byte := keccak 136 0x1F#8 m len

/-! Polynomials of 256 coefficients modulo q = 3,329. -/

def kemQ : Nat := 3329

/-- The number of rows of ML-KEM-1024, and the compression of u and v. -/
def kemK : Nat := 4
def kemDu : Nat := 11
def kemDv : Nat := 5

def polyAdd (a b : List Nat) : List Nat := List.zipWith (fun x y => (x + y) % kemQ) a b
def polySub (a b : List Nat) : List Nat := List.zipWith (fun x y => (x + kemQ - y) % kemQ) a b

/-- The seven bits of a number reversed. -/
def rev7 (i : Nat) : Nat := ((List.range 7).map (fun k => if bit i k then 2 ^ (6 - k) else 0)).sum

/-- ζ^e for ζ = 17, whose order is 256. -/
def zetaPow (e : Nat) : Nat := powMod 17 kemQ 8 (e % 256)

/-- The values of a polynomial modulo the quadratic factors X² − ζ^(2 rev7(i) + 1). -/
def ntt (f : List Nat) : List Nat :=
  (List.range 256).map (fun t =>
    let g := 2 * rev7 (t / 2) + 1
    ((List.range 128).map (fun j => f.getD (2 * j + t % 2) 0 * zetaPow (g * j))).sum % kemQ)

/-- The polynomial with given values: 3,303 is the inverse of 128. -/
def nttInv (f : List Nat) : List Nat :=
  (List.range 256).map (fun t =>
    let j := t / 2
    ((List.range 128).map (fun i => f.getD (2 * i + t % 2) 0 * zetaPow (256 * 256 - (2 * rev7 i + 1) * j))).sum
      % kemQ * 3303 % kemQ)

/-- The product in the NTT domain. -/
def nttMul (a b : List Nat) : List Nat :=
  (List.range 256).map (fun t =>
    let i := t / 2
    let a0 := a.getD (2 * i) 0
    let a1 := a.getD (2 * i + 1) 0
    let b0 := b.getD (2 * i) 0
    let b1 := b.getD (2 * i + 1) 0
    if t % 2 = 0 then (a0 * b0 + a1 * b1 * zetaPow (2 * rev7 i + 1)) % kemQ else (a0 * b1 + a1 * b0) % kemQ)

def zeroPoly : List Nat := List.replicate 256 0

/-- The sum of products of two vectors in the NTT domain. -/
def nttDot (a b : List (List Nat)) : List Nat := (List.zipWith nttMul a b).foldl polyAdd zeroPoly

/-! Encodings and sampling. -/

/-- 256 numbers of `d` bits packed into bytes. -/
def kemEncode (d : Nat) (f : List Nat) : List Byte :=
  leBytes (32 * d) ((f.zipIdx.map (fun x => x.1 % 2 ^ d * 2 ^ (d * x.2))).sum)

def kemDecode (d : Nat) (bs : List Byte) : List Nat :=
  let v := leNat bs
  (List.range 256).map (fun i => (v >>> (d * i)) % 2 ^ d % (if d = 12 then kemQ else 2 ^ d))

def compress (d x : Nat) : Nat := (x * 2 ^ d * 2 + kemQ) / (2 * kemQ) % 2 ^ d
def decompress (d x : Nat) : Nat := (x * kemQ * 2 + 2 ^ d) / 2 ^ (d + 1)

/-- The numbers below q among the 12-bit pieces of a stream. -/
def rejectSample (bs : List Byte) : List Nat :=
  (((List.range (bs.length / 3)).flatMap (fun i =>
    let v := leNat (slice bs (3 * i) 3)
    [v % 4096, v / 4096])).filter (fun x => decide (x < kemQ))).take 256

/-- A uniform polynomial in the NTT domain: enough of the stream is read that it holds 256 numbers below q; `fuel` bounds
the doublings. -/
def sampleNtt (seed : List Byte) : Nat → Nat → List Nat
  | 0, n => rejectSample (shake128 seed n)
  | fuel + 1, n =>
    let f := rejectSample (shake128 seed n)
    if f.length = 256 then f else sampleNtt seed fuel (2 * n)

/-- A polynomial of the centred binomial distribution with η = 2. -/
def sampleCbd (seed : List Byte) (n : Nat) : List Nat :=
  let v := leNat (shake256 (seed ++ [BitVec.ofNat 8 n]) 128)
  let b (i : Nat) : Nat := if bit v i then 1 else 0
  (List.range 256).map (fun i => (b (4 * i) + b (4 * i + 1) + kemQ - b (4 * i + 2) - b (4 * i + 3)) % kemQ)

/-- Entry of row `i` and column `j` of the matrix of a seed. -/
def kemEntry (rho : List Byte) (i j : Nat) : List Nat := sampleNtt (rho ++ [BitVec.ofNat 8 j, BitVec.ofNat 8 i]) 8 840

/-! K-PKE. -/

/-- The encryption key and the decryption key of a seed. -/
def pkeKeys (d : List Byte) : List Byte × List Byte :=
  let g := sha3_512 (d ++ [BitVec.ofNat 8 kemK])
  let rho := g.take 32
  let sigma := g.drop 32
  let s := (List.range kemK).map (fun n => ntt (sampleCbd sigma n))
  let e := (List.range kemK).map (fun n => ntt (sampleCbd sigma (kemK + n)))
  let t := (List.range kemK).map (fun i =>
    polyAdd (nttDot ((List.range kemK).map (kemEntry rho i)) s) (e.getD i zeroPoly))
  (t.flatMap (kemEncode 12) ++ rho, s.flatMap (kemEncode 12))

def pkeEncrypt (ek m r : List Byte) : List Byte :=
  let t := (List.range kemK).map (fun i => kemDecode 12 (slice ek (384 * i) 384))
  let rho := slice ek (384 * kemK) 32
  let y := (List.range kemK).map (fun n => ntt (sampleCbd r n))
  let u := (List.range kemK).map (fun i =>
    polyAdd (nttInv (nttDot ((List.range kemK).map (fun j => kemEntry rho j i)) y)) (sampleCbd r (kemK + i)))
  let mu := (kemDecode 1 m).map (decompress 1)
  let v := polyAdd (polyAdd (nttInv (nttDot t y)) (sampleCbd r (2 * kemK))) mu
  u.flatMap (fun f => kemEncode kemDu (f.map (compress kemDu))) ++ kemEncode kemDv (v.map (compress kemDv))

def pkeDecrypt (dk c : List Byte) : List Byte :=
  let u := (List.range kemK).map (fun i => (kemDecode kemDu (slice c (32 * kemDu * i) (32 * kemDu))).map (decompress kemDu))
  let v := (kemDecode kemDv (slice c (32 * kemDu * kemK) (32 * kemDv))).map (decompress kemDv)
  let s := (List.range kemK).map (fun i => kemDecode 12 (slice dk (384 * i) 384))
  kemEncode 1 ((polySub v (nttInv (nttDot s (u.map ntt)))).map (compress 1))

/-! ML-KEM. -/

/-- Bytes of an encapsulation key and of a ciphertext. -/
def kemKeyLen : Nat := 1568
def kemCipherLen : Nat := 1568

/-- The encapsulation key of the seeds d and z. -/
def kemPublic (d : List Byte) : List Byte := (pkeKeys d).1

/-- Whether an encapsulation key has its length and holds numbers below q (FIPS 203, 7.2). -/
def kemKeyOk (ek : List Byte) : Bool :=
  ek.length == kemKeyLen && (List.range kemK).all (fun i =>
    kemEncode 12 (kemDecode 12 (slice ek (384 * i) 384)) == slice ek (384 * i) 384)

/-- The ciphertext and the shared secret of a key and 32 random bytes. -/
def kemEncaps (ek m : List Byte) : List Byte × List Byte :=
  let g := sha3_512 (m ++ sha3_256 ek)
  (pkeEncrypt ek m (g.drop 32), g.take 32)

/-- The shared secret that a ciphertext carries under the key of the seeds d and z. -/
def kemDecaps (d z c : List Byte) : List Byte :=
  let keys := pkeKeys d
  let m := pkeDecrypt keys.2 c
  let g := sha3_512 (m ++ sha3_256 keys.1)
  if pkeEncrypt keys.1 m (g.drop 32) = c then g.take 32 else shake256 (z ++ c) 32

end Sys2Proof.Machine
end

