-- ==== Sys2Proof/Machine/P384.lean ====
section
/-!
DEFINITION. ECDHE on P-384 (SP 800-56A, SP 800-186), as SPDM exchanges it (11_lumur_fabric.md, R266; 15_host_interface.md,
R384).
-/
namespace Sys2Proof.Machine

def p384P : Nat := 2 ^ 384 - 2 ^ 128 - 2 ^ 96 + 2 ^ 32 - 1
def p384B : Nat := 0xb3312fa7e23ee7e4988e056be3f82d19181d9c6efe8141120314088f5013875ac656398d8a2ed19d2a85c8edd3ec2aef
def p384N : Nat := 0xffffffffffffffffffffffffffffffffffffffffffffffffc7634d81f4372ddf581a0db248b0a77aecec196accc52973
def p384G : Nat × Nat :=
  (0xaa87ca22be8b05378eb1c71ef320ad746e1d3b628ba79b9859f741e082542a385502f25dbf55296c3a545e3872760ab7,
   0x3617de4a96262c6f5d9e98bf9292dc29f8f41dbd289a147ce9da3113b5f0b8c00a60b1ce1d7e819d7a431d7c90ea0e5f)

/-- The inverse of a field element. -/
def p384Inv (a : Nat) : Nat := powMod a p384P 384 (p384P - 2)

/-- The difference of field elements. -/
def p384Sub (a b : Nat) : Nat := (a + p384P - b % p384P) % p384P

/-- The third point of a line of slope `m` through a point of abscissa `x1` and a point `(x2, y2)`, mirrored. -/
def p384Third (m x1 : Nat) (q : Nat × Nat) : Nat × Nat :=
  let x := p384Sub (p384Sub (m * m % p384P) x1) q.1
  (x, p384Sub (m * p384Sub q.1 x) q.2)

/-- The sum of two points; none is the point at infinity. -/
def p384Add : Option (Nat × Nat) → Option (Nat × Nat) → Option (Nat × Nat)
  | none, q => q
  | p, none => p
  | some p, some q =>
    if p.1 ≠ q.1 then some (p384Third (p384Sub p.2 q.2 * p384Inv (p384Sub p.1 q.1) % p384P) p.1 q)
    else if (p.2 + q.2) % p384P = 0 then none
    else some (p384Third ((3 * p.1 * p.1 + p384P - 3) * p384Inv (2 * p.2 % p384P) % p384P) p.1 q)

/-- A multiple of a point, over the `n` low bits of the scalar. -/
def p384Mul (p : Option (Nat × Nat)) : Nat → Nat → Option (Nat × Nat)
  | 0, _ => none
  | n + 1, k =>
    let r := p384Mul p n (k / 2)
    let d := p384Add r r
    if k % 2 = 1 then p384Add d p else d

/-- The private key that random bytes give, in [1, n − 1]. -/
def ecdhSecret (rand : List Byte) : Nat := beNat rand % (p384N - 1) + 1

/-- The public value of a private key: both coordinates. -/
def ecdhPublic (d : Nat) : List Byte :=
  match p384Mul (some p384G) 384 d with
  | some q => beBytes 48 q.1 ++ beBytes 48 q.2
  | none => leBytes 96 0

/-- Whether a public value is a point of the curve. -/
def ecdhValid (pub : List Byte) : Bool :=
  let x := beNat (slice pub 0 48)
  let y := beNat (slice pub 48 48)
  pub.length == 96 && decide (x < p384P) && decide (y < p384P)
    && y * y % p384P == (x * x * x + (p384P - 3) * x + p384B) % p384P

/-- The shared secret of a private key and a public value: the abscissa of their product. -/
def ecdhShared (d : Nat) (pub : List Byte) : List Byte :=
  match p384Mul (some (beNat (slice pub 0 48), beNat (slice pub 48 48))) 384 d with
  | some q => beBytes 48 q.1
  | none => leBytes 48 0

end Sys2Proof.Machine
end

