-- ==== Sys2Proof/Machine/Tenancy.lean ====
section
/-!
DEFINITION. Requests of the partition pages: contexts, joint policies, regions, slot bindings, grants and teardowns
(12_memory_protection.md, R286, R287, R291 to R293; 14_tenancy.md, R353, R362, R363, R369).
-/
namespace Sys2Proof.Machine

/-! The request registers (R353, R371). -/

/-- `PRT_REQ_CTL.go`: the request joins Thallus's queue, unless the page has one outstanding or the queue is full (R316).
-/
def State.reqGo (s : State) (p : Nat) : State :=
  if s.thl.queue.contains (.tenancy p) ∨ (s.part p).reqBusy then s.thlBusy (.tenancy p)
  else if 64 ≤ s.thl.queue.length then (s.thlBusy (.tenancy p)).reqDone p 0x9011 0
  else (s.thlArrive (.tenancy p)).setFld (.prt p) Reg.PRT_REQ_CTL 0 0 1

/-- Whether every byte that `used` does not list is 0 (R353). -/
def restZero (bs : List Byte) (used : List (Nat × Nat)) : Bool :=
  bs.zipIdx.all (fun x => x.1 == 0#8 || used.any (fun u => decide (u.1 ≤ x.2) && decide (x.2 ≤ u.2)))

/-- The context that a request names. -/
def reqCtx (p : Nat) (bs : List Byte) : Nat := 8 * p + byteAt bs 1

/-- Thallus takes the request of a page: go clears, and the request is in service. -/
def State.reqTake (s : State) (p : Nat) : State :=
  let s1 := s.thlTake (.tenancy p)
  (s1.setPart p { s1.part p with reqBusy := true }).setFld (.prt p) Reg.PRT_REQ_CTL 0 0 0

/-- The meaning of a tenancy request: it stands at the head of Thallus's queue and its operation satisfies `q`. -/
def tenancyOp (s : State) (p : Nat) (q : Nat → Bool) (eff : State → List Byte → State) : Host.Outcome State Fault Refusal :=
  if ¬ p < 4 then .fault .noSuchUnit
  else if !s.thlServes then notEnabled "Thallus serves no request now"
  else if s.thl.queue.head? ≠ some (.tenancy p) then notEnabled "the page's request is not at the head of the queue"
  else if !q (byteAt (s.reqBlock p) 0) then notEnabled "the request is another operation"
  else .next (eff (s.reqTake p) (s.reqBlock p))

/-! Contexts (R352, R353). -/

/-- Whether the module's role lets it take contexts (R277). -/
def State.takesContexts (s : State) : Bool := s.role == 2 || s.role == 3

/-- Whether a die of the partition is parked (R408). -/
def State.dieParked (s : State) (p : Nat) : Bool :=
  (List.range 4).any (fun q => s.partOfQuarter q == p && s.parked (q / 2))

/-- A context created; its meter record is written first (R438). -/
def State.ctxOpen (s : State) (c : Nat) (digest : List Byte) (x : Context) : State :=
  let s1 := s.meterOpen c (if x.joint then 2 else 1) digest
  s1.setCtx c { x with state := .active, t0 := s1.tmb.ns, resetting := (s1.ctx c).resetting, capture := (s1.ctx c).capture }

/-- CTX_CREATE; a request whose operation no row of R353 names is refused here. -/
def State.ctxCreate (s : State) (p : Nat) (bs : List Byte) : State :=
  let c := reqCtx p bs
  if byteAt bs 0 ≠ 1 then s.tenRefuse p (byteAt bs 0) 2
  else if 8 ≤ byteAt bs 1 ∨ 2 ≤ byteAt bs 2 ∨ !restZero bs [(0, 2), (16, 63)] then s.tenRefuse p 1 2
  else if (s.ctx c).state ≠ .free ∨ s.dieParked p ∨ !s.takesContexts then s.tenRefuse p 1 1
  else (s.ctxOpen c (bs.drop 16) { proth := bit (byteAt bs 2) 0, owners := [{ digest := bs.drop 16, key := none }] }).reqDone p 0 0

def execCtxCreate (p : Nat) (s : State) : Host.Outcome State Fault Refusal :=
  tenancyOp s p (fun op => op == 1 || op == 0 || decide (9 < op)) (fun s bs => s.ctxCreate p bs)

/-! Joint policies (R363). -/

/-- Counts of a policy document: owners, members, programs. -/
def polN (d : List Byte) : Nat := byteAt d 5
def polM (d : List Byte) : Nat := byteAt d 6
def polG (d : List Byte) : Nat := byteAt d 7

/-- Bytes before a document's blocks, without a release document's recipient. -/
def polSigned (d : List Byte) : Nat := 128 + 448 * polN d + 48 * (polM d + polG d)

/-- The keys of owner `j`. -/
def polOwner (d : List Byte) (j : Nat) : PubKey :=
  let b := d.drop (128 + 448 * j)
  { n := slice b 0 384, e := leNat (slice b 384 4), slh := slice b 388 48 }

/-- Digest `i` after the owner entries: members, then programs. -/
def polDigest (d : List Byte) (i : Nat) : List Byte := slice d (128 + 448 * polN d + 48 * i) 48

/-- The form of a document: magic, kind, counts, zero bytes, and its length with `extra` bytes and `blocks` blocks. -/
def polForm (d : List Byte) (kind extra blocks : Nat) : Bool :=
  slice d 0 4 == ascii "KFJP" && byteAt d 4 == kind
    && decide (1 ≤ polN d) && decide (polN d ≤ 8) && decide (1 ≤ polM d) && decide (polM d ≤ 64)
    && decide (1 ≤ polG d) && decide (polG d ≤ 64)
    && leNat (slice d 64 64) == 0 && (List.range (polN d)).all (fun j => leNat (slice d (128 + 448 * j + 436) 12) == 0)
    && d.length == polSigned d + extra + blockLen * blocks

/-- The hyperparameters of a document under R226, for the rule it names. -/
def polHyper (d : List Byte) : Bool :=
  let v (i : Nat) : Val := decodeElem .fp32 (leNat (slice d (12 + 4 * i) 4))
  let one : Val := .fin false 1 0
  let warm := leNat (slice d 40 4)
  let tend := leNat (slice d 44 4)
  decide (1 ≤ byteAt d 8) && decide (byteAt d 8 ≤ 4)
    && (v 0).notNeg && (v 1).notNeg && (v 2).notNeg && Val.cmp (v 2) one == .lt && (v 3).notNeg && Val.cmp (v 3) one == .lt
    && (!usesM2 (byteAt d 8) || ((v 4).notNeg && (v 4).asInt.1 != 0)) && (v 5).notNeg && (v 6).notNeg
    && (tend == 0 || decide (warm < tend))

/-- The block of owner `j` behind the signed bytes. -/
def polBlock (d : List Byte) (signed j : Nat) : List Byte := slice d (signed + blockLen * j) blockLen

/-- The first owner whose block fails over `signed` bytes. -/
def polBadOwner (d : List Byte) (signed : Nat) : Option Nat :=
  (List.range (polN d)).find? (fun j => !blockOk (polOwner d j) (0x40 + j) 5 (d.take signed) (polBlock d signed j))

/-- The first failing reason of R363 with the signer of the failing block, if one does. -/
def State.polBad (s : State) (d : List Byte) : Option (Nat × Option Nat) :=
  let signed := polSigned d
  if !polForm d 1 0 (polN d + 1) then some (1, none)
  else if !(List.range (polM d)).any (fun i => polDigest d i == s.deviceDigest) then some (2, none)
  else match polBadOwner d signed with
    | some j => some (3, some (0x40 + j))
    | none =>
      if !s.authBlock 5 5 (d.take signed) (polBlock d signed (polN d)) then some (4, some 5)
      else if !polHyper d then some (5, none)
      else none

/-- A policy as a context holds it. -/
def policyOf (d : List Byte) : Policy :=
  { digest := sha384 (d.take (polSigned d)), rule := byteAt d 8, hyper := slice d 12 36, period := leNat (slice d 48 8),
    window := leNat (slice d 56 8), members := (List.range (polM d)).map (polDigest d),
    programs := (List.range (polG d)).map (fun i => polDigest d (polM d + i)) }

/-- The policy key that the directory keeps for a digest, unwrapped under the seal key. -/
def State.policyKeyOf (s : State) (digest : List Byte) : Option (List Byte) :=
  (s.thl.dir.policyKeys.find? (fun k => k.1 == digest)).bind (fun k => keyUnwrap s.thl.keys.sealing k.2)

/-- Digests for which a key is kept, or due to be obtained for a joint context. -/
def State.policyDigests (s : State) : List (List Byte) :=
  (s.thl.dir.policyKeys.map Prod.fst ++ (List.range 32).filterMap (fun c => (s.ctx c).policy.map (fun p => p.digest))).eraseDups

/-- Whether this device's identity digest is the smallest of a policy's members. -/
def State.smallest (s : State) (p : Policy) : Bool := p.members.all (fun m => decide (beNat s.deviceDigest ≤ beNat m))

/-- A key kept in the directory, wrapped under the seal key, and held by every context of its policy. -/
def State.keepPolicyKey (s : State) (digest key : List Byte) : State :=
  let s1 := s.setDir (fun d =>
    { d with policyKeys := d.policyKeys.filter (fun k => k.1 != digest) ++ [(digest, keyWrap s.thl.keys.sealing key)] })
  (List.range 32).foldl (fun s c =>
    let x := s.ctx c
    if (x.policy.map (fun p => p.digest)) = some digest then s.setCtx c { x with policyKey := some key } else s) s1

/-- `RHZ_JPOL_c` in every stack of the partition (R252): the policy's rule and hyperparameters, or zeros. -/
def State.writeJpol (s : State) (c rule valid : Nat) (hyper : List Byte) : State :=
  (s.stacksOf (c / 8)).foldl (fun s k =>
    (s.setWord (.rhz k) (Reg.RHZ_JPOL + 64 * (c % 8)) (rule + 256 * valid)).setWords (.rhz k)
      (Reg.RHZ_JPOL + 64 * (c % 8) + 4) 9 (leNat hyper)) s

/-- A joint context created from an accepted document. -/
def State.jointOpen (s : State) (c : Nat) (proth : Bool) (d : List Byte) : State :=
  let p := policyOf d
  let owners := (List.range (polN d)).map (fun j => ({ digest := (polOwner d j).digest, key := none } : Owner))
  let s1 := s.ctxOpen c p.digest { joint := true, proth := proth, owners := owners, policy := some p,
                                   policyKey := s.policyKeyOf p.digest }
  let s2 := s1.writeJpol c p.rule 1 p.hyper
  if (s2.ctx c).policyKey.isNone ∧ s2.smallest p then
    let k := s2.draw 32
    k.1.keepPolicyKey p.digest k.2
  else s2

/-- The document of a request. -/
def State.reqDoc (s : State) (p : Nat) (bs : List Byte) : List Byte :=
  let len := leNat (slice bs 16 4)
  if 1048576 < len then []
  else (s.hostRead (s.portOfPart p) (leNat (slice bs 8 8)) len).getD []

/-- A policy refused. -/
def State.polRefuse (s : State) (p c reason : Nat) : State := (s.raise (.prt p) 0xA006 c reason).reqDone p 0xA006 reason

def State.jointCreate (s : State) (p : Nat) (bs : List Byte) : State :=
  let c := reqCtx p bs
  if 8 ≤ byteAt bs 1 ∨ 2 ≤ byteAt bs 2 ∨ !restZero bs [(0, 2), (8, 19)] then s.tenRefuse p 2 2
  else if (s.ctx c).state ≠ .free ∨ s.dieParked p ∨ !s.takesContexts then s.tenRefuse p 2 1
  else
    let d := s.reqDoc p bs
    match s.polBad d with
    | some (reason, block) =>
      (match block with
       | some signer => s.sigRejected 5 signer
       | none => s).polRefuse p c reason
    | none =>
      let pol := policyOf d
      if !s.policyDigests.contains pol.digest ∧ 1024 ≤ s.policyDigests.length then s.polRefuse p c 6
      else if (s.policyKeyOf pol.digest).isNone ∧ s.smallest pol ∧ !s.thl.trngOk then s.reqDone p 0x900C 0
      else (s.jointOpen c (bit (byteAt bs 2) 0) d).reqDone p 0 0

def execJointCreate (p : Nat) (s : State) : Host.Outcome State Fault Refusal :=
  tenancyOp s p (fun op => op == 2) (fun s bs => s.jointCreate p bs)

/-- The policy key that a member neighbour hands over: 32 bytes that this module does not choose. -/
def State.policyKeyGot (s : State) (l c : Nat) : State :=
  match (s.ctx c).policy with
  | none => s
  | some p =>
    if (s.ctx c).policyKey.isSome ∨ (s.link l).phase ≠ .up then s
    else
      let k := s.drawFree 32
      k.1.keepPolicyKey p.digest k.2

/-- A member neighbour hands over the policy key of a joint context on the link session. -/
def execPolicyKeyTransfer (l ctx : Nat) (s : State) : Host.Outcome State Fault Refusal :=
  if ¬ (l < 16 ∧ ctx < 32) then .fault .noSuchUnit
  else match (s.ctx ctx).policy with
    | none => notEnabled "the context is not joint"
    | some p =>
      if (s.ctx ctx).policyKey.isSome then notEnabled "the policy key is held"
      else if (s.link l).phase ≠ .up ∨ !p.members.contains (s.link l).peerId then notEnabled "the neighbour is no member"
      else thlRequest s (.policyKey l ctx) (fun s => s.policyKeyGot l ctx)

/-! Regions (R286, R287, R291 to R293). -/

/-- Units of a region's ranges in each stack of its mask: the data range and, in tree mode, the metadata window. -/
def Region.spans (g : Region) : List (Nat × Nat) := (g.base, g.limit) :: (if g.tree then [(g.mbase, g.mlimit)] else [])

def unitsMeet (a b : Nat × Nat) : Bool := decide (a.1 ≤ b.2) && decide (b.1 ≤ a.2)

/-- Units that the metadata of a tree-mode region needs (R297). -/
def Region.metaUnits (g : Region) : Nat :=
  let n := (g.limit - g.base + 1) * unitLines
  ceilDiv (n / 4 + (((treeLevels (n / 8) 12).tail).sum)) unitLines

/-- Whether the ranges of a region break R287. -/
def State.rangeMeets (s : State) (g : Region) : Bool :=
  (g.tree && unitsMeet (g.base, g.limit) (g.mbase, g.mlimit))
    || (List.range 64).any (fun r =>
      let o := s.region r
      o.live && (o.inStacks &&& g.inStacks) != 0 && o.spans.any (fun a => g.spans.any (unitsMeet a)))

/-- The region that a request describes. -/
def regionOf (c : Nat) (bs : List Byte) : Region :=
  let h (i : Nat) : Nat := leNat (slice bs i 2)
  { state := .init, tree := bit (byteAt bs 3) 0, sealedBit := bit (byteAt bs 3) 1, owner := c, inStacks := h 4,
    base := h 6, limit := h 8, mbase := h 10, mlimit := h 12 }

/-- A sweep queued in every stack of a region. -/
def State.queueSweep (s : State) (r : Nat) (k : SweepKind) : State :=
  (s.region r).stackList.foldl (fun s i =>
    s.setStack i { s.stack i with sweeps := (s.stack i).sweeps ++ [{ region := r, kind := k }] }) s

/-- The subkeys of a fresh region key for the next epoch (R292). The region key itself is erased. -/
def State.newRegionKeys (s : State) (r : Nat) : State × KeySet :=
  let d := s.draw 32
  let e := d.1.word .rgn Reg.MPE_EPOCH_NEXT
  (d.1.setWord .rgn Reg.MPE_EPOCH_NEXT ((e + 1) % 2 ^ 32), KeySet.derive d.2 r e)

/-- Key slots loaded into every MPE of a region's mask. -/
def State.loadKeys (s : State) (r : Nat) (f : RegionKeys → RegionKeys) : State :=
  (s.region r).stackList.foldl (fun s k =>
    let x := s.stack k
    s.setStack k { x with keys := SMap.set {} x.keys r (f (x.keySlot r)) }) s

/-- The reason for which a CREATE is refused, if there is one (R291, R353). -/
def State.createBad (s : State) (p : Nat) (bs : List Byte) : Option Nat :=
  let g := regionOf (reqCtx p bs) bs
  let r := byteAt bs 2
  if 8 ≤ byteAt bs 1 ∨ 64 ≤ r ∨ 4 ≤ byteAt bs 3 ∨ 2 ^ 12 ≤ g.inStacks ∨ g.inStacks = 0 ∨ g.limit < g.base
      ∨ !restZero bs [(0, 13)] then some 2
  else if g.tree ∧ (g.mlimit < g.mbase ∨ g.mlimit - g.mbase + 1 < g.metaUnits) then some 2
  else if !g.tree ∧ (g.mbase ≠ 0 ∨ g.mlimit ≠ 0) then some 2
  else if (s.ctx (reqCtx p bs)).state ≠ .active ∨ (s.region r).live then some 1
  else if !g.stackList.all (fun k => (s.stacksOf p).contains k) then some 3
  else if s.rangeMeets g then some 4
  else none

def State.regionCreate (s : State) (p : Nat) (bs : List Byte) : State :=
  let r := byteAt bs 2
  match s.createBad p bs with
  | some reason => s.rgnRefuse p r reason
  | none =>
    if !s.thl.trngOk then s.reqDone p 0x900C 0
    else
      let k := s.newRegionKeys r
      let g := regionOf (reqCtx p bs) bs
      (((k.1.setRegion r { g with epoch := k.2.epoch }).loadKeys r (fun _ => { cur := k.2 })).queueSweep r .init).reqDone p 0 0

def execRegionCreate (p : Nat) (s : State) : Host.Outcome State Fault Refusal :=
  tenancyOp s p (fun op => op == 4) (fun s bs => s.regionCreate p bs)

/-- The reason for which a request on a region of the partition is refused; `q` says which states it needs. -/
def State.rgnBad (s : State) (p : Nat) (bs : List Byte) (used : Nat) (q : RegionState → Bool) : Option Nat :=
  let g := s.region (byteAt bs 2)
  if 8 ≤ byteAt bs 1 ∨ 64 ≤ byteAt bs 2 ∨ !restZero bs [(0, used)] then some 2
  else if !q g.state then some 1
  else if g.owner / 8 ≠ p then some 3
  else none

def State.regionRekey (s : State) (p : Nat) (bs : List Byte) : State :=
  let r := byteAt bs 2
  match s.rgnBad p bs 2 (fun t => t == .active) with
  | some reason => s.rgnRefuse p r reason
  | none =>
    if !s.thl.trngOk then s.reqDone p 0x900C 0
    else
      let k := s.newRegionKeys r
      let g := k.1.region r
      (((k.1.setRegion r { g with state := .rekey, prog := 0, swept := 0, epoch := k.2.epoch }).loadKeys r (fun q =>
        { cur := k.2, old := some q.cur, bound := g.base * unitLines })).queueSweep r .rekey).reqDone p 0 0

def execRegionRekey (p : Nat) (s : State) : Host.Outcome State Fault Refusal :=
  tenancyOp s p (fun op => op == 5) (fun s bs => s.regionRekey p bs)

/-- A DESTROY (R293). -/
def State.destroyRegion (s : State) (r : Nat) (zero : Bool) : State :=
  let s1 := ((s.dropMeta r).dropSweeps r).clearKeys r
  if zero then (s1.setRegion r { s1.region r with state := .zeroing, prog := 0, swept := 0 }).queueSweep r .zero
  else s1.setRegion r { s1.region r with state := .free }

def State.regionDestroy (s : State) (p : Nat) (bs : List Byte) : State :=
  let r := byteAt bs 2
  match (if 2 ≤ byteAt bs 3 then some 2 else s.rgnBad p bs 3 (fun t => t != .free)) with
  | some reason => s.rgnRefuse p r reason
  | none => (s.destroyRegion r (bit (byteAt bs 3) 0)).reqDone p 0 0

def execRegionDestroy (p : Nat) (s : State) : Host.Outcome State Fault Refusal :=
  tenancyOp s p (fun op => op == 6) (fun s bs => s.regionDestroy p bs)

/-! Slots (R262, R265). -/

/-- The map entries of a binding request: channel and word of `LML_VC_v`. -/
def bindMaps (bs : List Byte) : List (Nat × Nat) :=
  (List.range (byteAt bs 8)).map (fun i =>
    let e := leNat (slice bs (32 + 4 * i) 4)
    (bits e 4 0, bits e 20 5 + byteAt bs 3 * 2 ^ 16 + bits e 27 21 * 2 ^ 20 + 2 ^ 31))

/-- The reason for which a binding is refused, if there is one. -/
def State.bindBad (s : State) (p : Nat) (bs : List Byte) : Option Nat :=
  let l := byteAt bs 2
  let k := byteAt bs 3
  let n := byteAt bs 8
  let x := s.ctx (reqCtx p bs)
  let ms := bindMaps bs
  if 8 ≤ byteAt bs 1 ∨ 16 ≤ l ∨ k < 1 ∨ 8 < k ∨ n < 1 ∨ 8 < n ∨ !restZero bs [(0, 8), (32, 31 + 4 * n)]
      ∨ !(List.range n).all (fun i => decide (leNat (slice bs (32 + 4 * i) 4) < 2 ^ 28))
      ∨ !ms.all (fun m => decide (4 ≤ m.1)) ∨ (ms.map Prod.fst).eraseDups.length ≠ n then some 2
  else if x.state ≠ .active then some 1
  else if !(s.linksIn p).contains l then some 3
  else if !s.bindFits l (reqCtx p bs) ms ∨ !(s.link l).slotFree k then some 4
  else none

/-- SLOT_BIND: the binding waits for the peer's confirmation, and its request stays outstanding until then. -/
def State.slotBind (s : State) (p : Nat) (bs : List Byte) : State :=
  match s.bindBad p bs with
  | some reason => s.tenRefuse p 7 reason
  | none => s.askBind (byteAt bs 2) (byteAt bs 3)
      { page := some p, ctx := reqCtx p bs, fsid := leNat (slice bs 4 4), maps := bindMaps bs }

def execSlotBind (p : Nat) (s : State) : Host.Outcome State Fault Refusal :=
  tenancyOp s p (fun op => op == 7) (fun s bs => s.slotBind p bs)

/-- The peer has bound a slot to the identifier: the local binding completes, its channel map entries are written, and the
peer is told. -/
def State.bindSlot (s : State) (l k : Nat) (w : SlotWait) : State :=
  let x := s.link l
  let y : Link := { x with waits := SMap.set none x.waits k none }
  let s1 := s.setLink l (y.setSlot k { bound := true, ctx := w.ctx, fsid := w.fsid, txEpoch := 1, rxEpoch := 1 })
  let s2 := (w.maps.foldl (fun s m => s.setWord (.lml l) (Reg.LML_VC + 4 * m.1) m.2) s1).tellSlot l 3 k w.fsid
  match w.page with
  | some p => s2.reqDone p 0 0
  | none => s2

def execSlotBindConfirmation (l slot fsid : Nat) (s : State) : Host.Outcome State Fault Refusal :=
  if ¬ (l < 16 ∧ 1 ≤ slot ∧ slot ≤ 8) then .fault .noSuchUnit
  else match SMap.get none (s.link l).waits slot with
    | none => notEnabled "no binding of the slot waits"
    | some w =>
      if w.fsid ≠ fsid then notEnabled "the peer has bound another identifier"
      else if (s.link l).phase ≠ .up then notEnabled "the link has no session"
      else thlRequest s (.slotBind l slot fsid) (fun s =>
        match SMap.get none (s.link l).waits slot with
        | some w => if w.fsid = fsid then s.bindSlot l slot w else s
        | none => s)

def State.slotUnbind (s : State) (p : Nat) (bs : List Byte) : State :=
  let l := byteAt bs 2
  let k := byteAt bs 3
  let y := (s.link l).slot k
  if 8 ≤ byteAt bs 1 ∨ 16 ≤ l ∨ k < 1 ∨ 8 < k ∨ !restZero bs [(0, 3)] then s.tenRefuse p 8 2
  else if !y.bound ∨ y.ctx ≠ reqCtx p bs then s.tenRefuse p 8 1
  else (s.retireTell l k).reqDone p 0 0

def execSlotUnbind (p : Nat) (s : State) : Host.Outcome State Fault Refusal :=
  tenancyOp s p (fun op => op == 8) (fun s bs => s.slotUnbind p bs)

/-! Release grants (R369). -/

/-- The digest of the policy that a release document embeds: its signed bytes with the kind of a policy. -/
def relDigest (d : List Byte) : List Byte := sha384 (d.take 4 ++ [1#8] ++ slice d 5 (polSigned d - 5))

/-- Whether a release document is accepted for a context. -/
def State.grantOk (s : State) (c : Nat) (d : List Byte) : Bool :=
  let signed := polSigned d + 48
  polForm d 2 48 (polN d) && (polBadOwner d signed).isNone && (s.policyKeyOf (relDigest d)).isSome
    && ((s.ctx c).owners.head?.map (fun o => o.digest)) == some (slice d (polSigned d) 48)

def State.releaseGrant (s : State) (p : Nat) (bs : List Byte) : State :=
  let c := reqCtx p bs
  let x := s.ctx c
  if 8 ≤ byteAt bs 1 ∨ !restZero bs [(0, 1), (8, 19)] then s.tenRefuse p 9 2
  else if x.state ≠ .active ∨ x.joint then s.tenRefuse p 9 1
  else
    let d := s.reqDoc p bs
    if !s.grantOk c d then
      (match (if polForm d 2 48 (polN d) then polBadOwner d (polSigned d + 48) else none) with
       | some j => s.sigRejected 5 (0x40 + j)
       | none => s).tenRefuse p 9 5
    else
      (s.setCtx c { x with grant := (s.policyKeyOf (relDigest d)).map (fun k => (relDigest d, k)) }).reqDone p 0 0

def execReleaseGrant (p : Nat) (s : State) : Host.Outcome State Fault Refusal :=
  tenancyOp s p (fun op => op == 9) (fun s bs => s.releaseGrant p bs)

/-! Teardown (R362). -/

/-- Steps 1 and 2: the context enters TEARDOWN and its commands stop; running descriptors end at their boundaries. The
request stays in service until the context is FREE. -/
def State.teardown (s : State) (p : Nat) (bs : List Byte) : State :=
  let c := reqCtx p bs
  let st := (s.ctx c).state
  if 8 ≤ byteAt bs 1 ∨ 2 ≤ byteAt bs 2 ∨ !restZero bs [(0, 2)] then s.tenRefuse p 3 2
  else if st = .free ∨ st = .teardown then s.tenRefuse p 3 1
  else
    let s1 := s.setCtx c { s.ctx c with state := .teardown, teardown := .stopping, zero := bit (byteAt bs 2) 0, destroyed := 0 }
    let s2 := (s1.stopCtx c).clearMirror c
    let s3 := (List.range 16).foldl (fun s l => s.dropWaits l (fun w => w.ctx == c)) s2
    s3.setPart p { s3.part p with request := some bs }

def execTeardown (p : Nat) (s : State) : Host.Outcome State Fault Refusal :=
  tenancyOp s p (fun op => op == 3) (fun s bs => s.teardown p bs)

/-- The regions that a context owns. -/
def State.regionsOf (s : State) (c : Nat) : List Nat :=
  (List.range 64).filter (fun r => (s.region r).live && (s.region r).owner == c)

/-- Steps 3 to 5, once the stops are complete: slots retired, regions destroyed. -/
def execTeardownRetireDestroy (c : Nat) (s : State) : Host.Outcome State Fault Refusal :=
  if ¬ c < 32 then .fault .noSuchUnit
  else
    let x := s.ctx c
    if x.teardown ≠ .stopping then notEnabled "no teardown of the context waits for its stops"
    else if s.engineBusy c then notEnabled "an engine still runs a descriptor of the context"
    else
      let rs := s.regionsOf c
      let s1 := rs.foldl (fun s r => s.destroyRegion r x.zero) (s.retireCtx c)
      .next (s1.setCtx c { s1.ctx c with teardown := .destroyed, destroyed := rs.length })

/-- Step 6, after any zeroing: the record of the meter, then owners, keys, grant and policy records go, and the context is
FREE. -/
def State.ctxRelease (s : State) (c : Nat) : State :=
  let n := (s.ctx c).destroyed
  let s1 := (s.meterClose c).writeJpol c 0 0 []
  let x := s1.ctx c
  let s2 := (s1.setCtx c { capture := x.capture, resetting := x.resetting, turn := x.turn }).raise (.ctx c) 0xA004 c n
  match (s2.part (c / 8)).request with
  | some bs => if reqCtx (c / 8) bs = c then s2.reqDone (c / 8) 0 0 else s2
  | none => s2

def execTeardownRelease (c : Nat) (s : State) : Host.Outcome State Fault Refusal :=
  if ¬ c < 32 then .fault .noSuchUnit
  else if (s.ctx c).teardown ≠ .destroyed then notEnabled "no teardown of the context has destroyed its regions"
  else if (s.regionsOf c).any (fun r => (s.region r).state == .zeroing) then notEnabled "a region is still being zeroed"
  else .next (s.ctxRelease c)

end Sys2Proof.Machine
end

