-- ==== Sys2Proof/Machine/Log.lean ====
section
/-!
DEFINITION. The event log: entries as bytes, the drain of the intake queue, the flash ring and the resumption after a
Module reset (18_management_and_replay.md, R452 to R455).
-/
namespace Sys2Proof.Machine

/-- An entry as its 32 bytes (R452). -/
def LogEntry.bytes (e : LogEntry) (seq : Nat) : List Byte :=
  leBytes 8 e.time ++ leBytes 4 seq ++ leBytes 2 e.code ++ leBytes 1 e.ptype ++ leBytes 1 e.inst ++ leBytes 1 e.grp
    ++ leBytes 1 e.flags ++ leBytes 1 e.owner ++ leBytes 1 0 ++ leBytes 4 e.arg1 ++ leBytes 4 e.arg2 ++ leBytes 4 e.boot

/-- Whether an entry is an alarm or a security alarm. -/
def LogEntry.alarm (e : LogEntry) : Bool := e.flags % 4 != 0

/-- The event as the bus owner receives it: an MCTP message of PLDM type 2 with a PlatformEventMessage of OEM class 0xF0
(R450). -/
def platformEvent (bytes : List Byte) : List Byte := [0x01, 0x80, 0x02, 0x0A, 0x01, 0x00, 0xF0].map (BitVec.ofNat 8) ++ bytes

/-- An entry takes the next sequence number and enters the ring of 2,048; an alarm is sent to the bus owner. -/
def State.logEnter (s : State) (e0 : LogEntry) : State :=
  let l := s.log
  let e := { e0 with boot := l.boot % 2 ^ 32 }
  let ring := l.ring ++ [(l.seq, e)]
  let s1 : State := { s with log := { l with ring := ring.drop (ring.length - 2048),
                                             unsaved := l.unsaved ++ [(s.ticks, l.seq, e)],
                                             seq := (l.seq + 1) % 2 ^ 32 } }
  if e.alarm then s1.emit (.mctp (platformEvent (e.bytes l.seq))) else s1

/-- An event that the log itself writes: the page's header as for any event (R394), and the entry, with flag 4, at once. -/
def State.logOwn (s : State) (code a1 a2 : Nat) : State :=
  let s1 := (Page.mgt.copies s).foldl (fun s c => s.markCopy .mgt code c) s
  let s2 := s1.countEvent .mgt
  s2.logEnter { time := s2.tmb.ns, code := code, ptype := Page.mgt.type, inst := 0, grp := 0,
                flags := (if s2.tmb.valid then 4 else 0) + (if s.evtFate .mgt = 0 then 0 else 8) + 16, owner := s2.ownerWord .mgt % 256, arg1 := a1 % 2 ^ 32,
                arg2 := a2 % 2 ^ 32, boot := 0 }

/-- Whether entries leave the intake queue (R453). -/
def State.logRuns (s : State) : Bool := s.log.started && s.fld .mgt Reg.MGT_STS 0 0 == 1 && !s.clk.inReset

/-- One item leaves the intake queue. A run of lost events consumes its sequence numbers and leaves one entry. -/
def execLogDequeue (s : State) : Host.Outcome State Fault Refusal :=
  if !s.logRuns then notEnabled "the management controller does not drain the intake queue"
  else match s.log.intake with
    | [] => notEnabled "the intake queue is empty"
    | .entry e :: rest => .next (({ s with log := { s.log with intake := rest } } : State).logEnter e)
    | .gap n :: rest =>
      let first := s.log.seq
      .next (({ s with log := { s.log with intake := rest, seq := (first + n) % 2 ^ 32 } } : State).logOwn 0xE002 first n)

/-- Cycles of 10 ms. -/
def pageTicks : Nat := 2000000

/-- Pages of a sector, and of the ring. -/
def sectorPages : Nat := 256
def ringPages : Nat := 64 * sectorPages

/-- `MGT_LOG_PERSIST`. -/
def regLogPersist : Nat := 0x050

/-- Whether a page is due: 8 entries, an entry that has waited 10 ms, or an alarm (R454). -/
def State.pageDue (s : State) : Bool :=
  let u := s.log.unsaved
  decide (8 ≤ u.length) || u.any (fun e => e.2.2.alarm) || (match u with
    | e :: _ => decide (e.1 + pageTicks ≤ s.ticks)
    | [] => false)

/-- The next page of up to 8 entries programmed; the first page of a sector finds it erased. -/
def State.pageProgram (s : State) : State :=
  let l := s.log
  let es := (l.unsaved.take 8).map Prod.snd
  let flash := if l.page % sectorPages = 0 then l.flash.filter (fun e => e.1 / sectorPages ≠ l.page / sectorPages) else l.flash
  let last := (es.getLast?.map Prod.fst).getD 0
  ({ s with log := { l with flash := SMap.set [] flash l.page es, unsaved := l.unsaved.drop 8,
                            page := (l.page + 1) % ringPages } } : State).setWord .mgt regLogPersist last

def execLogPageProgram (s : State) : Host.Outcome State Fault Refusal :=
  if s.clk.inReset ∨ !s.log.started then notEnabled "the log has not resumed"
  else if !s.pageDue then notEnabled "no page is due"
  else .next s.pageProgram

/-- The entries that the flash ring holds. -/
def EventLog.kept (l : EventLog) : List (Nat × LogEntry) := l.flash.flatMap Prod.snd

/-- The log resumes from the flash ring, and LOG_START is its first entry (R455). The very first number is 0. -/
def State.logStart (s : State) : State :=
  let kept := s.log.kept
  let boot := (kept.foldl (fun m e => max m e.2.boot) 0 + 1) % 2 ^ 32
  let seq := kept.foldl (fun m e => max m (e.1 + 1)) 0 % 2 ^ 32
  let s1 : State := { s with log := { s.log with started := true, boot := boot, seq := seq } }
  (s1.setWord .mgt regLogPersist (seq - 1)).logOwn 0xE001 boot seq

def execLogStart (s : State) : Host.Outcome State Fault Refusal :=
  if s.clk.inReset ∨ s.fld .mgt Reg.MGT_STS 0 0 ≠ 1 then notEnabled "the management controller is not ready"
  else if s.log.started then notEnabled "the log has resumed"
  else .next s.logStart

/-! The selected entry (R462). -/

/-- The page that a type code, instance and group name (R392). -/
def pageNamed (type inst grp : Nat) : Page :=
  match type with
  | 0x02 => .hif inst
  | 0x03 => .fnc inst
  | 0x04 => if grp = 0 then .prt inst else if grp = 1 then .est inst else .ledger inst
  | 0x05 => .ctx inst
  | 0x06 => .frd inst
  | 0x07 => .pna (24 * grp + inst)
  | 0x08 => .rhz inst
  | 0x09 => if inst = 12 then .rgn else .mpe inst
  | 0x0A => if inst = 16 then .fabric else .lml inst
  | 0x0B => if inst = 0 then .thl else .mbx (inst - 1)
  | 0x0C => .lch
  | 0x0D => .clk
  | 0x0E => .tmb
  | 0x0F => .pwr
  | 0x10 => .mgt
  | _ => .top

/-- Word `k` of the entry that a requester's `MGT_LOG_SEL` names, with what the requester may not see as zeros. -/
def State.logWord (s : State) (r : Requester) (k : Nat) : Nat :=
  let sel := s.wordAt .mgt (s.copyFor r .mgt) Reg.MGT_LOG_SEL
  match s.log.ring.find? (fun e => e.1 == sel) with
  | none => 0
  | some e =>
    let seen := s.reaches r (pageNamed e.2.ptype e.2.inst e.2.grp)
    if seen ∨ k = 2 ∨ k = 7 then leNat (slice (e.2.bytes e.1) (4 * k) 4) else 0

end Sys2Proof.Machine
end

