-- ==== Sys2Proof/Machine/Live.lean ====
section
/-!
DEFINITION. What a read of a register word returns: the words held, with the fields whose values stand in the blocks
themselves (15_host_interface.md, R389, R397 to R399, and the register section of every chapter).
-/
namespace Sys2Proof.Machine

/-- The copy in which a word is held for a requester: per port for the header fields of R389 on shared pages, and for
`MGT_LOG_SEL` (R462). -/
def State.heldCopy (s : State) (r : Requester) (pg : Page) (off : Nat) : Nat :=
  if perPort off || (pg == .mgt && off == Reg.MGT_LOG_SEL) then s.copyFor r pg else 0

/-- The port whose view a requester has. -/
def State.viewPort (s : State) : Requester → Nat
  | .host x _ _ => x
  | _ => s.clk.mgmtPort

/-! Header (R389). -/

/-- Pages whose tables name no event. -/
def Page.quiet : Page → Bool
  | .top | .fnc _ | .mbx _ | .ledger _ => true
  | _ => false

/-- Pages whose `PROG` reports operations (R305, R332, R343). -/
def Page.hasProg : Page → Bool
  | .thl | .mbx _ | .mpe _ => true
  | _ => false

/-- `PAGE_CAP`. -/
def Page.cap (pg : Page) : Nat := (if pg.quiet then 0 else 1) + (if pg.hasProg then 2 else 0) + (if pg.shared then 4 else 0)

/-- Whether a reset that reaches the page's block is in progress. -/
def State.pageResetting (s : State) (pg : Page) : Bool :=
  s.clk.inReset || (match pg with
    | .ctx c => (s.ctx c).resetting || (s.part (c / 8)).resetting
    | pg => match pg.part s with
      | some p => (s.part p).resetting
      | none => false)

/-- Whether the page's block is stopped under R310. -/
def State.pageHalted (s : State) (pg : Page) : Bool :=
  match pg with
  | .hif _ => s.haltDev
  | .pna _ | .frd _ | .rhz _ | .mpe _ => s.haltedPart ((pg.part s).getD 0)
  | _ => false

/-- `PAGE_STS`. -/
def State.pageStatus (s : State) (pg : Page) : Nat :=
  (if s.pageResetting pg then 2 else 1) + (if s.pageHalted pg then 4 else 0) + (if s.lockOf pg then 8 else 0)

/-- `PROG` of a memory-protection engine: its own part of the sweep that runs, in per-mille (R305). -/
def State.mpeProg (s : State) (k : Nat) : Nat :=
  match (s.stack k).sweep with
  | some w => 1000 * w.pos / (s.region w.region).sweepLines w.kind + 2 ^ 28 + 2 ^ 31
  | none => 0

/-- `PROG` of a mailbox page while its Calyptra is being signed: the part of the 25 ms that have passed, in per-mille, and at
most 1000 (R332; log entry 120). -/
def State.signProg (s : State) (x : Nat) : Nat :=
  match s.thl.signing with
  | some g => if g.src = .mailbox x then min 1000 ((s.ticks - g.start) * 1000 / (25 * msTicks)) + 2 ^ 28 + 2 ^ 31 else 0
  | none => 0

/-- The header words that are not held. -/
def State.liveHeader (s : State) (pg : Page) (off : Nat) : Option Nat :=
  match off with
  | 0x000 => some (1 + pg.inst.1 % 256 * 2 ^ 8 + pg.inst.2 % 256 * 2 ^ 16 + pg.type * 2 ^ 24)
  | 0x004 => some pg.cap
  | 0x00C => some (s.pageStatus pg)
  | 0x020 => match pg with
    | .mbx x => some (s.signProg x)
    | .mpe k => some (s.mpeProg k)
    | _ => none
  | 0x028 => some (s.ownerWord pg)
  | _ => none

/-! Top, ports and functions (R397 to R399). -/

/-- Every register page. -/
def allPages : List Page :=
  [.top, .hif 0, .hif 1, .fnc 0, .fnc 1, .thl, .mbx 0, .mbx 1, .lch, .clk, .tmb, .pwr, .mgt, .rgn, .fabric]
    ++ (List.range 4).flatMap (fun p => [Page.prt p, .est p, .ledger p])
    ++ (List.range 12).flatMap (fun k => [Page.rhz k, .mpe k])
    ++ (List.range 16).map Page.lml ++ (List.range 32).map Page.frd ++ (List.range 768).map Page.pna
    ++ (List.range 32).map Page.ctx

/-- Whether a port reaches a page, through PF0 or through the VF of a context. -/
def State.portReaches (s : State) (x : Nat) : Page → Bool
  | .ctx c => s.portOfCtx c == x
  | pg => s.reaches (.host x 0 false) pg

/-- `TOP_PAGE_PEND` of a port. -/
def State.pagePend (s : State) (x : Nat) : Nat :=
  allPages.foldl (fun n pg =>
    if s.portReaches x pg && s.pendingAt pg (if pg.shared then x else 0) then n ||| 2 ^ pg.type else n) 0

/-- Depths and busy bits of four engines (R145, R398). -/
def engineWord (es : SMap Engine) : Nat :=
  ((List.range 4).map (fun e =>
    let g := SMap.get {} es e
    g.queue.length % 64 * 2 ^ (6 * e) + (if g.running.isSome then 2 ^ (24 + e) else 0))).sum

/-- The streams of a port that are Secure. -/
def Port.secureStreams (p : Port) : Nat := (p.ide.filter (fun i => i.2.secure)).length

/-- The code of a TDI's state. -/
def TdiState.code : TdiState → Nat
  | .unlocked => 0 | .locked => 1 | .run => 2 | .error => 3

/-- Bits [10:8] of word 2 of `FNC_VF_v`. -/
def Port.vfStatus (p : Port) (v : Nat) : Nat :=
  (SMap.get {} p.tdis v).state.code * 2 ^ 8 + (if (SMap.get {} p.ide v).secure then 2 ^ 10 else 0)

/-! Thallus and the Lichenometer (R347, R446). -/

/-- The sum of `f i` shifted to byte `i`. -/
def packBytes (n : Nat) (f : Nat → Nat) : Nat := leNat ((List.range n).map (fun i => BitVec.ofNat 8 (f i)))

/-- One bit for each index that satisfies `q`. -/
def packBits (n : Nat) (q : Nat → Bool) : Nat := ((List.range n).map (fun i => if q i then 2 ^ i else 0)).sum

/-- `THL_FW_STS`. -/
def State.fwStatus (s : State) : Nat :=
  let x := match s.thl.xfer with
    | some x => x.image % 8 + (if x.path.isSome then 8 else 0) + 16
    | none => if s.mgt.restarting then 2 + 3 * 16 else 0
  x + packBits 4 (fun i => s.runningCopy (i + 1) == 1) * 2 ^ 8 + packBits 4 (fun i => (s.stagedCopy (i + 1)).isSome) * 2 ^ 12

/-- Words of the `THL` page. -/
def State.liveThl (s : State) (off : Nat) : Option Nat :=
  let t := s.thl
  if off = Reg.THL_STS then
    some (t.stage % 4 + (if t.signStopped || t.mismatch then 4 else 0) + t.queue.length % 128 * 2 ^ 3 + s.flags % 256 * 2 ^ 10)
  else if off = Reg.THL_FW_STS then some s.fwStatus
  else if off = Reg.THL_SVN then some (packBytes 4 (fun i => s.svn (i + 1)))
  else if off = Reg.THL_SLOT_CTR_LO then some (packBytes 4 (fun j => s.slotCounter (j + 1)))
  else if off = Reg.THL_SLOT_CTR_HI then some (packBytes 4 (fun j => s.slotCounter (j + 5)))
  else if Reg.THL_IDDIG ≤ off ∧ off < Reg.THL_IDDIG + 48 then some (leNat (slice s.deviceDigest (off - Reg.THL_IDDIG) 4))
  else none

/-- Half of a 64-bit total. -/
def totalHalf (v : Int) (off : Nat) : Nat := leNat (slice (totalBytes v) (off % 8) 4)

/-- Words of the `LCH` page; they stand at their reset values until the meter is ready. -/
def State.liveLch (s : State) (off : Nat) : Nat :=
  let m := s.met
  if !m.ready then (if off = Reg.LCH_STS then 0xF * 2 ^ 6 else 0)
  else if off = Reg.LCH_STS then
    1 + (if m.unclean then 2 else 0) + (if m.logFull then 4 else 0) + (if m.outChan.isSome then 8 else 0) + m.rule % 4 * 2 ^ 4
      + m.interval % 64 * 2 ^ 6 + m.running % 2 * 2 ^ 12
  else if Reg.LCH_SEAL ≤ off ∧ off < Reg.LCH_SEAL + 48 then leNat (slice m.sealDigest (off - Reg.LCH_SEAL) 4)
  else if off = Reg.LCH_EVCNT_LO then m.evcnt % 2 ^ 32
  else if off = Reg.LCH_EVCNT_HI then m.evcnt / 2 ^ 32 % 2 ^ 32
  else if off = Reg.LCH_LOG_SEQ then m.seq % 2 ^ 32
  else if off = Reg.LCH_LOG_ACK then m.acked % 2 ^ 32
  else if Reg.LCH_PUB ≤ off ∧ off < Reg.LCH_PUB + 32 then leNat (slice s.meterPub (off - Reg.LCH_PUB) 4)
  else if Reg.LCH_E ≤ off ∧ off < Reg.LCH_E + 104 then totalHalf (m.total ((off - Reg.LCH_E) / 8)) off
  else if Reg.LCH_E_CTX ≤ off ∧ off < Reg.LCH_E_CTX + 256 then totalHalf (m.ctxTotal ((off - Reg.LCH_E_CTX) / 8)) off
  else 0

/-! Clocks, timebase and management (R423, R424, R462). -/

def State.liveClk (s : State) (off : Nat) : Option Nat :=
  if off = Reg.CLK_STS then
    some ((if s.clk.phase = .running then 1 else 0) + s.clk.settle % 8 * 2 + s.clk.lockUs % 256 * 2 ^ 4)
  else if Reg.CLK_DOM ≤ off ∧ off < Reg.CLK_DOM + 16 then
    let d := s.dom ((off - Reg.CLK_DOM) / 4)
    some (bits (s.word .clk off) 0 0 + (if d.cur then 2 else 0) + (if d.phase ≠ .none then 4 else 0))
  else none

/-- `TMB_SLEW_LEFT`: the remainder in 2^−16 ns, rounded toward zero. -/
def State.slewLeft (s : State) : Int := s.tmb.left.tdiv 256

def State.liveTmb (s : State) (off : Nat) : Option Nat :=
  let t := s.tmb
  if off = Reg.TMB_NS_LO then some (t.ns % 2 ^ 32)
  else if off = Reg.TMB_NS_HI then some (t.ns / 2 ^ 32 % 2 ^ 32)
  else if off = Reg.TMB_FRAC then some t.frac16
  else if off = Reg.TMB_STS then
    some ((if t.valid then 1 else 0) + (if s.slewLeft ≠ 0 then 2 else 0) + (if s.ppsOn then 4 else 0)
      + (if s.refOn then 8 else 0))
  else if off = Reg.TMB_SLEW_LEFT then some (ofSigned 32 s.slewLeft)
  else if off = Reg.TMB_SET_CTL then some (bits (s.word .tmb off) 15 0 + (if t.setIn.isSome then 2 ^ 16 else 0))
  else none

def State.liveMgt (s : State) (r : Requester) (off : Nat) : Option Nat :=
  if off = Reg.MGT_STS then
    some (s.word .mgt off % 16 + (if s.log.started then s.log.boot % 65536 * 2 ^ 16 else 0))
  else if off = 0x04C then some (s.log.seq % 2 ^ 32)
  else if Reg.MGT_LOG_ENT ≤ off ∧ off < Reg.MGT_LOG_ENT + 32 then some (s.logWord r ((off - Reg.MGT_LOG_ENT) / 4))
  else none

/-! Partitions and contexts (R371, R372). -/

def CtxState.code : CtxState → Nat
  | .free => 0 | .active => 1 | .faulted => 2 | .teardown => 3

def State.livePrt (s : State) (p off : Nat) : Option Nat :=
  if off = Reg.PRT_LAYOUT then some (s.layout % 8 + p % 4 * 2 ^ 3 + s.portOfPart p % 2 * 2 ^ 5)
  else if off = Reg.PRT_CTX_STS then
    some ((List.range 8).map (fun i =>
      let x := s.ctx (8 * p + i)
      (x.state.code + (if x.joint then 4 else 0) + (if x.proth then 8 else 0)) * 2 ^ (4 * i))).sum
  else none

def State.liveCtx (s : State) (c off : Nat) : Option Nat :=
  let x := s.ctx c
  if off = Reg.CTX_STS then
    some (x.state.code + x.reason % 4 * 2 ^ 2 + packBits 8 (fun j => match x.owners[j]? with
        | some o => o.key.isSome
        | none => false) * 2 ^ 4
      + (if x.policyKey.isSome then 2 ^ 12 else 0) + (if x.grant.isSome then 2 ^ 13 else 0))
  else none

/-! Stacks (R168, R224, R252, R312, R313). -/

def RedState.code : RedState → Nat
  | .free => 0 | .opened => 1 | .closing => 2 | .closed => 3

/-- The entry that `RHZ_RED_SEL` selects. -/
def State.redSel (s : State) (k : Nat) : RedEntry := (s.stack k).entry (s.fld (.rhz k) Reg.RHZ_RED_SEL 5 0)

/-- The release in progress. -/
def Stack.release (x : Stack) : Option Release := x.releases.find? (fun r => r.begun)

/-- `RHZ_UPD_STS` (R252). -/
def State.updStatus (s : State) (k : Nat) : Nat :=
  (match (s.laneRuns k).map (fun c => c.kind) with
    | some .update | some .apply | some .init => 1
    | _ => 0) + (match (s.stack k).release with
    | some r => 2 + min r.stamps.length 64 * 4
    | none => 0)

/-- `RHZ_UPD_CUR`: the header that the lane command names that runs, or else the one of the release in progress (log
entry 111). -/
def State.updCur (s : State) (k : Nat) : Nat :=
  let cur (hdr : Nat) : Nat := hdr / 64 % 2 ^ 31 + 2 ^ 31
  match (s.laneRuns k).filter (fun c => c.kind != .loadprog && c.kind != .csePart), (s.stack k).release with
  | some c, _ => cur c.hdr
  | none, some r => cur r.hdr
  | none, none => 0

def ProgSlot.word (g : ProgSlot) : Nat := if g.valid then 1 + g.owner % 32 * 2 + g.ni % 128 * 2 ^ 6 else 0

/-- `RHZ_RED_STS`. -/
def Stack.redStatus (x : Stack) : Nat :=
  (x.entries.filter (fun e => e.2.state == .opened || e.2.state == .closing)).length % 128 + x.residents.length % 4096 * 2 ^ 7

def State.liveRhz (s : State) (k off : Nat) : Option Nat :=
  let x := s.stack k
  let e := s.redSel k
  if off = Reg.RHZ_STS then some (s.rhzStatus k)
  else if off = Reg.RHZ_RED_STS then some x.redStatus
  else if off = Reg.RHZ_RED_ENTRY then
    some (e.state.code + e.typ % 4 * 2 ^ 2 + e.kind % 4 * 2 ^ 4 + e.ctx % 32 * 2 ^ 6 + e.buffer % 65536 * 2 ^ 16)
  else if off = Reg.RHZ_DEADLINE_LO then some (e.deadline % 2 ^ 32)
  else if off = Reg.RHZ_DEADLINE_HI then some (e.deadline / 2 ^ 32 % 2 ^ 32)
  else if off = Reg.RHZ_RED_STEP then some (e.step % 2 ^ 32)
  else if off = Reg.RHZ_UPD_STS then some (s.updStatus k)
  else if off = Reg.RHZ_UPD_CUR then some (s.updCur k)
  else if Reg.RHZ_PROG ≤ off ∧ off < Reg.RHZ_PROG + 32 then some (SMap.get {} x.progs ((off - Reg.RHZ_PROG) / 4)).word
  else if Reg.RHZ_CHECK_KEY ≤ off ∧ off < Reg.RHZ_CHECK_KEY + 32 then
    some (x.checkKey.toNat / 2 ^ (8 * (off - Reg.RHZ_CHECK_KEY)) % 2 ^ 32)
  else none

def SweepKind.code : SweepKind → Nat
  | .init => 0 | .rekey => 1 | .zero => 2

def State.liveMpe (s : State) (k off : Nat) : Option Nat :=
  if off = Reg.MPE_STS then
    some ((match (s.stack k).sweep with
      | some w => 1 + w.region % 64 * 2 + w.kind.code * 2 ^ 7
      | none => 0) + (if s.haltedPart (s.partOfQuarter (quarterOfStack k)) then 2 ^ 9 else 0))
  else if off = Reg.MPE_SWEEP_POS then
    some (match (s.stack k).sweep with
      | some w => sweepAt ((s.region w.region).sweepRanges w.kind) w.pos % 2 ^ 31 + 2 ^ 31
      | none => 0)
  else none

/-! Links (R283). -/

def State.liveLml (s : State) (l off : Nat) : Option Nat :=
  let x := s.link l
  let y := x.slot (s.fld (.lml l) Reg.LML_SLOT_SEL 3 0)
  if off = Reg.LML_LINK_STS then some x.status
  else if off = Reg.LML_SLOT_STS then some (if y.bound then 1 + y.ctx % 32 * 2 else 0)
  else if off = Reg.LML_SLOT_FSID then some (y.fsid % 2 ^ 32)
  else if off = Reg.LML_SLOT_EPOCH_TX then some (y.txEpoch % 2 ^ 32)
  else if off = Reg.LML_SLOT_EPOCH_RX then some (y.rxEpoch % 2 ^ 32)
  else if off = Reg.LML_SLOT_CNT then some (y.txCount / 65536 % 2 ^ 32)
  else none

/-! Pinnae (R88, R118). -/

def SeqState.code : SeqState → Nat
  | .idle => 0 | .running => 1 | .waitTree => 2 | .stopped => 3

/-- The state that `PNA_SEQ_STS` shows (R88): a running pinna with a `GREDUCE` in a tree waits in it (log entry 46). -/
def Pinna.seqShown (p : Pinna) : SeqState := if p.seq == .running && p.treeRun.isSome then .waitTree else p.seq

def GroupState.code : GroupState → Nat
  | .closed => 0 | .opened => 1 | .invalid => 2 | .inTree => 3

def State.livePna (s : State) (n off : Nat) : Option Nat :=
  let p := s.pinna n
  let g (i : Nat) : Group := SMap.get {} p.groups i
  if off = Reg.PNA_SEQ_STS then some (p.pc % 8192 + p.seqShown.code * 2 ^ 16 + p.loops.length % 16 * 2 ^ 18)
  else if off = Reg.PNA_GROUP_STS then some ((List.range 16).map (fun i => (g i).state.code * 2 ^ (2 * i))).sum
  else if off = Reg.PNA_GROUP_ATTR then
    some (packBits 16 (fun i => (g i).attr == .slice) + packBits 16 (fun i => (g i).flags != 0) * 2 ^ 16)
  else if off = Reg.PNA_FAULT_INFO then some (p.faultPc % 8192 + p.faultCode % 65536 * 2 ^ 16)
  else if off = Reg.PNA_VEC_STS then
    some (p.vecQueued % 8 + (if p.vecList.isEmpty then 0 else 2 ^ 3) + packBits 7 (fun i => SMap.get 0 p.masks (i + 1) != 0) * 2 ^ 4)
  else none

/-! Windows (R376, R393). -/

/-- Word `w` of an entry of an MSI-X table. -/
def MsixVec.word (m : MsixVec) (w : Nat) : Nat :=
  match w with
  | 0 => m.addr % 2 ^ 32
  | 1 => m.addr / 2 ^ 32 % 2 ^ 32
  | 2 => m.data % 2 ^ 32
  | _ => if m.masked then 1 else 0

/-- Vectors of a function (R379). -/
def vecCount (fn : Nat) : Nat := if fn = 0 then 1024 else 32

/-- The word of a window. -/
def State.windowWord (s : State) (pg : Page) (off : Nat) : Nat :=
  match pg with
  | .mirror c =>
    if Reg.LML_MIRROR + 16 * c ≤ off ∧ off < Reg.LML_MIRROR + 16 * c + 16 then s.word .fabric off else 0
  | .msix x fn => if off / 16 < vecCount fn then (((s.port x).func fn).vec (off / 16)).word (off % 16 / 4) else 0
  | .pba x fn =>
    if off < vecCount fn / 8 then packBits 32 (fun i => (((s.port x).func fn).vec (8 * off + i)).pend) else 0
  | _ => 0

/-! A word as it is read. -/

/-- A word whose value stands in a block. -/
def State.liveWord (s : State) (r : Requester) (pg : Page) (off : Nat) : Option Nat :=
  if off < 0x40 then s.liveHeader pg off
  else match pg with
    | .top =>
      if off = Reg.TOP_PORT then some (s.clk.mgmtPort % 2 + s.viewPort r % 2 * 2)
      else if off = Reg.TOP_PAGE_PEND then some (s.pagePend (s.viewPort r))
      else none
    | .hif x =>
      if off = Reg.HIF_DMA_STS then some (engineWord (s.port x).engines)
      else if off = Reg.HIF_IDE_STS then some ((s.port x).secureStreams % 64)
      else none
    | .fnc x =>
      if off = Reg.FNC_SRIOV_STS then some ((s.port x).numVfs % 64 + (if (s.port x).vfEn then 64 else 0))
      else if Reg.FNC_VF ≤ off ∧ (off - Reg.FNC_VF) % 32 = 8 ∧ (off - Reg.FNC_VF) / 32 < 32 then
        some (s.word pg off % 128 + (s.port x).vfStatus ((off - Reg.FNC_VF) / 32 + 1))
      else none
    | .thl => s.liveThl off
    | .lch => some (s.liveLch off)
    | .clk => s.liveClk off
    | .tmb => s.liveTmb off
    | .mgt => s.liveMgt r off
    | .prt p => s.livePrt p off
    | .ctx c => s.liveCtx c off
    | .rhz k => s.liveRhz k off
    | .mpe k => s.liveMpe k off
    | .rgn => if Reg.MPE_RGN ≤ off ∧ off < Reg.MPE_RGN + 1024 then
        some ((s.region ((off - Reg.MPE_RGN) / 16)).word ((off - Reg.MPE_RGN) % 16 / 4)) else none
    | .lml l => s.liveLml l off
    | .frd f => if off = Reg.FRD_DMA_STS then some (engineWord (s.frond f).engines) else none
    | .pna n => s.livePna n off
    | _ => none

/-- The word that is held for a requester: `PAGE_CTL.lock` stands once for all copies. -/
def State.heldWord (s : State) (r : Requester) (pg : Page) (off : Nat) : Nat :=
  let v := s.wordAt pg (s.heldCopy r pg off) off
  if off = 0x008 then bits v 0 0 + (if s.lockOf pg then 2 else 0) else v

/-- Bits of a word that a requester reads: SR fields for Thallus alone; the management controller reads the header and RO
fields of pages other than its own, and the meter's page (R7, R448). -/
def readMask (r : Requester) (pg : Page) (off : Nat) : Nat :=
  fieldBits (pg.kind.word off) (fun f =>
    (f.acc != .sr || r == .thallus)
      && (r != .mc || decide (off < 0x40) || f.acc == .ro || pg == .mgt || pg == .clk || pg == .pwr || pg == .tmb || pg == .lch))

/-- A word as a requester reads it. -/
def State.readWord (s : State) (r : Requester) (pg : Page) (off : Nat) : Nat :=
  if pg.kind == .window then s.windowWord pg off
  else if mirrored pg off then 0
  else ((s.liveWord r pg off).getD (s.heldWord r pg off)) &&& readMask r pg off

/-- A read of 4 or 8 bytes, with the effects of R424 on the reader's latch of the timebase. -/
def State.readValue (s : State) (r : Requester) (pg : Page) (off len : Nat) : State × Nat :=
  if pg = .tmb ∧ off = Reg.TMB_NS_LO then s.readNs r len
  else if pg = .tmb ∧ off = Reg.TMB_NS_HI ∧ len = 4 then s.readLatched r false
  else if pg = .tmb ∧ off = Reg.TMB_FRAC then
    let v := s.readLatched r true
    (v.1, v.2 + (if len = 8 then s.readWord r pg Reg.TMB_STS * 2 ^ 32 else 0))
  else (s, s.readWord r pg off + (if len = 8 then s.readWord r pg (off + 4) * 2 ^ 32 else 0))

/-- A register read (R391); a doorbell page reads as zero (R377). -/
def execRegisterRead (r : Requester) (page : Page) (off len : Nat) (s : State) : Host.Outcome State Fault Refusal :=
  regRead s r page off len (fun s => s.readValue r page off len)

end Sys2Proof.Machine
end

