-- ==== Sys2Proof/Machine/Power.lean ====
section
/-!
DEFINITION. The power stage and the throttle (17_power_and_metering.md, R426 to R431, R444, R445).
-/
namespace Sys2Proof.Machine

/-! The power stage. -/

/-- `PWR_OK` falls: every block loses its power but the Lichenometer, on its hold-up (R426, R481). -/
def State.powerDown (s : State) (tripped : Bool) : State :=
  let s1 := s.moduleReset
  { s1 with met := s.met, pwr := { ok := false, stage := false, tripped := tripped },
            clk := { s1.clk with phase := .waitEdge, lockUs := 0, doms := [] } }

/-- Cause 1: a rail left its window; 2: the input below 32.0 V for 50 µs; 3: above 40.0 V for 10 µs. -/
def execInputFaultShutdown (cause millivolts : Nat) (s : State) : Host.Outcome State Fault Refusal :=
  if ¬ (cause = 1 ∨ (cause = 2 ∧ millivolts < 32000) ∨ (cause = 3 ∧ 40000 < millivolts)) then
    notEnabled "the input is within its limits"
  else if !s.pwr.ok then notEnabled "PWR_OK is low"
  else .next (s.powerDown false)

/-- An input in a marginal band. -/
def execInputRange (high : Bool) (millivolts : Nat) (s : State) : Host.Outcome State Fault Refusal :=
  let inBand := if high then decide (39000 < millivolts) && decide (millivolts ≤ 40000)
                else decide (32000 ≤ millivolts) && decide (millivolts < 33000)
  if !inBand then notEnabled "the input is not in the band"
  else if s.clk.inReset then notEnabled "a Module reset is in force"
  else .next (s.raiseLimited secTicks 0 .pwr 0xB105 millivolts 0)

/-- The stage restarts by itself after a shutdown, but not after a thermal trip (R426, R431). -/
def execPowerStageRestart (s : State) : Host.Outcome State Fault Refusal :=
  if s.pwr.stage then notEnabled "the power stage is on"
  else if s.pwr.tripped then notEnabled "the stage stays off after a thermal trip"
  else .next { s with pwr := { s.pwr with stage := true } }

/-! Levels (R427, R428). -/

def State.tauCur (s : State) : Nat := s.fld .pwr Reg.PWR_STS 11 6
def State.tauTh (s : State) : Nat := s.fld .pwr Reg.PWR_STS 17 12
def State.tauCap (s : State) : Nat := s.fld .pwr Reg.PWR_STS 23 18
def State.tauExt (s : State) : Nat := if s.fld .pwr Reg.PWR_STS 24 24 = 1 then s.fld .pwr Reg.PWR_EXT 5 0 else 0

/-- The counter `i` of the `PWR` page. -/
def pwrCounter (i : Nat) : Nat := 0x060 + 4 * i

/-- A level raised, up to 63. -/
def tauUp (t n : Nat) : Nat := min 63 (t + n)

/-- Whether the throttle loops run. -/
def State.throttles (s : State) : Bool := s.pwr.ok && s.clk.phase == .running && !s.clk.inReset

/-- A window of 64 cycles of 1.6 GHz, 8 ticks, begins at an alignment boundary or a multiple of 64 cycles after one: the
largest of the four levels takes effect on every array. -/
def execThrottleWindow (s : State) : Host.Outcome State Fault Refusal :=
  if !s.throttles then notEnabled "the arrays do not run"
  else if s.ticks % 8 ≠ 0 then notEnabled "no window begins"
  else .next (s.setFld .pwr Reg.PWR_STS 5 0 (max (max s.tauCur s.tauTh) (max s.tauCap s.tauExt)))

/-- A sample of 1 µs. Where both conditions of the table hold, the level rises by 8 (log entry 35). -/
def execCurrentSample (watts milliamps : Nat) (s0 : State) : Host.Outcome State Fault Refusal :=
  if !s0.throttles then notEnabled "the current limiter does not run"
  else if !s0.periodOpen 0 200 then notEnabled "the last sample is less than 1 µs old"
  else
    let s := s0.periodNote 0
    let p := s.pwr
    let samples := (watts :: p.samples).take 1000
    let exceeds := decide (4800 < watts) || decide (145500 < milliamps)
    let mean := decide (4000 * 1000 < samples.sum)
    let old := s.tauCur
    let calm := !exceeds && !mean
    let lower := calm && p.quiet + 1 == 100
    let new := if exceeds then tauUp old 8 else if mean then tauUp old 1 else if lower then old - 1 else old
    let s1 : State := { s with pwr := { p with samples := samples, quiet := if calm && !lower then p.quiet + 1 else 0 } }
    let s2 := s1.setFld .pwr Reg.PWR_STS 11 6 new
    .next (if old = 0 ∧ new ≠ 0 then s2.raiseLimited secTicks 0 .pwr 0xB101 watts (milliamps / 100) else s2)

/-- The hottest of some readings, with its index; the first among equals. -/
def hottest (l : List Nat) : Nat × Nat :=
  (l.zipIdx).foldl (fun m x => if m.1 < x.1 then x else m) (l.headD 0, 0)

/-- The readings of the 64 die sensors and then of the 12 stacks, every 100 µs. A thermal trip leaves the
meter its power-fail entry, and logs no event (R431). -/
def execThermalSample (temps : List Nat) (sa : State) : Host.Outcome State Fault Refusal :=
  if temps.length ≠ 76 then .fault .noSuchUnit
  else if !sa.pwr.ok ∨ sa.clk.phase ≠ .running then notEnabled "the sensors are not read"
  else if !sa.periodOpen 1 20000 then notEnabled "the last readings are less than 100 µs old"
  else
    let s := sa.periodNote 1
    let die := temps.take 64
    let hbm := temps.drop 64
    let hot := (List.range 76).foldl (fun m i =>
      let t := temps.getD i 0
      let n := if (if i < 64 then 115 else 105) ≤ t then SMap.get 0 s.pwr.hot i + 1 else 0
      SMap.set 0 m i n) []
    if hot.any (fun e => decide (3 ≤ e.2)) then .next ((if s.met.ready then s.powerFailEntry 2 else s).powerDown true)
    else
      let s0 : State := { s with pwr := { s.pwr with hot := hot } }
      if s.clk.inReset then .next s0
      else
        let lim (i : Nat) : Nat := if i < 64 then s.fld .pwr Reg.PWR_THERM 6 0 else s.fld .pwr Reg.PWR_THERM 14 8
        let first := (List.range 76).find? (fun i => decide (lim i ≤ temps.getD i 0))
        let allCool := (List.range 76).all (fun i => decide (temps.getD i 0 + 3 ≤ lim i))
        let lower := allCool && s.pwr.cool + 1 == 10
        let old := s.tauTh
        let new := match first with
          | some _ => tauUp old 1
          | none => if lower then old - 1 else old
        let hd := hottest die
        let hh := hottest hbm
        let s1 := s0.setWord .pwr Reg.PWR_TEMP (hd.1 % 256 + hd.2 % 64 * 2 ^ 8 + hh.1 % 256 * 2 ^ 16 + hh.2 % 16 * 2 ^ 24)
        let s2 : State := { s1.setFld .pwr Reg.PWR_STS 17 12 new with
                              pwr := { s1.pwr with cool := if allCool && !lower then s.pwr.cool + 1 else 0 } }
        .next (match first with
          | some i => if old = 0 then s2.raiseLimited secTicks 0 .pwr 0xB102 i (temps.getD i 0) else s2
          | none => s2)

/-- The cap loop at the end of a millisecond of mean input power `watts`, with the counts of R430 and R445. -/
def execCapLoop (watts : Nat) (s0 : State) : Host.Outcome State Fault Refusal :=
  if !s0.throttles then notEnabled "the cap loop does not run"
  else if !s0.periodOpen 2 msTicks then notEnabled "the millisecond has not passed"
  else
    let s := s0.periodNote 2
    let cap := s.fld .pwr Reg.PWR_CAP 12 0
    let old := s.tauCap
    let new := if cap < watts then tauUp old 1 else if 100 * watts < 98 * cap then old - 1 else old
    let press := old == 63 && decide (cap < watts)
    let pressed := if press then s.pwr.pressed + 1 else 0
    let conflict := decide (old < s.tauCur) || decide (old < s.tauTh)
    let count (b : Bool) (i : Nat) (s : State) : State := if b then s.bump .pwr (pwrCounter i) else s
    let s1 := count conflict 3 (count press 2 (count (s.tauTh != 0) 1 (count (s.tauCur != 0) 0 s)))
    let s2 : State := { s1.setFld .pwr Reg.PWR_STS 23 18 new with pwr := { s1.pwr with pressed := pressed } }
    let s3 := if 10 ≤ pressed then s2.raiseLimited secTicks 0 .pwr 0xB103 cap watts else s2
    .next (if conflict then s3.raiseLimited secTicks 0 .pwr 0xB106 (s.tauCur + s.tauTh * 256) old else s3)

/-- `THROTTLE_N` has kept a level for 200 cycles of the timebase domain. -/
def execExtThrottle (low : Bool) (s : State) : Host.Outcome State Fault Refusal :=
  if !s.throttles then notEnabled "the pin is not sampled"
  else
    let was := s.tauExt
    let s1 := ({ s with clk := { s.clk with throttleN := !low } } : State).setFld .pwr Reg.PWR_STS 24 24 (if low then 1 else 0)
    .next (if was = 0 ∧ low then s1.raiseLimited secTicks 0 .pwr 0xB104 (s.fld .pwr Reg.PWR_EXT 5 0) 0 else s1)

end Sys2Proof.Machine
end

