-- ==== Sys2Proof/Machine/Registers.lean ====
section
/-!
DEFINITION. Writes of registers: every field by its access code, the registers with effects of their own, and the
header's event registers and lock (00_scope.md, R7 to R9; 15_host_interface.md, R379, R383, R386 to R395, R399).
-/
namespace Sys2Proof.Machine

/-! Fields by their access codes (R7, R9). -/

/-- A word written: RW fields where the lock leaves them, SR fields by Thallus, W1C bits cleared by ones, but for those
that hardware sets in the same cycle (R8). -/
def State.putFields (s : State) (pg : Page) (cp off v : Nat) (rw thallus : Bool) : State :=
  let fs := pg.kind.word off
  let set := fieldBits fs (fun f => (f.acc == .rw && rw) || (f.acc == .sr && thallus))
  let clr := fieldBits fs (fun f => f.acc == .w1c) &&& v &&& (0xFFFFFFFF ^^^ s.setNow pg cp off)
  let old := s.wordAt pg cp off
  s.setWordAt pg cp off ((old &&& (0xFFFFFFFF ^^^ (set ||| clr))) ||| (v &&& set))

/-- Whether a word has a field that a page's lock covers (R390). -/
def hasRw (pg : Page) (off : Nat) : Bool := decide (0x40 ≤ off) && (pg.kind.word off).any (fun f => f.acc == .rw)

/-! The header (R389, R390, R395). -/

/-- The function through which a copy of a page's header is reached. -/
def Page.copyFn (s : State) (pg : Page) (cp : Nat) : Nat × Nat :=
  match (pg.copies s).find? (fun c => c.1 == cp) with
  | some c => c.2
  | none => (0, 0)

/-- The message after a write of `EVT_STS` or `EVT_MASK` that leaves the copy pending (R395). -/
def State.resend (s : State) (pg : Page) (cp : Nat) : State :=
  if s.pendingAt pg cp then s.pageMessage pg cp (pg.copyFn s cp).1 (pg.copyFn s cp).2 else s

/-- `PAGE_CTL.lock`, which the first write after the page's scope reset sets and locks (R7, R390). -/
def State.lockWrite (s : State) (pg : Page) (v : Nat) : State :=
  if s.wlDone.contains pg.id then s
  else
    let s1 := s.setFld pg 0x008 1 1 (bits v 1 1)
    { s1 with wlDone := s1.wlDone ++ [pg.id] }

/-- Whether a requester writes the lock of a page: on shared pages a host does so through the management port only
(R390, R391). -/
def State.writesLock (s : State) (r : Requester) (pg : Page) : Bool :=
  match r with
  | .host x _ _ => s.hostWrites x pg
  | _ => true

/-- A word of the header. -/
def State.headerWrite (s : State) (r : Requester) (pg : Page) (off v : Nat) : State :=
  let cp := s.copyFor r pg
  if off = 0x008 then
    let s1 := s.setWordAt pg cp 0x008 (setBits (s.wordAt pg cp 0x008) 0 0 v)
    if s.writesLock r pg then s1.lockWrite pg v else s1
  else if off = 0x010 ∨ off = 0x014 then (s.putFields pg cp off v true false).resend pg cp
  else if off = 0x02C then
    if v % 2048 < vecCount (pg.copyFn s cp).2 then s.putFields pg cp off v true false else s
  else s.putFields pg 0 off v true false

/-! Functions and their tables (R379, R383, R399). -/

/-- A TDI enters ERROR (R401). -/
def State.tdiError (s : State) (x v cause : Nat) : State :=
  let p := s.port x
  let t := SMap.get {} p.tdis v
  (s.setPort x { p with tdis := SMap.set {} p.tdis v { t with state := .error } }).raise (.hif x) 0xD007 v cause

/-- Whether the TDI of a VF is CONFIG_LOCKED or RUN. -/
def State.tdiHeld (s : State) (x v : Nat) : Bool :=
  match (SMap.get {} (s.port x).tdis v).state with
  | .locked | .run => true
  | _ => false

/-- The VF whose held TDI a write of a word would change (R383): its `FNC_VF_v` fields, or its MSI-X table where the lock
asked for it. -/
def State.heldVf (s : State) (pg : Page) (off : Nat) : Option (Nat × Nat) :=
  match pg with
  | .fnc x =>
    let v := (off - Reg.FNC_VF) / 32 + 1
    if Reg.FNC_VF ≤ off ∧ v ≤ 32 ∧ (off - Reg.FNC_VF) % 32 < 12 ∧ s.tdiHeld x v then some (x, v) else none
  | .msix x v =>
    if v ≠ 0 ∧ s.tdiHeld x v ∧ (SMap.get {} (s.port x).tdis v).lockMsix then some (x, v) else none
  | _ => none

/-- A word of `FNC_VF_v`: a size outside [12, 44] that is not 0 is not written. -/
def State.fncWrite (s : State) (x off v : Nat) : State :=
  if (off - Reg.FNC_VF) % 32 ≠ 8 then s.putFields (.fnc x) 0 off v true false
  else
    let w := bits v 5 0
    let s1 := s.setFld (.fnc x) off 6 6 (bits v 6 6)
    if w = 0 ∨ (12 ≤ w ∧ w ≤ 44) then s1.setFld (.fnc x) off 5 0 w else s1

/-- A pending message of a vector sent where no mask holds it any more. -/
def State.flushVec (s : State) (x fn v : Nat) : State :=
  let p := s.port x
  let f := p.func fn
  let m := f.vec v
  if m.pend ∧ f.msixEn ∧ ¬ f.fnMask ∧ ¬ m.masked then
    (s.setPort x (p.setFunc fn (f.setVec v { m with pend := false }))).emit (.msix x fn m.addr m.data)
  else s

/-- A word of an MSI-X table: address, data and mask of vector `off / 16`. -/
def State.tableWrite (s : State) (x fn off v : Nat) : State :=
  let i := off / 16
  if vecCount fn ≤ i then s
  else
    let p := s.port x
    let f := p.func fn
    let m := f.vec i
    let m1 := match off % 16 / 4 with
      | 0 => { m with addr := m.addr / 2 ^ 32 * 2 ^ 32 + v % 2 ^ 32 / 4 * 4 }
      | 1 => { m with addr := m.addr % 2 ^ 32 + v % 2 ^ 32 * 2 ^ 32 }
      | 2 => { m with data := v % 2 ^ 32 }
      | _ => { m with masked := bit v 0 }
    (s.setPort x (p.setFunc fn (f.setVec i m1))).flushVec x fn i

/-! Registers with effects of their own. -/

/-- A field written if its value lies in an interval. -/
def State.setIn (s : State) (pg : Page) (off hi lo v least most : Nat) : State :=
  let w := bits v hi lo
  if least ≤ w ∧ w ≤ most then s.setFld pg off hi lo w else s

/-- `MPE_ESC`, which locks with its first write of a legal policy (R313). -/
def State.escWrite (s : State) (v : Nat) : State :=
  if s.escLocked ∨ bits v 1 0 = 3 then s
  else
    let s1 := s.setFld .rgn Reg.MPE_ESC 1 0 v
    { s1 with wlDone := s1.wlDone ++ [escLock] }

/-- A word of `RHZ_CHECK_KEY_n`, by Thallus. -/
def State.checkKeyWrite (s : State) (k off v : Nat) : State :=
  let x := s.stack k
  let lo := 8 * (off - Reg.RHZ_CHECK_KEY)
  s.setStack k { x with checkKey := BitVec.ofNat 256 (setBits x.checkKey.toNat (lo + 31) lo v) }

/-- `PRT_REQ_CTL`: done cleared, then go (R353). -/
def State.reqCtl (s : State) (p v : Nat) : State :=
  let s1 := s.putFields (.prt p) 0 Reg.PRT_REQ_CTL v true false
  if bit v 0 then s1.reqGo p else s1

/-- The doorbell at an offset of a context's doorbell page, if there is one (R377). -/
def State.bellAt (s : State) (r : Requester) (c off len v : Nat) : State :=
  match r with
  | .host x fn _ =>
    if off < 0x100 ∧ off % 0x40 = 0 then
      s.bellTake x fn c (sqOff (off / 0x40)) off len v (fun s => s.newTail c (sqOff (off / 0x40)) v)
    else if off = 0x100 then s.bellTake x fn c Reg.CTX_CQ off len v (fun s => s.cqReturn c v)
    else s
  | _ => s

/-- A word of block `pg` at 0x040 or above, or of a window; `rw` says that no lock covers its RW fields. -/
def State.blockWrite (s : State) (r : Requester) (pg : Page) (off v : Nat) (rw : Bool) : State :=
  let plain := s.putFields pg (s.heldCopy r pg off) off v rw (r == .thallus)
  match pg with
  | .top => if off = Reg.TOP_RESET then s.topResetWrite v else plain
  | .fnc x => if Reg.FNC_VF ≤ off ∧ rw then s.fncWrite x off v else plain
  | .mbx x => if off = Reg.THL_MBX_CTL then s.mbxCtl x v else plain
  | .clk =>
    if Reg.CLK_DOM ≤ off ∧ off < Reg.CLK_DOM + 16 then (if rw then s.domWrite ((off - Reg.CLK_DOM) / 4) v else s) else plain
  | .tmb =>
    if off = Reg.TMB_SET_CTL then s.setCtlWrite v
    else if off = Reg.TMB_SLEW then s.slewWrite v
    else if off = Reg.TMB_SLEW_CTL then s.setIn .tmb off 15 0 v 1 65535
    else if off = Reg.TMB_OUT_CTL then s.outCtlWrite v
    else plain
  | .pwr =>
    if !rw then s
    else if off = Reg.PWR_CAP then s.setIn .pwr off 12 0 v 1200 4000
    else if off = Reg.PWR_THERM then (s.setIn .pwr off 6 0 v 70 105).setIn .pwr off 14 8 v 70 95
    else if off = Reg.PWR_EXT then s.setIn .pwr off 5 0 v 1 63
    else plain
  | .prt p =>
    if off = Reg.PRT_RESET then s.partResetWrite p v
    else if off = Reg.PRT_REQ_CTL then s.reqCtl p v
    else plain
  | .est p =>
    if Reg.PRT_EST ≤ off ∧ rw then
      let slot := (off - Reg.PRT_EST) / 32 + 1
      match (off - Reg.PRT_EST) % 32 / 4 with
      | 0 => if slot ≤ 63 then s.estWrite p slot (some v) none else s
      | 1 => if slot ≤ 63 then s.estWrite p slot none (some v) else s
      | _ => s
    else if Reg.PRT_EST ≤ off then s
    else plain
  | .rhz k =>
    if off = Reg.RHZ_STAGE_SPLIT then (if rw then s.stageWrite k v else s)
    else if off = Reg.RHZ_RED_CTL then (if rw then s.setIn pg off 4 0 v 4 16 else s)
    else if Reg.RHZ_CHECK_KEY ≤ off ∧ off < Reg.RHZ_CHECK_KEY + 32 then
      (if r = .thallus then s.checkKeyWrite k off v else s)
    else plain
  | .rgn => if off = Reg.MPE_ESC then s.escWrite v else plain
  | .lml l =>
    if off = Reg.LML_LINK_CTL then s.linkCtl l v (!rw)
    else if off = Reg.LML_REKEY_CTL then s.rekeyCtl l v (!rw)
    else plain
  | .frd f =>
    if Reg.FRD_STAT ≤ off ∧ (off - Reg.FRD_STAT) % 32 = 0 ∧ (off - Reg.FRD_STAT) / 32 < 63 ∧ rw then
      s.statElemWrite f ((off - Reg.FRD_STAT) / 32 + 1) v
    else plain
  | .ctx c =>
    if off = Reg.CTX_RESET then s.ctxResetWrite c v
    else if off = Reg.CTX_CQ + 8 ∧ rw then s.cqReturn c (bits v 11 0)
    else if off = Reg.CTX_CAP_CTL ∧ rw then s.capCtl c v
    else plain
  | .mirror c =>
    if Reg.LML_MIRROR + 16 * c ≤ off ∧ off < Reg.LML_MIRROR + 16 * c + 16 then s.putFields .fabric 0 off v rw false else s
  | .msix x fn => s.tableWrite x fn off v
  | .pba _ _ | .bell _ => s
  | _ => plain

/-! Accesses (R386, R390, R391). -/

/-- The page whose lock covers a page's RW fields: the mirror window is a view of the fabric page (R393). -/
def Page.lockPage : Page → Page
  | .mirror _ => .fabric
  | pg => pg

/-- A word, where writes of the requester take effect. -/
def State.wordWrite (s : State) (r : Requester) (pg : Page) (locked : Bool) (off v : Nat) : State :=
  if !s.mayWrite r pg off then s
  else if off < 0x40 ∧ pg.kind ≠ .window then s.headerWrite r pg off v
  else s.blockWrite r pg off v (!locked)

/-- The words that an access covers, with their values. -/
def accessWords (off len value : Nat) : List (Nat × Nat) :=
  if len = 8 then [(off, value % 2 ^ 32), (off + 4, value / 2 ^ 32 % 2 ^ 32)] else [(off, value % 2 ^ 32)]

/-- Whether a word of a page has a field that a lock covers; of a mirror window, its context's words alone (R390, R393). -/
def Page.coveredAt (pg : Page) (off : Nat) : Bool :=
  match pg with
  | .mirror c => decide (Reg.LML_MIRROR + 16 * c ≤ off) && decide (off < Reg.LML_MIRROR + 16 * c + 16) && hasRw .fabric off
  | pg => hasRw pg off

/-- Whether a write meets a lock (R390). -/
def State.meetsLock (s : State) (r : Requester) (pg : Page) (ws : List (Nat × Nat)) : Bool :=
  s.lockBinds r pg.lockPage && ws.any (fun w => s.mayWrite r pg w.1 && pg.coveredAt w.1)

/-- An access of legal size to a page that its requester reaches. Words 0 and 1 of an estimator slot written together
are one write (R176). -/
def State.accessWrite (s : State) (r : Requester) (pg : Page) (off len value : Nat) : State :=
  let ws := accessWords off len value
  match ws.findSome? (fun w => if s.mayWrite r pg w.1 then s.heldVf pg w.1 else none) with
  | some (x, v) => s.tdiError x v 1
  | none =>
    let locked := s.lockBinds r pg.lockPage
    let s1 := match pg with
      | .est p =>
        if Reg.PRT_EST ≤ off ∧ (off - Reg.PRT_EST) % 32 = 0 ∧ (off - Reg.PRT_EST) / 32 < 63 ∧ len = 8 then
          if locked ∨ !s.mayWrite r pg off then s
          else s.estWrite p ((off - Reg.PRT_EST) / 32 + 1) (some (value % 2 ^ 32)) (some (value / 2 ^ 32 % 2 ^ 32))
        else ws.foldl (fun s w => s.wordWrite r pg locked w.1 w.2) s
      | .bell c => s.bellAt r c off len value
      | pg => ws.foldl (fun s w => s.wordWrite r pg locked w.1 w.2) s
    if s.meetsLock r pg ws then s1.lockMet r pg off else s1

/-- A write of `len` bytes at `off` of a page. -/
def State.regPut (s : State) (r : Requester) (pg : Page) (off len value : Nat) : State :=
  if s.tdiRefuses r then s.barRefuse r (barOffset pg off)
  else if !((len == 4 || len == 8) && off % len == 0) then s.badSize r pg off
  else if !s.reaches r pg then s.denied r pg off
  else s.accessWrite r pg off len value

/-- The meaning of a command that is a write access. -/
def putCommand (s : State) (r : Requester) (pg : Page) (off len value : Nat) : Host.Outcome State Fault Refusal :=
  if !pg.exists then .fault .noSuchUnit
  else if !s.canAsk r then notEnabled "the requester cannot make accesses now"
  else .next (s.regPut r pg off len value)

/-- A write of the header of a page; windows have none. -/
def headerCommand (s : State) (r : Requester) (pg : Page) (off value : Nat) : Host.Outcome State Fault Refusal :=
  if pg.kind == .window then .fault .noSuchUnit else putCommand s r pg off 4 value

def execRegisterWrite (r : Requester) (page : Page) (off len value : Nat) (s : State) : Host.Outcome State Fault Refusal :=
  putCommand s r page off len value

def execEvtStsWrite (r : Requester) (page : Page) (value : Nat) (s : State) : Host.Outcome State Fault Refusal :=
  headerCommand s r page 0x010 value

def execEvtMaskWrite (r : Requester) (page : Page) (value : Nat) (s : State) : Host.Outcome State Fault Refusal :=
  headerCommand s r page 0x014 value

def execPageCtlLock (r : Requester) (page : Page) (value : Nat) (s : State) : Host.Outcome State Fault Refusal :=
  headerCommand s r page 0x008 value

end Sys2Proof.Machine
end

