-- ==== Sys2Proof/Machine/Ports.lean ====
section
/-!
DEFINITION. Host ports: resets, training, configuration requests and error reports (15_host_interface.md, R374 to R376,
R379; 19_module_hardware.md, R480).
-/
namespace Sys2Proof.Machine

/-! Resets (R375). -/

/-- The configuration space of every function of a port at its reset values. -/
def Port.bareConfig (p : Port) : Port :=
  { p with fns := [], numVfs := 0, vfEn := false, bar0 := 0, vfBar0 := 0, vfBar2 := 0 }

/-- The port's own pages at their reset values. -/
def State.resetPortPages (s : State) (x : Nat) : State :=
  let s1 := s.resetPages .module (fun pg => pg == .hif x || pg == .fnc x)
  { s1 with wlDone := s1.wlDone.filter (fun i => i ≠ (Page.hif x).id ∧ i ≠ (Page.fnc x).id) }

/-- The partitions that a port owns. -/
def State.partsOfPort (s : State) (x : Nat) : List Nat :=
  (List.range 4).filter (fun p => decide (p < s.layout) && s.portOfPart p == x)

/-- A reset of a port: its functions, its pages, its TDIs and streams, and the partitions it owns; then its event. -/
def State.portReset (s : State) (x cause : Nat) : State :=
  let s1 := s.setPort x (s.port x).bareConfig
  let s2 := (s1.partsOfPort x).foldl (fun s p => s.partBegin p) s1
  let p := s2.port x
  let s3 := (s2.resetPortPages x).setPort x
    { p with perst := cause == 3, training := cause != 3 && s2.image3Runs, linkUp := false, ide := [], tdis := [] }
  s3.raise (.hif x) 0xD004 x cause

/-- A link-down (1) or hot reset (2) of a port whose link is up, or a fundamental reset (3): PERST# falls. During a Module
reset only the level of PERST# matters. -/
def execPortReset (x cause : Nat) (s : State) : Host.Outcome State Fault Refusal :=
  if ¬ (x < 2 ∧ 1 ≤ cause ∧ cause ≤ 3) then .fault .noSuchUnit
  else if !s.pwr.ok then notEnabled "PWR_OK is low"
  else if cause = 3 then
    if (s.port x).perst then notEnabled "PERST# is low already"
    else if s.clk.inReset then .next (s.setPort x { s.port x with perst := true })
    else .next (s.portReset x cause)
  else if s.clk.inReset ∨ !(s.port x).linkUp then notEnabled "the port's link is down"
  else .next (s.portReset x cause)

/-- The port's copies of the headers of shared pages return to their reset values (R389). -/
def State.resetCopies (s : State) (x : Nat) : State :=
  let pages := [Page.top, .thl, .lch, .clk, .tmb, .pwr, .mgt, .rgn, .fabric]
  pages.foldl (fun s pg =>
    let s1 := s.setWordAt pg x 0x008 (setBits (s.wordAt pg x 0x008) 0 0 0)
    [0x010, 0x014, 0x018, 0x02C].foldl (fun s off => s.setWordAt pg x off 0) s1) s

/-- A function-level reset of PF0. Its SR-IOV control stands in its configuration space. -/
def execPf0Flr (x : Nat) (s : State) : Host.Outcome State Fault Refusal :=
  if ¬ x < 2 then .fault .noSuchUnit
  else if !(s.port x).linkUp then notEnabled "the port's link is down"
  else
    let p := s.port x
    .next ((s.setPort x (({ p with numVfs := 0, vfEn := false, bar0 := 0, vfBar0 := 0, vfBar2 := 0 } : Port).setFunc 0 {})).resetCopies x)

/-! Training (R375, R480). -/

/-- PERST# rises: training begins now, or once image 3 runs. -/
def execPerstNRising (x : Nat) (s : State) : Host.Outcome State Fault Refusal :=
  if ¬ x < 2 then .fault .noSuchUnit
  else if !s.pwr.ok ∨ !(s.port x).perst then notEnabled "PERST# is high, or PWR_OK is low"
  else .next (s.setPort x { s.port x with perst := false, training := s.image3Runs && !s.clk.inReset })

/-- Training ends at a speed (4 is 16.0, 5 is 32.0, 6 is 64.0 GT/s) and a width; the spec gives flit mode at 64.0 GT/s,
and leaves it open below. -/
def execPcieLinkTrained (x speed width : Nat) (s : State) : Host.Outcome State Fault Refusal :=
  if ¬ (x < 2 ∧ (speed = 4 ∨ speed = 5 ∨ speed = 6) ∧ (width = 4 ∨ width = 8 ∨ width = 16)) then .fault .noSuchUnit
  else if s.clk.inReset ∨ !(s.port x).training then notEnabled "the port is not training"
  else
    let s1 := s.setPort x { s.port x with training := false, linkUp := true }
    let d := s1.drawWord
    let s2 := if speed = 6 then s1 else d.1
    let flit := if speed = 6 then 1 else d.2 % 2
    let s3 := s2.setWord (.hif x) Reg.HIF_LINK_STS (speed + width * 2 ^ 4 + flit * 2 ^ 9)
    .next (if speed = 6 ∧ width = 16 then s3 else s3.raise (.hif x) 0xD005 x (speed + width * 2 ^ 4))

/-! Configuration requests (R374, R376, R379). -/

/-- Held messages of a function sent where nothing masks them any more. -/
def State.flushFn (s : State) (x fn : Nat) : State :=
  (((s.port x).func fn).vecs.map Prod.fst).foldl (fun s v => s.flushVec x fn v) s

/-- VF Enable as written; functions that cease to exist lose their configuration. -/
def Port.vfEnable (p : Port) (on : Bool) : Port :=
  if on then { p with vfEn := true }
  else { p with vfEn := false, fns := p.fns.filter (fun f => f.1 = 0), tdis := [] }

/-- A configuration write to a register of the model's numbering (log entry 38): 0 power state, 1 MSI-X control, 2 SR-IOV
control, 3 NumVFs, 4 to 6 the bases of PF0's BAR0 and of the VFs' BAR0 and BAR2. -/
def State.configWrite (s : State) (x fn off value : Nat) : State :=
  let p := s.port x
  let f := p.func fn
  match off with
  | 0 => s.setPort x (p.setFunc fn { f with d3hot := bits value 1 0 == 3 })
  | 1 => (s.setPort x (p.setFunc fn { f with msixEn := bit value 15, fnMask := bit value 14 })).flushFn x fn
  | 2 => if fn = 0 then s.setPort x (p.vfEnable (bit value 0)) else s
  | 3 => if fn = 0 ∧ !p.vfEn ∧ value ≤ 32 then s.setPort x { p with numVfs := value } else s
  | 4 => if fn = 0 then s.setPort x { p with bar0 := value % 2 ^ 64 / 2 ^ 26 * 2 ^ 26 } else s
  | 5 => if fn = 0 then s.setPort x { p with vfBar0 := value % 2 ^ 64 / 2 ^ 18 * 2 ^ 18 } else s
  | 6 => if fn = 0 then s.setPort x { p with vfBar2 := value % 2 ^ 64 / 2 ^ 12 * 2 ^ 12 } else s
  | _ => s

/-- A word of configuration space as a read answers it: what `configWrite` writes, the maximum vectors beside the MSI-X
control, and from 7 on what R374 fixes: the device, the class code, TotalVFs, InitialVFs, First VF Offset, VF Stride, the
supported page size (4 KiB), the largest payload (512 B) and Molesque's vendor identifier, which the spec does not state.
The rest, and every other BAR, reads 0 (log entry 38). -/
def State.configRead (s : State) (x fn off : Nat) : Nat :=
  let p := s.port x
  let f := p.func fn
  let own (v : Nat) : Nat := if fn = 0 then v else 0
  match off with
  | 0 => if f.d3hot then 3 else 0
  | 1 => (if fn = 0 then 1023 else 31) + (if f.fnMask then 2 ^ 14 else 0) + (if f.msixEn then 2 ^ 15 else 0)
  | 2 => own (if p.vfEn then 1 else 0)
  | 3 => own p.numVfs
  | 4 => own p.bar0
  | 5 => own p.vfBar0
  | 6 => own p.vfBar2
  | 7 => if fn = 0 then 0x1536 else 0x1537
  | 8 => 0x120000
  | 9 | 10 => own 32
  | 11 | 12 | 13 => own 1
  | 14 => 2
  | 15 => Config.vendorId.toNat
  | _ => 0

/-- A configuration request, a write or (without a value) a read: Request Retry Status before the link is up (R480). -/
def execConfigurationRequest (x fn off : Nat) (value : Option Nat) (s : State) : Host.Outcome State Fault Refusal :=
  if ¬ (x < 2 ∧ fn ≤ 32) then .fault .noSuchUnit
  else if !s.pwr.ok ∨ (s.port x).perst then notEnabled "the port is held in its fundamental reset"
  else if !(s.port x).linkUp then .next (s.emit (.retryStatus x))
  else if fn ≠ 0 ∧ !((s.port x).vfEn && decide (fn ≤ (s.port x).numVfs)) then notEnabled "the function is not enabled"
  else .next (match value with
    | some v => s.configWrite x fn off v
    | none => s.emit (.config x fn off (s.configRead x fn off)))

/-! Errors (R374, R398). -/

def execAerError (x : Nat) (uncorrectable : Bool) (status : Nat) (s : State) : Host.Outcome State Fault Refusal :=
  if ¬ x < 2 then .fault .noSuchUnit
  else if s.clk.inReset then notEnabled "a Module reset is in force"
  else
    let s1 := s.bump (.hif x) (hifCounter (if uncorrectable then 1 else 0))
    .next (if uncorrectable then s1.raise (.hif x) 0xD008 x status else s1)

end Sys2Proof.Machine
end

