-- ==== Sys2Proof/Machine/Spdm.lean ====
section
/-!
DEFINITION. The SPDM 1.3 responder of Thallus (13_trust_keys_attestation.md, R336, R337; 14_tenancy.md, R366;
15_host_interface.md, R384; 11_lumur_fabric.md, R266). The layouts of the messages, their signatures and the key schedule
are those of DMTF DSP0274, which the spec names and does not repeat (PRESUMED, log entry 39); messages stand as they are
inside their session.
-/
namespace Sys2Proof.Machine

/-! Connections: of the DOE mailboxes of ports 0 and 1, and of the management controller's MCTP endpoint (2; R449). -/

def State.spdm (s : State) (x : Nat) : Spdm := if x < 2 then (s.port x).spdm else s.mgt.spdm

def State.setSpdm (s : State) (x : Nat) (c : Spdm) : State :=
  if x < 2 then s.setPort x { s.port x with spdm := c } else { s with mgt := { s.mgt with spdm := c } }

/-- A message to the requester. -/
def State.spdmEmit (s : State) (x : Nat) (bs : List Byte) : State :=
  if x < 2 then s.emit (.spdm x bs) else s.emit (.mctp bs)

/-- Whether messages of the connection arrive. -/
def State.spdmPath (s : State) (x : Nat) : Bool :=
  !s.clk.inReset && (if x < 2 then (s.port x).linkUp else s.fld .mgt Reg.MGT_STS 0 0 == 1)

/-! Messages. -/

/-- The header of a message: version 1.3, code and two parameters. -/
def spdmHead (code p1 p2 : Nat) : List Byte := leBytes 1 0x13 ++ leBytes 1 code ++ leBytes 1 p1 ++ leBytes 1 p2

/-- An ERROR response. -/
def spdmError (code : Nat) (data : Nat := 0) : List Byte := spdmHead 0x7F code data

/-- Code and parameters of a request. -/
def spdmCode (m : List Byte) : Nat := leNat (slice m 1 1)
def param1 (m : List Byte) : Nat := leNat (slice m 2 1)
def param2 (m : List Byte) : Nat := leNat (slice m 3 1)

/-- The certificate chain of slot 0 (R323). -/
def State.certChain (s : State) : List Byte :=
  let cert := s.thl.dir.certs.headD []
  leBytes 2 (52 + cert.length) ++ leBytes 2 0 ++ slice Config.rootHash 0 48 ++ cert

/-- The message that an SPDM signature with a context string is taken over. -/
def spdmSigned (context : String) (transcript : List Byte) : List Byte :=
  let ctx := ascii context
  (List.range 4).flatMap (fun _ => ascii "dmtf-spdm-v1.3.*") ++ leBytes (36 - ctx.length) 0 ++ ctx ++ sha384 transcript

/-- A signature of the RSA identity key over a transcript, after its self-check; none where Thallus signs nothing (R317,
R322, R337). -/
def State.spdmSign (s : State) (context : String) (transcript : List Byte) : State × Option (List Byte) :=
  match s.signRefusal with
  | some _ => (s, none)
  | none =>
    let c := s.signChecked none
    if !c.2 then (c.1, none) else (c.1.bump .thl 0x054, some (rsaSign s.thl.idKey (spdmSigned context transcript)))

/-- The ERROR response of a refused signature. -/
def noSignature : List Byte := spdmError 0x05

/-- The string that the key schedule expands with. -/
def binConcat (label : String) (context : List Byte) : List Byte :=
  leBytes 2 48 ++ ascii "spdm1.3 " ++ ascii label ++ context

/-- The finished key of a direction under a handshake secret. -/
def finishedKey (secret : List Byte) (label : String) (th : List Byte) : List Byte :=
  hkdfExpand (hkdfExpand secret (binConcat label th) 48) (binConcat "finished" []) 48

/-- The export master secret of a handshake secret and the hash of the whole transcript. -/
def exportMaster (secret full : List Byte) : List Byte :=
  hkdfExpand (hkdfExtract (hkdfExpand secret (binConcat "derived" []) 48) (leBytes 48 0)) (binConcat "exp master" full) 48

/-! Responses: each takes the request and gives the state and the response. -/

/-- GET_VERSION: the connection and its sessions begin anew. -/
def State.spdmVersion (s : State) (x : Nat) (m : List Byte) : State × List Byte :=
  let c := s.spdm x
  if m.length < 4 then (s, spdmError 0x01)
  else
    let resp := leBytes 1 0x10 ++ leBytes 3 0x04 ++ leBytes 1 0 ++ leBytes 1 1 ++ leBytes 2 0x1300
    (s.setSpdm x { stage := 1, vca := m ++ resp, nextHandle := c.nextHandle, nextSession := c.nextSession }, resp)

/-- The responder's capability flags: certificates, challenge, signed fresh measurements, encryption, MAC, mutual
authentication, key exchange, encapsulated requests, heartbeat, key update and chunks. -/
def spdmFlags : Nat :=
  2 ^ 1 + 2 ^ 2 + 2 ^ 4 + 2 ^ 5 + 2 ^ 6 + 2 ^ 7 + 2 ^ 8 + 2 ^ 9 + 2 ^ 12 + 2 ^ 13 + 2 ^ 14 + 2 ^ 17

/-- GET_CAPABILITIES. The crypto timeout exponent and the largest message are values that the spec leaves open. -/
def State.spdmCapabilities (s : State) (x : Nat) (m : List Byte) : State × List Byte :=
  let c := s.spdm x
  if c.stage ≠ 1 then (s, spdmError 0x04)
  else if m.length < 20 then (s, spdmError 0x01)
  else
    let d := s.drawFree 5
    let resp := spdmHead 0x61 0 0 ++ leBytes 1 0 ++ d.2.take 1 ++ leBytes 2 0 ++ leBytes 4 spdmFlags ++ leBytes 4 0x40000
      ++ d.2.drop 1
    (d.1.setSpdm x { c with stage := 2, transfer := leNat (slice m 12 4), vca := c.vca ++ m ++ resp }, resp)

/-- What the responder supports of an algorithm table: ECDHE on P-384, AES-256-GCM, RSASSA-3072, the SPDM key schedule. -/
def algSupported : Nat → Nat
  | 2 => 0x10
  | 3 => 0x02
  | 4 => 0x04
  | 5 => 0x01
  | _ => 0

/-- The algorithm tables of a request, answered in turn; `n` tables are left. -/
def algTables (m : List Byte) : Nat → List Byte
  | 0 => []
  | n + 1 =>
    leBytes 1 (leNat (slice m 0 1)) ++ leBytes 1 0x20 ++ leBytes 2 (leNat (slice m 2 2) &&& algSupported (leNat (slice m 0 1)))
      ++ algTables (m.drop (4 + 4 * (leNat (slice m 1 1) % 16))) n

/-- NEGOTIATE_ALGORITHMS: a request that offers neither RSASSA-3072 nor SHA-384 is invalid. -/
def State.spdmAlgorithms (s : State) (x : Nat) (m : List Byte) : State × List Byte :=
  let c := s.spdm x
  let ext := 4 * (leNat (slice m 28 1) + leNat (slice m 29 1))
  if c.stage ≠ 2 then (s, spdmError 0x04)
  else if m.length < 32 ∨ !bit (leNat (slice m 8 4)) 2 ∨ !bit (leNat (slice m 12 4)) 1 then (s, spdmError 0x01)
  else
    let tables := algTables (m.drop (32 + ext)) (param1 m)
    let body := leBytes 1 (leNat (slice m 6 1) &&& 1) ++ leBytes 1 (leNat (slice m 7 1) &&& 2) ++ leBytes 4 4 ++ leBytes 4 4
      ++ leBytes 4 2 ++ leBytes 16 0 ++ tables
    let resp := spdmHead 0x63 (param1 m) 0 ++ leBytes 2 (6 + body.length) ++ body
    (s.setSpdm x { c with stage := 3, vca := c.vca ++ m ++ resp }, resp)

/-- GET_DIGESTS: slot 0 alone (R384). -/
def State.spdmDigests (s : State) (x : Nat) (m : List Byte) : State × List Byte :=
  let c := s.spdm x
  if c.stage ≠ 3 then (s, spdmError 0x04)
  else
    let resp := spdmHead 0x01 1 1 ++ sha384 s.certChain
    (s.setSpdm x { c with certs := c.certs ++ m ++ resp }, resp)

/-- GET_CERTIFICATE: a portion of the chain of slot 0. -/
def State.spdmCertificate (s : State) (x : Nat) (m : List Byte) : State × List Byte :=
  let c := s.spdm x
  let chain := s.certChain
  let off := leNat (slice m 4 2)
  if c.stage ≠ 3 then (s, spdmError 0x04)
  else if m.length < 8 ∨ param1 m ≠ 0 ∨ chain.length ≤ off then (s, spdmError 0x01)
  else
    let part := (chain.drop off).take (leNat (slice m 6 2))
    let resp := spdmHead 0x02 0 0 ++ leBytes 2 part.length ++ leBytes 2 (chain.length - off - part.length) ++ part
    (s.setSpdm x { c with certs := c.certs ++ m ++ resp }, resp)

/-- The summary of measurements that a request asks for; the spec gives it no value. -/
def State.spdmSummary (s : State) (kind : Nat) : State × List Byte := if kind = 0 then (s, []) else s.drawFree 48

/-- CHALLENGE: signed over the negotiation, the certificate requests and this exchange. -/
def State.spdmChallenge (s : State) (x : Nat) (m : List Byte) : State × List Byte :=
  let c := s.spdm x
  if c.stage ≠ 3 then (s, spdmError 0x04)
  else if m.length < 44 ∨ param1 m ≠ 0 then (s, spdmError 0x01)
  else if !s.thl.trngOk then (s, spdmError 0x03)
  else
    let d := s.draw 32
    let h := d.1.spdmSummary (param2 m)
    let body := spdmHead 0x03 0 1 ++ sha384 s.certChain ++ d.2 ++ h.2 ++ leBytes 2 0 ++ slice m 36 8
    match h.1.spdmSign "responder-challenge_auth signing" (c.vca ++ c.certs ++ m ++ body) with
    | (s1, none) => (s1, noSignature)
    | (s1, some sig) => (s1.setSpdm x { c with certs := [] }, body ++ sig)

/-! Measurements (R336). -/

/-- The indices of the measurement blocks. -/
def measIndices : List Nat := [1, 2, 3, 4, 5, 6, 7, 8, 9, 10, 11, 0xF0]

/-- The type and value of a block; `cal` is the complete Calyptra. -/
def State.measValue (s : State) (cal : List Byte) (i : Nat) : Nat × List Byte :=
  if i = 1 then (0x00, Config.romDigest)
  else if i ≤ 5 then (0x01, sha384 (s.img (i - 1) (s.runningCopy (i - 1))).body)
  else if i = 6 then (0x87, imageNos.flatMap (fun j => leBytes 1 (s.svn j)))
  else if i ≤ 10 then (0x03, sha384 (calSection (i - 4) (s.calBody (i - 4))))
  else if i = 11 then (0x84, calSection 7 (s.calBody 7))
  else (0x84, cal)

/-- A measurement block. -/
def State.measBlock (s : State) (cal : List Byte) (i : Nat) : List Byte :=
  let v := s.measValue cal i
  leBytes 1 i ++ leBytes 1 1 ++ leBytes 2 (3 + v.2.length) ++ leBytes 1 v.1 ++ leBytes 2 v.2.length ++ v.2

/-- The blocks that a request names; none where it names one that does not exist. -/
def measAsked (op : Nat) : Option (List Nat) :=
  if op = 0 then some [] else if op = 0xFF then some measIndices else if measIndices.contains op then some [op] else none

/-- The complete Calyptra of a response, if one of its blocks is 0xF0, with the nonce of the request, after its self-check;
none where that fails. Its requester code is open for a DOE mailbox (R333). -/
def State.measCalyptra (s : State) (x : Nat) (ids : List Nat) (nonce : List Byte) : State × Option (List Byte) :=
  if !ids.contains 0xF0 then (s, some [])
  else
    let d := s.drawWord
    let doc := s.calyptra (if x < 2 then d.2 % 65536 else 0xFFFD) nonce
    let b := d.1.ownBlock 6 doc
    let c := b.1.signChecked (some 6)
    if !c.2 then (c.1, none) else (c.1.bump .thl 0x054 2, some (doc ++ b.2))

/-- GET_MEASUREMENTS, signed where bit 0 of the attributes asks for it. -/
def State.spdmMeasurements (s : State) (x : Nat) (m : List Byte) : State × List Byte :=
  let c := s.spdm x
  let signed := bit (param1 m) 0
  let nonce := if signed then slice m 4 32 else leBytes 32 0
  if c.stage ≠ 3 then (s, spdmError 0x04)
  else match measAsked (param2 m) with
    | none => (s, spdmError 0x01)
    | some ids =>
      if m.length < (if signed then 45 else 12) ∨ (signed ∧ leNat (slice m 36 1) ≠ 0) then (s, spdmError 0x01)
      else if (signed ∨ ids.contains 0xF0) ∧ s.signRefusal.isSome then (s, noSignature)
      else if !s.thl.trngOk then (s, spdmError 0x03)
      else match s.measCalyptra x ids nonce with
      | (s1, none) => (s1, noSignature)
      | (s1, some cal) =>
        let record := ids.flatMap (fun i => s.measBlock cal i)
        let d := s1.draw 32
        let body := spdmHead 0x60 (if param2 m = 0 then measIndices.length else 0) 0 ++ leBytes 1 ids.length
          ++ leBytes 3 record.length ++ record ++ d.2 ++ leBytes 2 0 ++ slice m (if signed then 37 else 4) 8
        if !signed then (d.1.setSpdm x { c with meas := c.meas ++ m ++ body }, body)
        else match d.1.spdmSign "responder-measurements signing" (c.vca ++ c.meas ++ m ++ body) with
          | (s2, none) => (s2, noSignature)
          | (s2, some sig) => (s2.setSpdm x { c with meas := [] }, body ++ sig)

/-! Sessions (R384). -/

def Spdm.session (c : Spdm) (id : Nat) : Option Session := SMap.get none c.sessions id
def Spdm.setSession (c : Spdm) (id : Nat) (v : Option Session) : Spdm :=
  { c with sessions := SMap.set none c.sessions id v }

/-- KEY_EXCHANGE: at most 8 sessions. The heartbeat period and the request for mutual authentication are values that the
spec leaves open; the responder's part of the session identifier counts up. -/
def State.spdmKeyExchange (s : State) (x : Nat) (m : List Byte) : State × List Byte :=
  let c := s.spdm x
  if c.stage ≠ 3 then (s, spdmError 0x04)
  else if m.length < 138 ∨ param2 m ≠ 0 ∨ !ecdhValid (slice m 40 96) then (s, spdmError 0x01)
  else if 8 ≤ c.sessions.length then (s, spdmError 0x0A)
  else if !s.thl.trngOk then (s, spdmError 0x03)
  else
    let k := s.draw 48
    let n := k.1.draw 32
    let d := n.1.drawFree 2
    let h := d.1.spdmSummary (param1 m)
    let priv := ecdhSecret k.2
    let id := leNat (slice m 4 2) + c.nextSession % 65536 * 65536
    let body := spdmHead 0x64 (leNat (slice d.2 0 1)) 0 ++ leBytes 2 c.nextSession ++ slice d.2 1 1 ++ leBytes 1 0
      ++ n.2 ++ ecdhPublic priv ++ h.2 ++ leBytes 2 0
    let th := c.vca ++ sha384 s.certChain ++ m ++ body
    match h.1.spdmSign "responder-key_exchange_rsp signing" th with
    | (s1, none) => (s1, noSignature)
    | (s1, some sig) =>
      let secret := hkdfExtract (leBytes 48 0) (ecdhShared priv (slice m 40 96))
      let th1 := sha384 (th ++ sig)
      let verify := hmac384 (finishedKey secret "rsp hs data" th1) th1
      let y : Session := { transcript := th ++ sig ++ verify, secret := finishedKey secret "req hs data" th1 ++ secret }
      (s1.setSpdm x { c.setSession id (some y) with nextSession := c.nextSession + 1 }, body ++ sig ++ verify)

/-- FINISH: the requester's signature, where it authenticates itself under the keys of its certificates, and its check of
the handshake. -/
def State.spdmFinish (s : State) (x id : Nat) (m chain keys : List Byte) : State × List Byte :=
  let c := s.spdm x
  match c.session id with
  | none => (s, spdmError 0x04)
  | some y =>
    let signed := bit (param1 m) 0
    let sigLen := if signed then 384 else 0
    if y.established then (s, spdmError 0x04)
    else if m.length < 4 + sigLen + 48 then (s, spdmError 0x01)
    else
      let th := y.transcript ++ (if signed then sha384 chain else []) ++ m.take 4
      let sigOk := !signed || (decide (leNat (slice keys 384 4) = 65537)
        && rsaVerify 384 (beNat (slice keys 0 384)) (spdmSigned "requester-finish signing" th) (slice m 4 384))
      let th2 := th ++ slice m 4 sigLen
      let okay := slice m (4 + sigLen) 48 == hmac384 (y.secret.take 48) (sha384 th2)
      if !sigOk ∨ !okay then (s.setSpdm x (c.setSession id none), spdmError 0x06)
      else
        let resp := spdmHead 0x65 0 0
        let full := sha384 (th2 ++ slice m (4 + sigLen) 48 ++ resp)
        let z : Session := { established := true, transcript := full, secret := exportMaster (y.secret.drop 48) full,
                             keys := if signed then keys else [] }
        (s.setSpdm x (c.setSession id (some z)), resp)

/-- A request inside an established session. -/
def State.inSession (s : State) (x id : Nat) (act : Session → State × List Byte) : State × List Byte :=
  match (s.spdm x).session id with
  | some y => if y.established then act y else (s, spdmError 0x04)
  | none => (s, spdmError 0x0B)

/-- KEY_UPDATE: operations 1 to 3 with a tag. -/
def State.spdmUpdate (s : State) (x id : Nat) (m : List Byte) : State × List Byte :=
  s.inSession x id (fun y =>
    if m.length < 4 ∨ param1 m = 0 ∨ 3 < param1 m then (s, spdmError 0x01)
    else
      let n := if param1 m = 3 then 0 else 1
      (s.setSpdm x ((s.spdm x).setSession id (some { y with updates := y.updates + n })), spdmHead 0x69 (param1 m) (param2 m)))

def State.spdmHeartbeat (s : State) (x id : Nat) : State × List Byte :=
  s.inSession x id (fun _ => (s, spdmHead 0x68 0 0))

def State.spdmEnd (s : State) (x id : Nat) : State × List Byte :=
  s.inSession x id (fun _ => (s.setSpdm x ((s.spdm x).setSession id none), spdmHead 0x6C 0 0))

/-! Vendor-defined messages (R266, R366; payload layout: log entry 40). -/

/-- A vendor-defined response to a request. -/
def vendorReply (m payload : List Byte) : List Byte :=
  let n := leNat (slice m 6 1)
  spdmHead 0x7E 0 0 ++ slice m 4 (3 + n) ++ leBytes 2 payload.length ++ payload

/-- The payload of a vendor-defined request. -/
def vendorPayload (m : List Byte) : List Byte :=
  let n := leNat (slice m 6 1)
  (m.drop (9 + n)).take (leNat (slice m (7 + n) 2))

/-- Step 2 of R266: the requester's SLH-DSA signature over the hash of the transcript is checked, and ours answered. -/
def State.vendorSign (s : State) (x id : Nat) (y : Session) (m sig : List Byte) : State × List Byte :=
  if y.keys = [] ∨ !slh192f.verify (slice y.keys 388 48) y.transcript sig then (s, spdmError 0x01)
  else match s.signRefusal with
    | some _ => (s, noSignature)
    | none =>
      let g := s.slhSign y.transcript
      let c := g.1.signChecked none
      if !c.2 then (c.1, noSignature)
      else ((c.1.bump .thl 0x054).setSpdm x ((s.spdm x).setSession id (some { y with hybrid := 1 })),
        vendorReply m (leBytes 1 1 ++ g.2))

/-- Steps 3 and 4: the requester's encapsulation key is answered by the ciphertext. -/
def State.vendorKem (s : State) (x id : Nat) (y : Session) (m key : List Byte) : State × List Byte :=
  if y.hybrid ≠ 1 then (s, spdmError 0x04)
  else if !kemKeyOk key then (s, spdmError 0x01)
  else if !s.thl.trngOk then (s, spdmError 0x03)
  else
    let d := s.draw 32
    let k := kemEncaps key d.2
    (d.1.setSpdm x ((d.1.spdm x).setSession id (some { y with hybrid := 2, hybridSecret := hkdfExtract y.secret k.2 })),
      vendorReply m (leBytes 1 2 ++ k.1))

/-- The owner of a context with the digest of a requester's keys. -/
def Context.ownerOf (x : Context) (digest : List Byte) : Option Nat :=
  (List.range x.owners.length).find? (fun j => (x.owners[j]?.map (fun o => o.digest)) == some digest)

/-- An owner's import key for a context (R366). -/
def State.vendorKey (s : State) (y : Session) (m : List Byte) (c : Nat) (key : List Byte) : State × List Byte :=
  let x := s.ctx c
  if y.hybrid ≠ 2 then (s, spdmError 0x04)
  else if ¬ c < 32 ∨ key.length ≠ 32 ∨ x.state = .free then (s, spdmError 0x01)
  else match x.ownerOf (keyDigest (slice y.keys 0 384) (leNat (slice y.keys 384 4)) (slice y.keys 388 48)) with
    | none => (s, spdmError 0x01)
    | some j => (s.setCtx c { x with owners := x.owners.modify j (fun o => { o with key := some key }) },
        vendorReply m (leBytes 1 3))

def State.spdmVendor (s : State) (x id : Nat) (m : List Byte) : State × List Byte :=
  s.inSession x id (fun y =>
    let p := vendorPayload m
    match leNat (slice p 0 1) with
    | 1 => s.vendorSign x id y m (p.drop 1)
    | 2 => s.vendorKem x id y m (p.drop 1)
    | 3 => s.vendorKey y m (leNat (slice p 1 1)) (p.drop 2)
    | _ => (s, spdmError 0x07 0xFE))

/-! Chunks (R384). -/

/-- A request outside sessions, as a large request carries it. -/
def State.spdmLarge (s : State) (x : Nat) (m : List Byte) : State × List Byte :=
  match spdmCode m with
  | 0x81 => s.spdmDigests x m
  | 0x82 => s.spdmCertificate x m
  | 0x83 => s.spdmChallenge x m
  | 0xE0 => s.spdmMeasurements x m
  | 0xE3 => s.spdmAlgorithms x m
  | 0xE4 => s.spdmKeyExchange x m
  | c => (s, spdmError 0x07 c)

/-- A response in one message, or held as a large one of which the requester is told the handle. -/
def State.spdmFit (s : State) (x : Nat) (r : List Byte) : State × List Byte :=
  let c := s.spdm x
  if c.transfer = 0 ∨ r.length ≤ c.transfer then (s, r)
  else
    let h := c.nextHandle % 256
    (s.setSpdm x { c with chunkOut := some { handle := h, seq := 0, bytes := r, total := r.length }, nextHandle := h + 1 },
      spdmError 0x0F ++ leBytes 1 h)

/-- CHUNK_SEND: the next chunk of a large request; the last one answers the request. -/
def State.spdmChunkSend (s : State) (x : Nat) (m : List Byte) : State × List Byte :=
  let c := s.spdm x
  let h := param2 m
  let n := leNat (slice m 4 2)
  let size := leNat (slice m 8 4)
  let at_ := if n = 0 then 16 else 12
  let t : Option Chunks := if n = 0 then some { handle := h, seq := 0, bytes := [], total := leNat (slice m 12 4) } else c.chunkIn
  match t with
  | none => (s, spdmError 0x04)
  | some t =>
    if c.stage < 2 ∨ t.handle ≠ h ∨ t.seq ≠ n then (s.setSpdm x { c with chunkIn := none }, spdmError 0x04)
    else if m.length < at_ + size ∨ t.total < t.bytes.length + size then
      (s.setSpdm x { c with chunkIn := none }, spdmError 0x01)
    else
      let bs := t.bytes ++ slice m at_ size
      let ack := spdmHead 0x05 0 h ++ leBytes 2 n
      if bit (param1 m) 0 then
        let s1 := s.setSpdm x { c with chunkIn := none }
        if bs.length ≠ t.total then (s1, spdmError 0x01)
        else
          let r := s1.spdmLarge x bs
          let f := r.1.spdmFit x r.2
          (f.1, ack ++ f.2)
      else (s.setSpdm x { c with chunkIn := some { t with seq := n + 1, bytes := bs } }, ack)

/-- CHUNK_GET: the next chunk of a large response. -/
def State.spdmChunkGet (s : State) (x : Nat) (m : List Byte) : State × List Byte :=
  let c := s.spdm x
  match c.chunkOut with
  | none => (s, spdmError 0x04)
  | some t =>
    let n := leNat (slice m 4 2)
    if m.length < 6 ∨ param2 m ≠ t.handle ∨ n ≠ t.seq then (s, spdmError 0x01)
    else
      let head := if n = 0 then 16 else 12
      let part := t.bytes.take (c.transfer - head)
      let rest := t.bytes.drop (c.transfer - head)
      (s.setSpdm x { c with chunkOut := if rest = [] then none else some { t with seq := n + 1, bytes := rest } },
        spdmHead 0x06 (if rest = [] then 1 else 0) t.handle ++ leBytes 2 n ++ leBytes 2 0 ++ leBytes 4 part.length
          ++ (if n = 0 then leBytes 4 t.total else []) ++ part)

/-! Commands. -/

/-- The answer of the host interface while Thallus is in its ROM stage (R337): not ready, with the smallest exponent whose
power of two in µs is at least the retry time. The token and the multiplier are open. -/
def State.spdmNotReady (s : State) (x code : Nat) : State :=
  let e := ((List.range 20).find? (fun e => decide (s.retryMs * 1000 ≤ 2 ^ e))).getD 20
  let d := s.drawFree 2
  d.1.spdmEmit x (spdmError 0x42 ++ leBytes 1 e ++ leBytes 1 code ++ d.2)

/-- The meaning of a command that is a request with code `code`. -/
def spdmCommand (s : State) (x code : Nat) (m : List Byte) (serve : State → State × List Byte) :
    Host.Outcome State Fault Refusal :=
  if ¬ x < 3 then .fault .noSuchUnit
  else if spdmCode m ≠ code then notEnabled "the message is another request"
  else if !s.spdmPath x then notEnabled "no message arrives on this connection"
  else if s.thl.stage ≠ 1 then .next (s.spdmNotReady x code)
  else
    let eff (s : State) : State :=
      if leNat (slice m 0 1) ≠ (if code = 0x84 then 0x10 else 0x13) then s.spdmEmit x (spdmError 0x41)
      else
        let r := serve s
        let f := r.1.spdmFit x r.2
        f.1.spdmEmit x f.2
    if x = 2 then thlRequest s (.mc m) eff
    else if s.thl.signing.isSome then notEnabled "Thallus is signing" else .next (eff s)

def execGetMeasurements (port : Nat) (req : List Byte) (s : State) : Host.Outcome State Fault Refusal :=
  spdmCommand s port 0xE0 req (fun s => s.spdmMeasurements port req)

def execGetVersion (port : Nat) (req : List Byte) (s : State) : Host.Outcome State Fault Refusal :=
  spdmCommand s port 0x84 req (fun s => s.spdmVersion port req)

def execGetCapabilities (port : Nat) (req : List Byte) (s : State) : Host.Outcome State Fault Refusal :=
  spdmCommand s port 0xE1 req (fun s => s.spdmCapabilities port req)

def execNegotiateAlgorithms (port : Nat) (req : List Byte) (s : State) : Host.Outcome State Fault Refusal :=
  spdmCommand s port 0xE3 req (fun s => s.spdmAlgorithms port req)

def execGetDigests (port : Nat) (req : List Byte) (s : State) : Host.Outcome State Fault Refusal :=
  spdmCommand s port 0x81 req (fun s => s.spdmDigests port req)

def execGetCertificate (port : Nat) (req : List Byte) (s : State) : Host.Outcome State Fault Refusal :=
  spdmCommand s port 0x82 req (fun s => s.spdmCertificate port req)

def execChallenge (port : Nat) (req : List Byte) (s : State) : Host.Outcome State Fault Refusal :=
  spdmCommand s port 0x83 req (fun s => s.spdmChallenge port req)

def execKeyExchange (port : Nat) (req : List Byte) (s : State) : Host.Outcome State Fault Refusal :=
  spdmCommand s port 0xE4 req (fun s => s.spdmKeyExchange port req)

def execFinish (port session : Nat) (req chain keys : List Byte) (s : State) : Host.Outcome State Fault Refusal :=
  spdmCommand s port 0xE5 req (fun s => s.spdmFinish port session req chain keys)

def execSpdmKeyUpdate (port session : Nat) (req : List Byte) (s : State) : Host.Outcome State Fault Refusal :=
  spdmCommand s port 0xE9 req (fun s => s.spdmUpdate port session req)

def execHeartbeat (port session : Nat) (req : List Byte) (s : State) : Host.Outcome State Fault Refusal :=
  spdmCommand s port 0xE8 req (fun s => s.spdmHeartbeat port session)

def execEndSession (port session : Nat) (req : List Byte) (s : State) : Host.Outcome State Fault Refusal :=
  spdmCommand s port 0xEC req (fun s => s.spdmEnd port session)

def execChunkSend (port : Nat) (req : List Byte) (s : State) : Host.Outcome State Fault Refusal :=
  spdmCommand s port 0x85 req (fun s => s.spdmChunkSend port req)

def execChunkGet (port : Nat) (req : List Byte) (s : State) : Host.Outcome State Fault Refusal :=
  spdmCommand s port 0x86 req (fun s => s.spdmChunkGet port req)

def execVendorDefinedRequest (port session : Nat) (req : List Byte) (s : State) : Host.Outcome State Fault Refusal :=
  spdmCommand s port 0xFE req (fun s => s.spdmVendor port session req)

end Sys2Proof.Machine
end

