-- ==== Sys2Proof/Machine/LinkSession.lean ====
section
/-!
DEFINITION. The link session between the Thallus processors of two modules (11_lumur_fabric.md, R266; the layouts of the
messages are those of log entry 39).
-/
namespace Sys2Proof.Machine

/-- KEY_EXCHANGE of the requester, and its response without the signature. -/
def keyExchangeMsg (random exchange : List Byte) : List Byte :=
  spdmHead 0xE4 0 0 ++ leBytes 4 0 ++ slice random 0 32 ++ exchange ++ leBytes 2 0
def keyExchangeRsp (random exchange : List Byte) : List Byte :=
  spdmHead 0x64 0 0 ++ leBytes 4 0x01000000 ++ slice random 0 32 ++ exchange ++ leBytes 2 0

/-- One side's messages of the exchange. -/
structure SessionSide where
  chain : List Byte
  random : List Byte
  exchange : List Byte

/-- The transcript that both RSA signatures are taken over. -/
def sessionTranscript (req rsp : SessionSide) : List Byte :=
  sha384 rsp.chain ++ keyExchangeMsg req.random req.exchange ++ keyExchangeRsp rsp.random rsp.exchange ++ sha384 req.chain

/-- The context string of a side's RSA signature. -/
def sessionContext (requester : Bool) : String :=
  if requester then "requester-finish signing" else "responder-key_exchange_rsp signing"

/-- A message of a session that is being established leaves on VC3. -/
def State.sessionSend (s : State) (l : Nat) (bs : List Byte) : State := s.emit (.session l bs)

/-- Steps 3 and 4: the ML-KEM exchange, LM, and epoch 1 of slot 0. A bad encapsulation key ends the establishment. -/
def State.sessionKeys (s : State) (l : Nat) (peer : SessionPeer) (node : Nat) (requester : Bool) (master : List Byte) : State :=
  let up (s : State) (shared : List Byte) : State :=
    let x : Link := { s.link l with phase := .up, lm := some (hkdfExtract master shared), peer := node % 65536,
                                    peerId := keyDigest peer.n rsaE peer.slh, requester := requester }
    s.setLink l (x.setSlot 0 { bound := true, txEpoch := 1, rxEpoch := 1 })
  if requester then
    let d := s.draw 32
    let z := d.1.draw 32
    up (z.1.sessionSend l (kemPublic d.2)) (kemDecaps d.2 z.2 peer.kem)
  else if !kemKeyOk peer.kem then s
  else
    let d := s.draw 32
    let k := kemEncaps peer.kem d.2
    up (d.1.sessionSend l k.1) k.2

/-- The establishment of the session. Where a check fails, or Thallus signs nothing, the link stays without a session; while
the DRBG serves nothing, the request is refused (R317). -/
def State.establish (s : State) (l : Nat) (peer : SessionPeer) (node : Nat) : State :=
  if (s.link l).phase ≠ .bootstrap ∨ !s.thl.trngOk then s
  else
    let requester := decide (beNat s.deviceDigest < beNat (keyDigest peer.n rsaE peer.slh))
    let k := s.draw 48
    let n := k.1.draw 32
    let d := ecdhSecret k.2
    let own : SessionSide := { chain := s.certChain, random := n.2, exchange := ecdhPublic d }
    let other : SessionSide := { chain := peer.chain, random := peer.random, exchange := peer.exchange }
    let th := if requester then sessionTranscript own other else sessionTranscript other own
    let first := if requester then keyExchangeMsg n.2 own.exchange else keyExchangeRsp n.2 own.exchange
    match n.1.spdmSign (sessionContext requester) th with
    | (s1, none) => s1
    | (s1, some sig) =>
      let s2 := (s1.sessionSend l first).sessionSend l sig
      if !ecdhValid peer.exchange ∨ !Config.certifies peer.chain peer.n peer.slh
          ∨ !rsaVerify 384 (beNat peer.n) (spdmSigned (sessionContext (!requester)) th) peer.rsaSig then s2
      else
        let full := sha384 (th ++ (if requester then peer.rsaSig ++ sig else sig ++ peer.rsaSig))
        let g := s2.slhSign full
        let c := g.1.signChecked none
        if !c.2 then c.1
        else
          let s3 := (c.1.bump .thl 0x054).sessionSend l g.2
          if !slh192f.verify peer.slh full peer.slhSig then s3
          else s3.sessionKeys l peer node requester
            (exportMaster (hkdfExtract (leBytes 48 0) (ecdhShared d peer.exchange)) full)

def execLinkSessionEstablish (l : Nat) (peer : SessionPeer) (node : Nat) (s : State) : Host.Outcome State Fault Refusal :=
  if ¬ l < 16 then .fault .noSuchUnit
  else if (s.link l).phase ≠ .bootstrap then notEnabled "the link is not in bootstrap"
  else if s.thl.stage ≠ 1 then notEnabled "the runtime of Thallus is not ready"
  else thlRequest s (.session l) (fun s => s.establish l peer node)

end Sys2Proof.Machine
end

