-- ==== Sys2Proof/Machine/Meter.lean ====
section
/-!
DEFINITION. The Lichenometer: samples, attribution, log entries, power-up and power-fail, and signed messages
(17_power_and_metering.md, R432 to R442).
-/
namespace Sys2Proof.Machine

/-! Samples (R433, R434). -/

/-- Calibration of channel `k` (R442): gain in 2^−30 and offset, of the current or the voltage. -/
def Meter.cal (m : Meter) (k : Nat) (voltage : Bool) : Nat × Int :=
  let o := 16 + 16 * k + if voltage then 8 else 0
  (leNat (slice m.params o 4), signed 32 (leNat (slice m.params (o + 4) 4)))

/-- A code converted, in 2^−30 V or A. -/
def Meter.convert (m : Meter) (k : Nat) (voltage : Bool) (code : Int) : Int :=
  let c := m.cal k voltage
  (c.1 : Int) * (code - c.2)

/-- Whether a sample of channel `k` lies outside its class range (R434). -/
def outOfClass (k : Nat) (v i : Int) : Bool :=
  if k = 0 then decide (i < 11 * 2 ^ 30) || decide (132 * 2 ^ 30 < i) || decide (v < 33 * 2 ^ 30) || decide (39 * 2 ^ 30 < v)
  else decide (v * i < 90 * 2 ^ 60) || decide (1080 * 2 ^ 60 < v * i)

/-- One channel of a sample: v × i × 20 µs into its total. How the 24 kept fraction bits are rounded is open (log entry
5). -/
def State.meterChannel (s : State) (k : Nat) (vc ic : Int) : State :=
  let v := s.met.convert k true vc
  let i := s.met.convert k false ic
  let r := s.openRound (v * i * 20) (2 ^ 36)
  let m := r.1.met
  let out : Option Nat := match m.outChan with
    | some c => some c
    | none => if outOfClass k v i then some k else none
  { r.1 with met := { m with chan := SMap.set 0 m.chan k (SMap.get 0 m.chan k + r.2), outChan := out } }

/-- Whether the Lichenometer runs. -/
def State.meterRuns (s : State) : Bool := s.pwr.ok && s.clk.phase == .running && !s.clk.inReset

/-- The end of a second of 50,000 samples (R434). -/
def State.meterSecond (s : State) : State :=
  let m := s.met
  if m.samples % 50000 ≠ 0 then s
  else match m.outChan with
    | none => s
    | some c =>
      let s1 : State := { s with met := { m with outChan := none, outSecs := m.outSecs + 1, saidClass := true } }
      if m.saidClass then s1 else s1.meterEvent 0xC006 c (m.outSecs + 1)

/-- A sample of the ten converters: voltage and current codes of channels 0 to 4 in turn. -/
def execMeterSample (codes : List Int) (s0 : State) : Host.Outcome State Fault Refusal :=
  if codes.length ≠ 10 then .fault .noSuchUnit
  else if !s0.meterRuns then notEnabled "the meter does not run"
  else if !s0.periodOpen 3 4000 then notEnabled "the last sample is less than 20 µs old"
  else
    let s := s0.periodNote 3
    let s1 := (List.range 5).foldl (fun s k => s.meterChannel k (codes.getD (2 * k) 0) (codes.getD (2 * k + 1) 0)) s
    .next ({ s1 with met := { s1.met with samples := s1.met.samples + 1 } } : State).meterSecond

/-! Attribution (R435, R436). -/

/-- Shares of `total` in proportion to weights: each rounded down, the remainder to the largest share, the first among
equals. -/
def sharesOf (total : Int) (ws : List Int) : List Int :=
  let sum := ws.sum
  let sh := ws.map (fun w => if sum = 0 then 0 else total * w / sum)
  let big := (sh.zipIdx).foldl (fun (m : Int × Nat) x => if m.1 < x.1 then x else m) (sh.headD 0, 0)
  sh.modify big.2 (· + (total - sh.sum))

/-- Context energies of a partition for its residence times; none where no context was resident. -/
def ctxShares (total : Int) (res : List Nat) : Option (List Int) :=
  if res.sum = 0 then none
  else
    let sum : Int := (res.sum : Nat)
    let sh : List Int := res.map (fun (r : Nat) => total * (r : Int) / sum)
    let big := (res.zipIdx).foldl (fun (m : Nat × Nat) x => if m.1 < x.1 then x else m) (res.headD 0, 0)
    some (sh.modify big.2 (· + (total - sh.sum)))

/-- Energy per quarter for a millisecond of input `e` and groups `qs`, and whether the shared energy was negative. -/
def Meter.quarters (m : Meter) (e : Int) (qs : List Int) : List Int × Bool :=
  let shared := e - qs.sum
  if shared < 0 then (sharesOf e qs, true)
  else
    let ws : List Int := match m.rule with
      | 0 => qs
      | 1 => [1, 1, 1, 1]
      | _ => (List.range 4).map (fun q => (leNat (slice m.params (8 + 2 * q) 2) : Int))
    (List.zipWith (· + ·) qs (sharesOf shared ws), false)

/-- An amount added to an account. -/
def Meter.credit (m : Meter) (k : Nat) (v : Int) : Meter := { m with acct := SMap.set 0 m.acct k (SMap.get 0 m.acct k + v) }

/-- A partition's energy attributed to it and to its contexts. -/
def Meter.partition (m : Meter) (p : Nat) (e : Int) (resident : List Nat) : Meter :=
  let m1 := m.credit p e
  match ctxShares e ((List.range 8).map (fun i => resident.getD (8 * p + i) 0)) with
  | none => m1.credit (4 + p) e
  | some sh => (List.range 8).foldl (fun m i => m.credit (8 + 8 * p + i) (sh.getD i 0)) m1

/-- The attribution of a millisecond; `resident` holds the cycles for which each context held a started command. -/
def execMeterAllocate (resident : List Nat) (s0 : State) : Host.Outcome State Fault Refusal :=
  if resident.length ≠ 32 then .fault .noSuchUnit
  else if !s0.meterRuns then notEnabled "the meter does not run"
  else if !s0.periodOpen 4 msTicks then notEnabled "the millisecond has not passed"
  else
    let s := s0.periodNote 4
    let m := s.met
    let d (k : Nat) : Int := m.chanUj k - SMap.get 0 m.mark k
    let r := m.quarters (d 0) [d 1, d 2, d 3, d 4]
    let m1 := (List.range s.layout).foldl (fun m p =>
      let e := ((List.range 4).map (fun q => if s.partOfQuarter q = p then r.1.getD q 0 else 0)).sum
      m.partition p e resident) m
    let mark := (List.range 5).foldl (fun x k => SMap.set 0 x k (m.chanUj k)) []
    let s1 : State := { s with met := { m1 with mark := mark, intervalMs := m.intervalMs + 1,
                                                saidNegative := m.saidNegative || r.2 } }
    .next (if r.2 && !m.saidNegative then
        s1.meterEvent 0xC007 (ofSigned 32 (d 0 - (d 1 + d 2 + d 3 + d 4))) 0
      else s1)

/-! Log entries (R438 to R440). -/

/-- The end of an interval: an entry of type 1. -/
def execMeterInterval (s : State) : Host.Outcome State Fault Refusal :=
  let m := s.met
  if !s.meterRuns ∨ !m.ready then notEnabled "the meter is not ready"
  else if m.intervalMs < m.interval * 60000 then notEnabled "the interval has not passed"
  else
    let s1 := (s.meterEntry 1 0 (m.totals ++ leBytes 4 m.outSecs)).1
    .next { s1 with met := { s1.met with outSecs := 0, saidClass := false, saidNegative := false, intervalMs := 0 } }

/-- The power-fail entry of the input, on the meter's hold-up: cause 1 (R438). -/
def execMeterPowerFail (s : State) : Host.Outcome State Fault Refusal :=
  if !s.met.ready then notEnabled "the meter is not ready"
  else .next (s.powerFailEntry 1)

/-- Type of a log entry. -/
def entryType (e : List Byte) : Nat := leNat (slice e 4 1)

/-- The last entry that holds totals (types 1 and 7). -/
def Meter.lastTotals (m : Meter) : Option (List Byte) :=
  ((m.log.filter (fun e => entryType e.2 == 1 || entryType e.2 == 7)).getLast?).map Prod.snd

/-- The totals restored from the log (R439). -/
def Meter.restore (m : Meter) : Meter :=
  match m.lastTotals with
  | none => m
  | some e =>
    let t (i : Nat) : Int := signed 64 (leNat (slice e (24 + 8 * i) 8))
    let m1 : Meter := { m with base := (List.range 5).foldl (fun b i => SMap.set 0 b i (t i)) [] }
    (List.range 4).foldl (fun m p => m.credit p (t (5 + p))) m1

/-- The last entry of the log. -/
def Meter.lastEntry (m : Meter) : Option (Nat × List Byte) := m.log.getLast?

/-- A new image runs for the first time: its entry, the event counter, and the event (R442). -/
def State.meterNewImage (s : State) : State :=
  let m := s.met
  if !m.staged then s
  else
    let s1 : State := { s with met := { m with running := 1 - m.running, staged := false } }
    let s2 := (s1.meterEntry 5 0 (s1.met.sealDigest ++ leBytes 8 (m.evcnt + 1))).1.meterCount
    s2.meterEvent 0xC003 (s2.met.evcnt % 2 ^ 32) s2.met.running

/-- The meter is ready: totals restored, power-up record written. `gap` is the time without power in seconds. -/
def execMeterReady (gap : Nat) (s : State) : Host.Outcome State Fault Refusal :=
  let m := s.met
  if !s.meterRuns then notEnabled "the meter does not run"
  else if m.ready then notEnabled "the meter is ready"
  else if m.key = [] then notEnabled "the ladder has not delivered the meter's key"
  else
    let dirty := match m.lastEntry with
      | some e => entryType e.2 != 7
      | none => false
    let g := if dirty then 0 else gap
    let s1 : State := { s with met := { m.restore with ready := true, unclean := dirty } }
    let s2 := match m.lastEntry with
      | some e => if dirty then s1.meterEvent 0xC005 e.1 0 else s1
      | none => s1
    let seq := s2.met.seq
    let s3 := (s2.meterEntry 8 (if dirty then 1 else 0) (leBytes 4 g ++ leBytes 4 (if dirty then 1 else 0))).1
    .next ((s3.meterNewImage).meterEvent 0xC001 seq g)

/-! The reader port: signed messages (R441, R442). -/

/-- Whether the reader port answers. -/
def State.meterReads (s : State) : Bool := s.meterRuns && s.met.ready

/-- The meaning of a reader command with a code: the message must carry it. -/
def readerCmd (s : State) (code : Nat) (msg : List Byte) (eff : State) : Host.Outcome State Fault Refusal :=
  if !s.meterReads then notEnabled "the meter is not ready"
  else if leNat (slice msg 0 4) ≠ code then notEnabled "the message is another command"
  else .next eff

/-- A refused command: 1 form, 2 block, 3 counter, 4 log full. -/
def State.readerRefuse (s : State) (code reason : Nat) : State := s.meterEvent 0xC008 code reason

/-- A block of signer 3 over bytes, under a label that is not one of R325's. -/
def State.meterBlock (s : State) (label : List Byte) (signed block : List Byte) : Bool :=
  match s.slotKey 3 with
  | none => false
  | some key =>
    let m := slice label 0 16 ++ sha384 signed
    leNat (slice block 0 1) == 3 && leNat (slice block 1 1) == 1 && leNat (slice block 2 2) == 0
      && leNat (slice block 4 4) == blockLen && leNat (slice block 8 8) == 0 && block.length == blockLen
      && key.e == 65537 && rsaVerify 384 (beNat key.n) m (slice block 16 384) && slh192s.verify key.slh m (block.drop 400)

/-- LOG: the entries that are kept, each followed by its sector's signature where it is a seal entry. -/
def State.logBytes (s : State) (first count : Nat) : List Byte :=
  (List.range count).flatMap (fun i =>
    let n := first + i
    SMap.get [] s.met.log n ++ (if n % sectorEntries = sectorEntries - 1 then SMap.get [] s.met.sigs (n / sectorEntries) else []))

def execMeterLog (msg : List Byte) (s : State) : Host.Outcome State Fault Refusal :=
  let first := leNat (slice msg 4 4)
  let count := leNat (slice msg 8 4)
  readerCmd s 3 msg (if msg.length ≠ 12 ∨ count < 1 ∨ 64 < count then s.readerRefuse 3 1
    else s.emit (.meter (s.logBytes first count)))

/-- ACK: a sequence number at or above the current acknowledgement, and already written, is taken. -/
def State.meterAck (s : State) (msg : List Byte) : State :=
  let n := leNat (slice msg 4 4)
  let m := s.met
  if msg.length ≠ 8 + blockLen then s.readerRefuse 4 1
  else if !s.meterBlock Config.ackLabel (msg.take 8) (msg.drop 8) then s.readerRefuse 4 2
  else if m.seq ≤ n then s.readerRefuse 4 1
  else if n < m.acked then s
  else
    let m1 : Meter := { m with acked := n }
    { s with met := { m1 with logFull := m1.blocked } }

def execMeterAck (msg : List Byte) (s : State) : Host.Outcome State Fault Refusal := readerCmd s 4 msg (s.meterAck msg)

/-- Whether a parameter block is legal (R442). -/
def paramsOk (b : List Byte) : Bool :=
  let w := ((List.range 4).map (fun q => leNat (slice b (8 + 2 * q) 2))).sum
  let rule := leNat (slice b 0 1)
  let mins := leNat (slice b 1 1)
  b.length == 256 && decide (rule ≤ 2) && decide (1 ≤ mins) && decide (mins ≤ 60) && (rule != 2 || w == 65536)
    && leNat (slice b 2 6) == 0 && leNat (slice b 96 160) == 0

/-- PARAM: the entry is written before the block takes effect. -/
def State.meterParam (s : State) (msg : List Byte) : State :=
  let b := slice msg 4 256
  let n := leNat (slice msg 260 8)
  if msg.length ≠ 268 + blockLen ∨ !paramsOk b then s.readerRefuse 5 1
  else if !s.meterBlock (ascii "karfort meterpar") (slice msg 4 264) (msg.drop 268) then s.readerRefuse 5 2
  else if n ≠ s.met.evcnt + 1 then s.readerRefuse 5 3
  else
    let digest := ({ s.met with params := b } : Meter).sealDigest
    match s.meterEntry 4 0 (digest ++ leBytes 8 n) with
    | (s1, false) => s1.readerRefuse 5 4
    | (s1, true) =>
      let s2 := ({ s1 with met := { s1.met with params := b } } : State).meterCount
      s2.meterEvent 0xC002 (s2.met.evcnt % 2 ^ 32) s2.met.rule

def execMeterParam (msg : List Byte) (s : State) : Host.Outcome State Fault Refusal := readerCmd s 5 msg (s.meterParam msg)

/-! Meter firmware (R442). A transfer holds the image, the new event counter and one block of slot 3. -/

/-- The largest image: half of [0x351_0000, 0x360_FFFF] (R437). -/
def meterImageMax : Nat := 0x80000

def execMeterFwBegin (len : Nat) (s : State) : Host.Outcome State Fault Refusal :=
  if !s.meterReads then notEnabled "the meter is not ready"
  else .next (if len < 8 + blockLen ∨ meterImageMax + 8 + blockLen < len then s.readerRefuse 6 1
    else if s.met.logFull then s.readerRefuse 6 4
    else { s with met := { s.met with xfer := some (len, []) } })

def execMeterFwData (off : Nat) (bytes : List Byte) (s : State) : Host.Outcome State Fault Refusal :=
  if !s.meterReads then notEnabled "the meter is not ready"
  else .next (match s.met.xfer with
    | none => s.readerRefuse 6 1
    | some (len, got) =>
      if off ≠ got.length ∨ len < off + bytes.length then s.readerRefuse 6 1
      else { s with met := { s.met with xfer := some (len, got ++ bytes) } })

/-- The end of a transfer: the checks of R442, and the copy that is not running is written. -/
def State.meterFwEnd (s : State) : State :=
  match s.met.xfer with
  | none => s.readerRefuse 6 1
  | some (len, got) =>
    let s0 : State := { s with met := { s.met with xfer := none } }
    let n := len - 8 - blockLen
    let image := got.take n
    if got.length ≠ len then s0.readerRefuse 6 1
    else if !(match s.slotKey 3 with
        | some key => blockOk key 3 7 image (got.drop (n + 8))
        | none => false) then (s0.sigRejected 7 3).readerRefuse 6 2
    else if leNat (slice got n 8) ≠ s.met.evcnt + 1 then s0.readerRefuse 6 3
    else if s.met.logFull then s0.readerRefuse 6 4
    else { s0 with met := { s0.met with images := SMap.set [] s0.met.images (1 - s0.met.running) image, staged := true } }

def execMeterFwEnd (s : State) : Host.Outcome State Fault Refusal :=
  if !s.meterReads then notEnabled "the meter is not ready" else .next s.meterFwEnd

end Sys2Proof.Machine
end

