-- ==== Sys2Proof/Machine/MeterPort.lean ====
section
/-!
DEFINITION. Reads of the meter over its I3C port (17_power_and_metering.md, R441, R446).
-/
namespace Sys2Proof.Machine

/-- Bytes [0x040, 0x2FF] of the `LCH` page. -/
def State.meterPage (s : State) : List Byte :=
  (List.range 176).flatMap (fun i => leBytes 4 (s.liveLch (0x40 + 4 * i)))

/-- READ, and any command with a code that the port does not know, which is refused. -/
def execMeterRead (msg : List Byte) (s : State) : Host.Outcome State Fault Refusal :=
  let code := leNat (slice msg 0 4)
  if !s.meterReads then notEnabled "the meter is not ready"
  else if 2 ≤ code ∧ code ≤ 6 then notEnabled "the message is another command"
  else .next (if code ≠ 1 ∨ msg.length ≠ 4 then s.readerRefuse code 1 else s.emit (.meter s.meterPage))

/-- What SEAL_READ answers and signs. -/
def State.sealReadBytes (s : State) (nonce : List Byte) : List Byte :=
  s.meterPage ++ nonce ++ s.met.sealDigest ++ leBytes 8 s.met.evcnt

def execSealRead (msg : List Byte) (s : State) : Host.Outcome State Fault Refusal :=
  readerCmd s 2 msg (if msg.length ≠ 36 then s.readerRefuse 2 1
    else
      let bs := s.sealReadBytes (slice msg 4 32)
      let r := s.meterSign "karfort sealread" bs
      r.1.emit (.meter (bs ++ r.2)))

end Sys2Proof.Machine
end

