-- ==== Sys2Proof/Machine/Mgmt.lean ====
section
/-!
DEFINITION. The management controller: sensors, PLDM, time on the management port, and MCTP control
(18_management_and_replay.md, R449 to R451, R464; 13_trust_keys_attestation.md, R343).
-/
namespace Sys2Proof.Machine

/-- Whether the controller runs image 2. -/
def State.mcRuns (s : State) : Bool := !s.clk.inReset && s.fld .mgt Reg.MGT_STS 0 0 == 1

/-- The meaning of a command that the controller serves. -/
def mcCommand (s : State) (q : Bool) (eff : State → State) : Host.Outcome State Fault Refusal :=
  if !s.mcRuns then notEnabled "the management controller does not run"
  else if !q then notEnabled "the management controller expects no such message"
  else .next (eff s)

/-! Sensors (R450). -/

/-- A sensor that the module itself knows: throttle levels, link states, and the speed and width of the ports. -/
def State.ownSensor (s : State) (id : Nat) : Option Nat :=
  if 90 ≤ id ∧ id ≤ 93 then some (s.fld .pwr Reg.PWR_STS (6 * (id - 90) + 5) (6 * (id - 90)))
  else if 100 ≤ id ∧ id ≤ 115 then some ((s.link (id - 100)).status % 8)
  else if id = 120 ∨ id = 121 then some (s.fld (.hif (id - 120)) Reg.HIF_LINK_STS 8 0)
  else none

/-- The position, among the readings that come from outside, of a sensor: the die sensors, the stacks, the input's voltage,
current and power, and the rail groups. -/
def readingAt (id : Nat) : Option Nat :=
  if 1 ≤ id ∧ id ≤ 76 then some (id - 1) else if 80 ≤ id ∧ id ≤ 86 then some (id - 4) else none

/-- Every sensor identifier. -/
def sensorIds : List Nat :=
  (List.range 76).map (· + 1) ++ (List.range 7).map (· + 80) ++ (List.range 4).map (· + 90) ++ (List.range 16).map (· + 100)
    ++ [120, 121]

/-- Every sensor read; `readings` are those of outside, in the order of their identifiers. -/
def execSensorPoll (readings : List Nat) (s : State) : Host.Outcome State Fault Refusal :=
  mcCommand s (s.periodOpen 5 (100 * msTicks)) (fun s0 =>
    let s := s0.periodNote 5
    let value (id : Nat) : Nat := match s.ownSensor id with
      | some v => v
      | none => match readingAt id with
        | some i => readings.getD i 0
        | none => 0
    { s with mgt := { s.mgt with readings := sensorIds.foldl (fun m id => SMap.set 0 m id (value id)) s.mgt.readings } })

/-- The last reading of a sensor, in the response of DSP0248 (PRESUMED, log entry 43): completion, size, operational state,
and the reading; the event states are open. -/
def execPldmGetSensorReading (sensor : Nat) (s : State) : Host.Outcome State Fault Refusal :=
  mcCommand s true (fun s =>
    if !sensorIds.contains sensor then s.emit (.mctp (leBytes 1 0x80))
    else
      let d := s.drawFree 4
      d.1.emit (.mctp (leBytes 1 0 ++ leBytes 1 4 ++ leBytes 1 0 ++ d.2 ++ leBytes 4 (SMap.get 0 s.mgt.readings sensor))))

/-! Firmware update over PLDM (R343). -/

/-- A completion code: success, or error where Thallus refuses. -/
def State.pldmDone (s : State) (code : Nat) : State := s.emit (.mctp (leBytes 1 (if code = 0 then 0 else 1)))

/-- The meaning of a PLDM request that the controller passes to Thallus, where it stands in the queue (R316). -/
def pldmCommand (s : State) (cmd image len : Nat) (data : List Byte) (q : Bool) (eff : State → State) :
    Host.Outcome State Fault Refusal :=
  if !s.mcRuns then notEnabled "the management controller does not run"
  else if s.thl.stage ≠ 1 then notEnabled "the runtime of Thallus is not ready"
  else if !q then notEnabled "the management controller expects no such message"
  else thlRequest s (.pldm cmd image len data) eff

def execPldmRequestUpdate (image len : Nat) (s : State) : Host.Outcome State Fault Refusal :=
  pldmCommand s 0x10 image len [] true (fun s =>
    let r := s.fwBegin image len none
    r.1.pldmDone r.2)

/-- The length of the piece that the device has asked for. -/
def State.pieceDue (s : State) : Option Nat :=
  match s.thl.xfer with
  | some x => if x.path = none ∧ x.got.length < x.len then some (min 1024 (x.len - x.got.length)) else none
  | none => none

/-- The next piece taken; the last one ends the transfer. -/
def State.pldmPiece (s : State) (data : List Byte) : State :=
  if s.pieceDue ≠ some data.length then s
  else
    let off := (s.thl.xfer.map (fun x => x.got.length)).getD 0
    let r := s.fwData none off data
    if r.1.pieceDue.isNone then
      let e := r.1.fwEnd none
      e.1.pldmDone e.2
    else r.1

def execPldmRequestFirmwareData (data : List Byte) (s : State) : Host.Outcome State Fault Refusal :=
  pldmCommand s 0x15 0 0 data (s.pieceDue == some data.length) (fun s => s.pldmPiece data)

def execPldmActivateFirmware (image : Nat) (selfContained : Bool) (s : State) : Host.Outcome State Fault Refusal :=
  pldmCommand s 0x1A image (if selfContained then 1 else 0) [] true (fun s =>
    let r := s.activate image selfContained
    r.1.pldmDone r.2)

def execPldmCancelUpdate (s : State) : Host.Outcome State Fault Refusal :=
  pldmCommand s 0x1D 0 0 [] ((s.thl.xfer.map (fun x => x.path)) == some none) (fun s => (s.fwCancel none).pldmDone 0)

/-! Time (R451). -/

def State.timeSrc (s : State) : Nat := s.fld .mgt Reg.MGT_TIME_CTL 1 0

/-- Whether the port acts as grandmaster: never while it is a receiver. -/
def State.isGm (s : State) : Bool := s.fld .mgt Reg.MGT_TIME_CTL 6 6 == 1 && s.timeSrc != 2

def State.timeLocked (s : State) : Bool := s.fld .mgt Reg.MGT_STS 2 2 == 1

/-- The timebase in 2^−16 ns. -/
def State.nowFine (s : State) : Nat := s.tmb.ns * 65536 + s.tmb.frac16

/-- The port's MAC address: 0x02, and bytes 0 to 4 of the identity digest. -/
def State.macAddr (s : State) : List Byte := leBytes 1 2 ++ slice s.deviceDigest 0 5

/-- The port identity: the MAC address as EUI-64, and port 1. -/
def State.portIdentity (s : State) : List Byte :=
  slice s.macAddr 0 3 ++ [0xFF#8, 0xFE#8] ++ slice s.macAddr 3 3 ++ beBytes 2 1

/-- A time in 2^−16 ns as a PTP timestamp: seconds and nanoseconds, big-endian. -/
def ptpStamp (t : Nat) : List Byte := beBytes 6 (t / 65536 / 10 ^ 9) ++ beBytes 4 (t / 65536 % 10 ^ 9)

/-- The time of a PTP timestamp, in 2^−16 ns. -/
def ptpTime (b : List Byte) : Nat := (beNat (slice b 0 6) * 10 ^ 9 + beNat (slice b 6 4)) * 65536

/-- The header of a PTP message of the port (IEEE 1588-2019; PRESUMED, log entry 44). -/
def State.ptpHead (s : State) (type len flags seq : Nat) (corr : Nat) : List Byte :=
  leBytes 1 type ++ leBytes 1 0x12 ++ beBytes 2 len ++ leBytes 1 (s.fld .mgt Reg.MGT_TIME_CTL 15 8) ++ leBytes 1 0
    ++ beBytes 2 flags ++ beBytes 8 corr ++ leBytes 4 0 ++ s.portIdentity ++ beBytes 2 seq ++ leBytes 2 0

/-- The clock class announced: 248 unless the timebase is valid and locked. -/
def State.clockClass (s : State) : Nat :=
  if s.tmb.valid && s.timeLocked then s.fld .mgt Reg.MGT_TIME_CTL 23 16 else 248

/-- What a grandmaster sends: Announce, Sync and Follow_Up. Accuracy, variance, priority 2, the offset to UTC and the time
source are open. -/
def State.ptpSend (s : State) : State :=
  let n := s.mgt.ptpSeq % 65536
  let d := s.drawFree 7
  let ann := s.ptpHead 0x0B 64 0 n 0 ++ leBytes 10 0 ++ slice d.2 0 2 ++ leBytes 1 0
    ++ leBytes 1 (s.fld .mgt Reg.MGT_TIME_CTL 31 24) ++ leBytes 1 s.clockClass ++ slice d.2 2 3 ++ slice d.2 5 1
    ++ slice s.portIdentity 0 8 ++ leBytes 2 0 ++ slice d.2 6 1
  let sync := s.ptpHead 0x00 44 0x0200 n 0 ++ leBytes 10 0
  let fup := s.ptpHead 0x08 44 0 n (s.nowFine % 65536) ++ ptpStamp s.nowFine
  let s1 := ((d.1.emit (.ethernet ann)).emit (.ethernet sync)).emit (.ethernet fup)
  { s1 with mgt := { s1.mgt with ptpSeq := n + 1 } }

/-- The PTP message of an Ethernet frame under the transport that `MGT_TIME_CTL.l2` selects. -/
def State.ptpOf (s : State) (f : List Byte) : Option (List Byte) :=
  let type := beNat (slice f 12 2)
  if s.fld .mgt Reg.MGT_TIME_CTL 7 7 = 1 then (if type = 0x88F7 ∧ 48 ≤ f.length then some (f.drop 14) else none)
  else
    let port := beNat (slice f 36 2)
    if type = 0x0800 ∧ leNat (slice f 23 1) = 17 ∧ (port = 319 ∨ port = 320) ∧ 76 ≤ f.length then some (f.drop 42) else none

/-- Type, sequence and correction of a PTP message. -/
def ptpType (m : List Byte) : Nat := leNat (slice m 0 1) % 16
def ptpSeqOf (m : List Byte) : Nat := beNat (slice m 30 2)
def ptpCorr (m : List Byte) : Int := signed 64 (beNat (slice m 8 8))

/-- A message for a receiver: the exchange Sync, Follow_Up, Delay_Req, Delay_Resp, and the offset that it measures. -/
def State.ptpReceive (s : State) (m : List Byte) : State :=
  let g := s.mgt
  match ptpType m with
  | 0x0 => { s with mgt := { g with t2 := some s.nowFine, t1 := none, t3 := none, ptpSeq := ptpSeqOf m } }
  | 0x8 =>
    if g.t2.isNone ∨ g.ptpSeq ≠ ptpSeqOf m then s
    else
      let t1 := ((ptpTime (slice m 34 10) : Int) + ptpCorr m).toNat
      let s1 := s.emit (.ethernet (s.ptpHead 0x01 44 0 g.ptpSeq 0 ++ leBytes 10 0))
      { s1 with mgt := { g with t1 := some t1, t3 := some s.nowFine } }
  | 0x9 =>
    match g.t1, g.t2, g.t3 with
    | some t1, some t2, some t3 =>
      if g.ptpSeq ≠ ptpSeqOf m ∨ slice m 44 10 ≠ s.portIdentity then s
      else
        let t4 : Int := (ptpTime (slice m 34 10) : Int) - ptpCorr m
        let theta : Int := (((t1 : Int) - t2) + (t4 - t3)) / 2
        { s with mgt := { g with t1 := none, t2 := none, t3 := none, sample := some theta } }
    | _, _, _ => s
  | _ => s

/-- A message for a grandmaster: a Delay_Req is answered with its time of arrival. -/
def State.ptpServe (s : State) (m : List Byte) : State :=
  if ptpType m = 0x1 then
    s.emit (.ethernet (s.ptpHead 0x09 54 0 (ptpSeqOf m) 0 ++ ptpStamp s.nowFine ++ slice m 20 10))
  else s

/-- A frame that is not PTP: dropped and counted (R449). -/
def State.ptpDrop (s : State) : State :=
  { s with mgt := { s.mgt with dropped := min (s.mgt.dropped + 1) 0xFFFFFFFF } }

/-- A frame on the management port, or (with none) the port's own turn to send as grandmaster. -/
def execPtpMessage (bytes : Option (List Byte)) (s : State) : Host.Outcome State Fault Refusal :=
  mcCommand s (s.fld .mgt Reg.MGT_STS 1 1 == 1 && (bytes.isSome || s.isGm)) (fun s =>
    match bytes with
    | none => s.ptpSend
    | some f => match s.ptpOf f with
      | none => s.ptpDrop
      | some m =>
        if leNat (slice m 4 1) ≠ s.fld .mgt Reg.MGT_TIME_CTL 15 8 then s
        else if s.timeSrc = 2 then s.ptpReceive m
        else if s.isGm then s.ptpServe m
        else s)

/-- A sample that waits, its offset in 2^−16 ns, and its period in ns: of the link with src = 1, of the port with src = 2. -/
def State.timeSample (s : State) (period : Nat) : Option (Int × Nat) :=
  if s.timeSrc = 1 then
    s.mgt.sample.map (fun t => (t, 1000 * 2 ^ s.fld (.lml (s.fld .mgt Reg.MGT_TIME_CTL 5 2)) Reg.LML_TIME_CTL 5 2))
  else if s.timeSrc = 2 then s.mgt.sample.map (fun t => (t, period))
  else none

/-- `MGT_TIME_OFS`, saturated. -/
def satOfs (t : Int) : Nat := ofSigned 32 (max (-(2 ^ 31 : Int)) (min t (2 ^ 31 - 1)))

/-- The set of R418 to own time plus θ: the time that will stand 64 cycles later. -/
def State.steerSet (s : State) (theta : Int) : State :=
  let t := ((s.nowFine : Int) + 320 * 65536 + theta).toNat
  (s.setWords .tmb Reg.TMB_SET_LO 2 (t / 65536 % 2 ^ 64)).setCtlWrite (t % 65536 + 2 ^ 16)

/-- The rate with θ / (8·T) added, in 2^−40 ns per cycle of 5 ns, truncated; a sum outside the register is open. -/
def State.steerRate (s : State) (theta : Int) (period : Nat) : State :=
  let r := signed 32 (s.word .tmb Reg.TMB_RATE) + (theta * (5 * 2 ^ 24)).tdiv (8 * period)
  if -(2 ^ 31 : Int) ≤ r ∧ r < 2 ^ 31 then s.setWord .tmb Reg.TMB_RATE (ofSigned 32 r)
  else
    let d := s.drawWord
    d.1.setWord .tmb Reg.TMB_RATE d.2

/-- One sample, as the pseudocode of R451 has it. -/
def State.steer (s : State) (theta : Int) (period : Nat) : State :=
  let s0 := ({ s with mgt := { s.mgt with sample := none, sampleAt := s.ticks, period := period } } : State).setWord .mgt Reg.MGT_TIME_OFS (satOfs theta)
  let ns : Int := 65536
  let s1 : State :=
    if 1000 * ns < theta ∨ theta < -(1000 * ns) then
      let s1 := s0.steerSet theta
      { s1 with mgt := { s1.mgt with good := 0 } }
    else
      let s1 := (s0.slewWrite (ofSigned 32 theta)).steerRate theta period
      let close : Bool := decide (-(10 * ns) ≤ theta) && decide (theta ≤ 10 * ns)
      { s1 with mgt := { s1.mgt with good := if close then s1.mgt.good + 1 else 0 } }
  if s1.mgt.good = 16 ∧ !s1.timeLocked then
    ((s1.setFld .mgt Reg.MGT_STS 2 2 1).setFld .mgt Reg.MGT_STS 3 3 0).raise .mgt 0xE004 s1.timeSrc
      (ofSigned 32 (theta.tdiv ns))
  else s1

def execTimeSampleSteer (period : Nat) (s : State) : Host.Outcome State Fault Refusal :=
  match s.timeSample period with
  | none => notEnabled "no source gives a sample"
  | some (theta, t) => mcCommand s (decide (0 < t)) (fun s => s.steer theta t)

/-- No sample for 8 periods: a locked timebase is unlocked and goes on at its last rate. -/
def execTimeSourceLost (s : State) : Host.Outcome State Fault Refusal :=
  mcCommand s ((s.timeSrc == 1 || s.timeSrc == 2) && decide (5 * s.mgt.sampleAt + 8 * s.mgt.period ≤ 5 * s.ticks)) (fun s =>
    let s1 : State := { s with mgt := { s.mgt with good := 0 } }
    if s.timeLocked then
      ((s1.setFld .mgt Reg.MGT_STS 2 2 0).setFld .mgt Reg.MGT_STS 3 3 1).raise .mgt 0xE005 s.timeSrc 0
    else s1)

/-! Links of the controller (R449, R464). -/

def execEthLink (up : Bool) (s : State) : Host.Outcome State Fault Refusal :=
  mcCommand s ((s.fld .mgt Reg.MGT_STS 1 1 == 1) != up) (fun s =>
    let v := if up then 1 else 0
    (s.setFld .mgt Reg.MGT_STS 1 1 v).raise .mgt 0xE006 v s.mgt.dropped)

/-- The data of a response to an MCTP control request (DSP0236; PRESUMED, log entry 43): Set and Get Endpoint ID, versions,
and the message types of R449. -/
def State.mctpData (s : State) (cmd : Nat) (data : List Byte) : List Byte :=
  match cmd with
  | 1 =>
    let e := leNat (slice data 1 1)
    if data.length < 2 ∨ e = 0 ∨ e = 0xFF then leBytes 1 2 else leBytes 2 0 ++ leBytes 1 e ++ leBytes 1 0
  | 2 => leBytes 1 0 ++ leBytes 1 s.mgt.eid ++ leBytes 2 0
  | 4 => leBytes 1 0 ++ leBytes 1 1 ++ [0xF1#8, 0xF3#8, 0xF0#8, 0x00#8]
  | 5 => leBytes 1 0 ++ leBytes 1 4 ++ [0x00#8, 0x01#8, 0x05#8, 0x7E#8]
  | _ => leBytes 1 5

/-- A control request of the bus owner. -/
def execMctpControlMessage (msg : List Byte) (s : State) : Host.Outcome State Fault Refusal :=
  mcCommand s (decide (2 ≤ msg.length) && bit (leNat (slice msg 0 1)) 7) (fun s =>
    let cmd := leNat (slice msg 1 1)
    let data := msg.drop 2
    let e := leNat (slice data 1 1)
    let r := s.mctpData cmd data
    let s1 : State := if cmd = 1 ∧ slice r 0 1 = [0#8] then { s with mgt := { s.mgt with eid := e } } else s
    s1.emit (.mctp (leBytes 1 (leNat (slice msg 0 1) % 32) ++ leBytes 1 cmd ++ r)))

end Sys2Proof.Machine
end

