-- ==== Sys2Proof/Machine/Tdisp.lean ====
section
/-!
DEFINITION. IDE streams and TDISP (15_host_interface.md, R376, R381 to R383, R401). The layouts of IDE_KM and TDISP messages
are those of the PCI-SIG specifications that the spec names (PRESUMED, log entry 41).
-/
namespace Sys2Proof.Machine

/-! IDE (R382). -/

/-- The meaning of a message in an established session of a port's responder. -/
def sessionCommand (s : State) (x id : Nat) (serve : State → State × List Byte) : Host.Outcome State Fault Refusal :=
  if ¬ x < 2 then .fault .noSuchUnit
  else if !s.spdmPath x ∨ s.thl.stage ≠ 1 then notEnabled "Thallus answers no session now"
  else match (s.spdm x).session id with
    | none => notEnabled "no such session"
    | some y =>
      if !y.established then notEnabled "the session's handshake is not complete"
      else
        let r := serve s
        .next (r.1.spdmEmit x r.2)

/-- The six keys of a key set: three sub-streams in two directions. -/
def keySet (set : Nat) : List Nat := (List.range 3).flatMap (fun k => [16 * k + set, 16 * k + 2 + set])

/-- The stream of a function; functions and streams have the same numbers (log entry 41). -/
def Port.stream (p : Port) (i : Nat) : IdeStream := SMap.get {} p.ide i
def Port.setStream (p : Port) (i : Nat) (v : IdeStream) : Port := { p with ide := SMap.set {} p.ide i v }

/-- An answer of IDE_KM: the object, the stream, a status and the key slot of the request. -/
def ideAnswer (object status : Nat) (m : List Byte) : List Byte :=
  leBytes 1 object ++ leBytes 2 0 ++ slice m 3 1 ++ leBytes 1 status ++ slice m 5 2

/-- KEY_PROG stores a key in its slot; K_SET_GO makes the stream Secure once its key set is complete; K_SET_STOP ends it. -/
def State.ideKm (s : State) (x : Nat) (m : List Byte) : State × List Byte :=
  let p := s.port x
  let i := leNat (slice m 3 1)
  let slot := leNat (slice m 5 1)
  let st := p.stream i
  match leNat (slice m 0 1) with
  | 2 =>
    if m.length ≠ 47 then (s, ideAnswer 3 1 m)
    else if leNat (slice m 6 1) ≠ 0 then (s, ideAnswer 3 2 m)
    else if 32 < i ∨ !(keySet (slot % 2)).contains slot then (s, ideAnswer 3 3 m)
    else (s.setPort x (p.setStream i { st with keys := SMap.set [] st.keys slot (slice m 7 40) }), ideAnswer 3 0 m)
  | 4 =>
    if i ≤ 32 ∧ (keySet (slot % 2)).all (fun k => SMap.get [] st.keys k != []) then
      (s.setPort x (p.setStream i { st with secure := true, insecure := false }), ideAnswer 6 0 m)
    else (s, ideAnswer 6 0 m)
  | 5 => ((if i ≤ 32 then s.setPort x (p.setStream i {}) else s), ideAnswer 6 0 m)
  | _ => (s, [])

def execIdeKmKeyProg (port session : Nat) (req : List Byte) (s : State) : Host.Outcome State Fault Refusal :=
  if ¬ [2, 4, 5].contains (leNat (slice req 0 1)) then notEnabled "the object programs no keys"
  else sessionCommand s port session (fun s => s.ideKm port req)

/-- A TLP of a stream fails its integrity check. The stream carries nothing until it is keyed again. -/
def execIdeIntegrityFail (port stream : Nat) (s : State) : Host.Outcome State Fault Refusal :=
  if ¬ (port < 2 ∧ stream ≤ 32) then .fault .noSuchUnit
  else if !(s.port port).linkUp ∨ !((s.port port).stream stream).secure then notEnabled "the stream is not Secure"
  else
    let p := s.port port
    let s1 := s.setPort port (p.setStream stream { secure := false, insecure := true })
    let s2 := (s1.bump (.hif port) (hifCounter 2)).raise (.hif port) 0xD006 port stream
    .next (if stream = 0 then s2 else s2.tdiError port stream 2)

/-! TDISP (R383). -/

/-- A TDISP message: version 1.0, its type, and the interface of the request. -/
def tdispHead (type : Nat) (m : List Byte) : List Byte := leBytes 1 0x10 ++ leBytes 1 type ++ leBytes 2 0 ++ slice m 4 12

def tdispError (code : Nat) (m : List Byte) : List Byte := tdispHead 0x7F m ++ leBytes 4 code ++ leBytes 4 0

/-- The function that a message names. -/
def tdispFn (m : List Byte) : Nat := leNat (slice m 4 1)

def Port.tdi (p : Port) (v : Nat) : Tdi := SMap.get {} p.tdis v
def Port.setTdi (p : Port) (v : Nat) (t : Tdi) : Port := { p with tdis := SMap.set {} p.tdis v t }

/-- The meaning of a request of a type, for a VF that is enabled. -/
def tdispCommand (s : State) (x session type : Nat) (m : List Byte) (serve : State → Nat → State × List Byte) :
    Host.Outcome State Fault Refusal :=
  if leNat (slice m 1 1) ≠ type then notEnabled "the message is another request"
  else sessionCommand s x session (fun s =>
    let v := tdispFn m
    let p := s.port x
    if leNat (slice m 0 1) ≠ 0x10 then (s, tdispError 0x41 m)
    else if ¬ (1 ≤ v ∧ v ≤ p.numVfs ∧ p.vfEn) then (s, tdispError 0x101 m)
    else serve s v)

/-- LOCK_INTERFACE: an unlocked TDI is locked, with what the flags ask for and a fresh nonce. -/
def execLockInterface (port session : Nat) (req : List Byte) (s : State) : Host.Outcome State Fault Refusal :=
  tdispCommand s port session 0x83 req (fun s v =>
    let p := s.port port
    let flags := leNat (slice req 16 2)
    if req.length < 36 then (s, tdispError 0x01 req)
    else if (p.tdi v).state ≠ .unlocked then (s, tdispError 0x04 req)
    else if !s.thl.trngOk then (s, tdispError 0x103 req)
    else
      let d := s.draw 32
      let t : Tdi := { state := .locked, session := session, noFwUpdate := bit flags 0, lockMsix := bit flags 2, nonce := d.2,
                       shift := leNat (slice req 20 8) }
      (d.1.setPort port (p.setTdi v t), tdispHead 0x03 req ++ d.2))

def execGetDeviceInterfaceState (port session : Nat) (req : List Byte) (s : State) : Host.Outcome State Fault Refusal :=
  tdispCommand s port session 0x85 req (fun s v =>
    (s, tdispHead 0x05 req ++ leBytes 1 ((s.port port).tdi v).state.code))

/-- A range of the report: its first page moved by the lock's offset, its pages, and its BAR with attributes. -/
def tdiRange (base shift pages attr bar : Nat) : List Byte :=
  leBytes 8 (base + shift) ++ leBytes 4 pages ++ leBytes 4 (attr + bar * 65536)

/-- The device-specific part: the context, its class (bit 0) and Prothallus bit (bit 1), and its policy digest. -/
def State.tdiSpecific (s : State) (c : Nat) : List Byte :=
  let x := s.ctx c
  leBytes 1 c ++ leBytes 1 ((if x.joint then 1 else 0) + (if x.proth then 2 else 0))
    ++ (match x.policy with
        | some p => slice p.digest 0 48
        | none => leBytes 48 0)

/-- The interface report of VF `v`. -/
def State.tdiReport (s : State) (x v : Nat) : List Byte :=
  let p := s.port x
  let t := p.tdi v
  let f := p.func v
  let msix := 31 + (if f.fnMask then 2 ^ 14 else 0) + (if f.msixEn then 2 ^ 15 else 0)
  let spec := s.tdiSpecific (v - 1)
  leBytes 2 ((if t.noFwUpdate then 1 else 0) + 2) ++ leBytes 2 0 ++ leBytes 2 msix ++ leBytes 2 0 ++ leBytes 4 0 ++ leBytes 4 2
    ++ tdiRange (p.vfBar0 + (v - 1) * 2 ^ 18) t.shift 64 3 0 ++ tdiRange (p.vfBar2 + (v - 1) * 2 ^ 12) t.shift 1 0 2
    ++ leBytes 4 spec.length ++ spec

/-- Whether a TDI was locked by a session and still stands in a state. -/
def Tdi.heldBy (t : Tdi) (session : Nat) : Bool :=
  t.session == session && (match t.state with
    | .locked | .run => true
    | _ => false)

def execGetDeviceInterfaceReport (port session : Nat) (req : List Byte) (s : State) : Host.Outcome State Fault Refusal :=
  tdispCommand s port session 0x84 req (fun s v =>
    let r := s.tdiReport port v
    let off := leNat (slice req 16 2)
    if req.length < 20 ∨ r.length ≤ off then (s, tdispError 0x01 req)
    else if !((s.port port).tdi v).heldBy session then (s, tdispError 0x04 req)
    else
      let part := (r.drop off).take (leNat (slice req 18 2))
      (s, tdispHead 0x04 req ++ leBytes 2 part.length ++ leBytes 2 (r.length - off - part.length) ++ part))

/-- START_INTERFACE: a locked TDI enters RUN on its session and nonce. -/
def execStartInterface (port session : Nat) (req : List Byte) (s : State) : Host.Outcome State Fault Refusal :=
  tdispCommand s port session 0x86 req (fun s v =>
    let p := s.port port
    let t := p.tdi v
    if req.length < 48 then (s, tdispError 0x01 req)
    else if t.state ≠ .locked ∨ t.session ≠ session then (s, tdispError 0x04 req)
    else if slice req 16 32 ≠ t.nonce then (s, tdispError 0x102 req)
    else (s.setPort port (p.setTdi v { t with state := .run, nonce := [] }), tdispHead 0x06 req))

/-- STOP_INTERFACE: a TDI that is locked or runs enters ERROR, as 0xD007 names STOP among its causes; one in ERROR is
unlocked (DEDUCED, log entry 42). -/
def execStopInterface (port session : Nat) (req : List Byte) (s : State) : Host.Outcome State Fault Refusal :=
  tdispCommand s port session 0x87 req (fun s v =>
    let p := s.port port
    if s.tdiHeld port v then (s.tdiError port v 3, tdispHead 0x07 req)
    else (s.setPort port (p.setTdi v {}), tdispHead 0x07 req))

end Sys2Proof.Machine
end

