-- ==== Sys2Proof/Machine/Dispatch.lean ====
section
/-!
DEFINITION. The dispatch of a command to its meaning.
-/
namespace Sys2Proof.Machine

/-- The effect of a command on everything but the queue of waiting commands. -/
def exec (i : Instr) (s : State) : Host.Outcome State Fault Refusal :=
  match i with
  | .coldReset settle mgmtPort => Sys2Proof.Machine.execColdReset settle mgmtPort s
  | .oscFirstEdge => Sys2Proof.Machine.execOscFirstEdge s
  | .oscEdgeTimeout => Sys2Proof.Machine.execOscEdgeTimeout s
  | .settleTimeEnd => Sys2Proof.Machine.execSettleTimeEnd s
  | .pllLocked lockUs => Sys2Proof.Machine.execPllLocked lockUs s
  | .pllLockTimeout => Sys2Proof.Machine.execPllLockTimeout s
  | .pllLockLost => Sys2Proof.Machine.execPllLockLost s
  | .faultPatternFrame => Sys2Proof.Machine.execFaultPatternFrame s
  | .rstNAsserted => Sys2Proof.Machine.execRstNAsserted s
  | .topResetGo r value => Sys2Proof.Machine.execTopResetGo r value s
  | .bootWatchdogExpiry => Sys2Proof.Machine.execBootWatchdogExpiry s
  | .moduleResetRelease => Sys2Proof.Machine.execModuleResetRelease s
  | .partitionReset r p value => Sys2Proof.Machine.execPartitionReset r p value s
  | .partitionResetDone p => Sys2Proof.Machine.execPartitionResetDone p s
  | .contextReset r c value => Sys2Proof.Machine.execContextReset r c value s
  | .contextResetDone c => Sys2Proof.Machine.execContextResetDone c s
  | .linkRetrain r l value => Sys2Proof.Machine.execLinkRetrain r l value s
  | .linkTrained l => Sys2Proof.Machine.execLinkTrained l s
  | .nop n => Sys2Proof.Machine.execNop n s
  | .halt n => Sys2Proof.Machine.execHalt n s
  | .accZeroingDone n => Sys2Proof.Machine.execAccZeroingDone n s
  | .sli n => Sys2Proof.Machine.execSli n s
  | .salu n => Sys2Proof.Machine.execSalu n s
  | .aalu n => Sys2Proof.Machine.execAalu n s
  | .loop n => Sys2Proof.Machine.execLoop n s
  | .br n => Sys2Proof.Machine.execBr n s
  | .sld n => Sys2Proof.Machine.execSld n s
  | .sst n => Sys2Proof.Machine.execSst n s
  | .mma n ph => Sys2Proof.Machine.execMma n ph s
  | .gopen n ph => Sys2Proof.Machine.execGopen n ph s
  | .gclose n ph => Sys2Proof.Machine.execGclose n ph s
  | .gspill n ph => Sys2Proof.Machine.execGspill n ph s
  | .gfill n ph => Sys2Proof.Machine.execGfill n ph s
  | .greduce x => Sys2Proof.Machine.execGreduce x s
  | .greduceTileReceived n => Sys2Proof.Machine.execGreduceTileReceived n s
  | .treeTimeout n => Sys2Proof.Machine.execTreeTimeout n s
  | .vadd n ph => Sys2Proof.Machine.execVadd n ph s
  | .vsub n ph => Sys2Proof.Machine.execVsub n ph s
  | .vmul n ph => Sys2Proof.Machine.execVmul n ph s
  | .vfma n ph => Sys2Proof.Machine.execVfma n ph s
  | .vmax n ph => Sys2Proof.Machine.execVmax n ph s
  | .vmin n ph => Sys2Proof.Machine.execVmin n ph s
  | .vabs n ph => Sys2Proof.Machine.execVabs n ph s
  | .vneg n ph => Sys2Proof.Machine.execVneg n ph s
  | .vrcp n ph => Sys2Proof.Machine.execVrcp n ph s
  | .vrsqrt n ph => Sys2Proof.Machine.execVrsqrt n ph s
  | .vexp n ph => Sys2Proof.Machine.execVexp n ph s
  | .vlog n ph => Sys2Proof.Machine.execVlog n ph s
  | .vscale n ph => Sys2Proof.Machine.execVscale n ph s
  | .vcvt n ph => Sys2Proof.Machine.execVcvt n ph s
  | .vsround n ph => Sys2Proof.Machine.execVsround n ph s
  | .vcmp n ph => Sys2Proof.Machine.execVcmp n ph s
  | .vsel n ph => Sys2Proof.Machine.execVsel n ph s
  | .vcompress n ph => Sys2Proof.Machine.execVcompress n ph s
  | .vexpand n ph => Sys2Proof.Machine.execVexpand n ph s
  | .vmlogic n ph => Sys2Proof.Machine.execVmlogic n ph s
  | .vmld n ph => Sys2Proof.Machine.execVmld n ph s
  | .vmst n ph => Sys2Proof.Machine.execVmst n ph s
  | .vrsum n ph => Sys2Proof.Machine.execVrsum n ph s
  | .vrsumsq n ph => Sys2Proof.Machine.execVrsumsq n ph s
  | .vrmax n ph => Sys2Proof.Machine.execVrmax n ph s
  | .vrmin n ph => Sys2Proof.Machine.execVrmin n ph s
  | .vrmoment n ph => Sys2Proof.Machine.execVrmoment n ph s
  | .dsub n => Sys2Proof.Machine.execDsub n s
  | .dwait n => Sys2Proof.Machine.execDwait n s
  | .dfence n => Sys2Proof.Machine.execDfence n s
  | .flagadd n => Sys2Proof.Machine.execFlagadd n s
  | .flagwait n => Sys2Proof.Machine.execFlagwait n s
  | .flagTimeout n => Sys2Proof.Machine.execFlagTimeout n s
  | .dmaDescriptorStart e => Sys2Proof.Machine.execDmaDescriptorStart e s
  | .dmaDescriptorComplete e => Sys2Proof.Machine.execDmaDescriptorComplete e s
  | .dmaBusError e k => Sys2Proof.Machine.execDmaBusError e k s
  | .dmaTeardownAbort e m => Sys2Proof.Machine.execDmaTeardownAbort e m s
  | .statSlotFree r f slot value => Sys2Proof.Machine.execStatSlotFree r f slot value s
  | .estFold p slot seed => Sys2Proof.Machine.execEstFold p slot seed s
  | .estSlotWrite r p slot word len value => Sys2Proof.Machine.execEstSlotWrite r p slot word len value s
  | .memoryLineRead stack line cls ctx flips => Sys2Proof.Machine.execMemoryLineRead stack line cls ctx flips s
  | .memoryLineWrite stack line cls ctx off data => Sys2Proof.Machine.execMemoryLineWrite stack line cls ctx off data s
  | .eccWriteback stack line => Sys2Proof.Machine.execEccWriteback stack line s
  | .sweepStart stack => Sys2Proof.Machine.execSweepStart stack s
  | .sweepDone region last => Sys2Proof.Machine.execSweepDone region last s
  | .stageSplitWrite r stack value => Sys2Proof.Machine.execStageSplitWrite r stack value s
  | .stagingZeroingDone stack => Sys2Proof.Machine.execStagingZeroingDone stack s
  | .cseRequest f => Sys2Proof.Machine.execCseRequest f s
  | .cseStackPart stack => Sys2Proof.Machine.execCseStackPart stack s
  | .cseMerge f => Sys2Proof.Machine.execCseMerge f s
  | .redArm job => Sys2Proof.Machine.execRedArm job s
  | .redSend job => Sys2Proof.Machine.execRedSend job s
  | .redRelease job => Sys2Proof.Machine.execRedRelease job s
  | .contributionReceived stack src => Sys2Proof.Machine.execContributionReceived stack src s
  | .redDeadline stack entry => Sys2Proof.Machine.execRedDeadline stack entry s
  | .redClose stack entry => Sys2Proof.Machine.execRedClose stack entry s
  | .sampledCheck stack entry => Sys2Proof.Machine.execSampledCheck stack entry s
  | .updateInit job ph => Sys2Proof.Machine.execUpdateInit job ph s
  | .updateApply job ph => Sys2Proof.Machine.execUpdateApply job ph s
  | .updateClear job ph => Sys2Proof.Machine.execUpdateClear job ph s
  | .updateLoadprog job ph => Sys2Proof.Machine.execUpdateLoadprog job ph s
  | .layerUpdate stack => Sys2Proof.Machine.execLayerUpdate stack s
  | .layerSkip stack => Sys2Proof.Machine.execLayerSkip stack s
  | .layerFaultWrite stack => Sys2Proof.Machine.execLayerFaultWrite stack s
  | .releaseStart stack hdr => Sys2Proof.Machine.execReleaseStart stack hdr s
  | .mirrorSend stack hdr => Sys2Proof.Machine.execMirrorSend stack hdr s
  | .frameTransmit l => Sys2Proof.Machine.execFrameTransmit l s
  | .frameReceived l flit blocks => Sys2Proof.Machine.execFrameReceived l flit blocks s
  | .controlWordReceived l block => Sys2Proof.Machine.execControlWordReceived l block s
  | .rekeyForce r l value => Sys2Proof.Machine.execRekeyForce r l value s
  | .laneFailed l lane => Sys2Proof.Machine.execLaneFailed l lane s
  | .laneErrorWindow l counts => Sys2Proof.Machine.execLaneErrorWindow l counts s
  | .remapOrderedSet l lane => Sys2Proof.Machine.execRemapOrderedSet l lane s
  | .remapDeskewDone l => Sys2Proof.Machine.execRemapDeskewDone l s
  | .timeRequestTimer l => Sys2Proof.Machine.execTimeRequestTimer l s
  | .timeAnswer l => Sys2Proof.Machine.execTimeAnswer l s
  | .timeAnswerReceived l t2 t3 t4 => Sys2Proof.Machine.execTimeAnswerReceived l t2 t3 t4 s
  | .timeAnswerTimeout l => Sys2Proof.Machine.execTimeAnswerTimeout l s
  | .linkSessionEstablish l peer node => Sys2Proof.Machine.execLinkSessionEstablish l peer node s
  | .slotRetireNotice l slot => Sys2Proof.Machine.execSlotRetireNotice l slot s
  | .remoteWrite l => Sys2Proof.Machine.execRemoteWrite l s
  | .mirrorWrite l => Sys2Proof.Machine.execMirrorWrite l s
  | .remoteWriteAck l => Sys2Proof.Machine.execRemoteWriteAck l s
  | .remoteWriteRefusal l => Sys2Proof.Machine.execRemoteWriteRefusal l s
  | .fabricStandby src => Sys2Proof.Machine.execFabricStandby src s
  | .fabricAdopt src => Sys2Proof.Machine.execFabricAdopt src s
  | .fabricActivate src => Sys2Proof.Machine.execFabricActivate src s
  | .fabricRoute src => Sys2Proof.Machine.execFabricRoute src s
  | .fabricRestore src => Sys2Proof.Machine.execFabricRestore src s
  | .thallusBoot => Sys2Proof.Machine.execThallusBoot s
  | .runtimeReady => Sys2Proof.Machine.execRuntimeReady s
  | .imageDestReady image => Sys2Proof.Machine.execImageDestReady image s
  | .imageReadyTimeout image => Sys2Proof.Machine.execImageReadyTimeout image s
  | .trngHealthFail kind => Sys2Proof.Machine.execTrngHealthFail kind s
  | .calyptra src => Sys2Proof.Machine.execCalyptra src s
  | .calyptraSigned failures => Sys2Proof.Machine.execCalyptraSigned failures s
  | .identity port => Sys2Proof.Machine.execIdentity port s
  | .keyUpdate port => Sys2Proof.Machine.execKeyUpdate port s
  | .fwBegin port => Sys2Proof.Machine.execFwBegin port s
  | .fwData port => Sys2Proof.Machine.execFwData port s
  | .fwEnd port => Sys2Proof.Machine.execFwEnd port s
  | .activate port => Sys2Proof.Machine.execActivate port s
  | .mailboxCancel r port value => Sys2Proof.Machine.execMailboxCancel r port value s
  | .operatorEscPolicy src => Sys2Proof.Machine.execOperatorEscPolicy src s
  | .operatorPartitionLayout src => Sys2Proof.Machine.execOperatorPartitionLayout src s
  | .getMeasurements port req => Sys2Proof.Machine.execGetMeasurements port req s
  | .getVersion port req => Sys2Proof.Machine.execGetVersion port req s
  | .getCapabilities port req => Sys2Proof.Machine.execGetCapabilities port req s
  | .negotiateAlgorithms port req => Sys2Proof.Machine.execNegotiateAlgorithms port req s
  | .getDigests port req => Sys2Proof.Machine.execGetDigests port req s
  | .getCertificate port req => Sys2Proof.Machine.execGetCertificate port req s
  | .challenge port req => Sys2Proof.Machine.execChallenge port req s
  | .keyExchange port req => Sys2Proof.Machine.execKeyExchange port req s
  | .finish port session req chain keys => Sys2Proof.Machine.execFinish port session req chain keys s
  | .spdmKeyUpdate port session req => Sys2Proof.Machine.execSpdmKeyUpdate port session req s
  | .heartbeat port session req => Sys2Proof.Machine.execHeartbeat port session req s
  | .endSession port session req => Sys2Proof.Machine.execEndSession port session req s
  | .chunkSend port req => Sys2Proof.Machine.execChunkSend port req s
  | .chunkGet port req => Sys2Proof.Machine.execChunkGet port req s
  | .vendorDefinedRequest port session req => Sys2Proof.Machine.execVendorDefinedRequest port session req s
  | .ideKmKeyProg port session req => Sys2Proof.Machine.execIdeKmKeyProg port session req s
  | .ideIntegrityFail port stream => Sys2Proof.Machine.execIdeIntegrityFail port stream s
  | .lockInterface port session req => Sys2Proof.Machine.execLockInterface port session req s
  | .getDeviceInterfaceState port session req => Sys2Proof.Machine.execGetDeviceInterfaceState port session req s
  | .getDeviceInterfaceReport port session req => Sys2Proof.Machine.execGetDeviceInterfaceReport port session req s
  | .startInterface port session req => Sys2Proof.Machine.execStartInterface port session req s
  | .stopInterface port session req => Sys2Proof.Machine.execStopInterface port session req s
  | .ctxCreate p => Sys2Proof.Machine.execCtxCreate p s
  | .jointCreate p => Sys2Proof.Machine.execJointCreate p s
  | .policyKeyTransfer l ctx => Sys2Proof.Machine.execPolicyKeyTransfer l ctx s
  | .teardown p => Sys2Proof.Machine.execTeardown p s
  | .teardownRetireDestroy c => Sys2Proof.Machine.execTeardownRetireDestroy c s
  | .teardownRelease c => Sys2Proof.Machine.execTeardownRelease c s
  | .regionCreate p => Sys2Proof.Machine.execRegionCreate p s
  | .regionRekey p => Sys2Proof.Machine.execRegionRekey p s
  | .regionDestroy p => Sys2Proof.Machine.execRegionDestroy p s
  | .slotBind p => Sys2Proof.Machine.execSlotBind p s
  | .slotUnbind p => Sys2Proof.Machine.execSlotUnbind p s
  | .releaseGrant p => Sys2Proof.Machine.execReleaseGrant p s
  | .sqDoorbell r c q len value => Sys2Proof.Machine.execSqDoorbell r c q len value s
  | .cqHeadReturn r c len value => Sys2Proof.Machine.execCqHeadReturn r c len value s
  | .commandStart p => Sys2Proof.Machine.execCommandStart p s
  | .launch job => Sys2Proof.Machine.execLaunch job s
  | .launchComplete job => Sys2Proof.Machine.execLaunchComplete job s
  | .dma job => Sys2Proof.Machine.execDma job s
  | .cse job => Sys2Proof.Machine.execCse job s
  | .fence job => Sys2Proof.Machine.execFence job s
  | .signalWrite job => Sys2Proof.Machine.execSignalWrite job s
  | .signalWait job => Sys2Proof.Machine.execSignalWait job s
  | .signalTimeout job => Sys2Proof.Machine.execSignalTimeout job s
  | .captureMark job => Sys2Proof.Machine.execCaptureMark job s
  | .portReset x cause => Sys2Proof.Machine.execPortReset x cause s
  | .pf0Flr x => Sys2Proof.Machine.execPf0Flr x s
  | .pcieLinkTrained x speed width => Sys2Proof.Machine.execPcieLinkTrained x speed width s
  | .ptmRequest x => Sys2Proof.Machine.execPtmRequest x s
  | .hostDmaErrorCompletion x e kind k => Sys2Proof.Machine.execHostDmaErrorCompletion x e kind k s
  | .registerWrite r page off len value => Sys2Proof.Machine.execRegisterWrite r page off len value s
  | .evtStsWrite r page value => Sys2Proof.Machine.execEvtStsWrite r page value s
  | .evtMaskWrite r page value => Sys2Proof.Machine.execEvtMaskWrite r page value s
  | .pageCtlLock r page value => Sys2Proof.Machine.execPageCtlLock r page value s
  | .domainSwitchRequest r dom value => Sys2Proof.Machine.execDomainSwitchRequest r dom value s
  | .domainSwitchBoundary dom => Sys2Proof.Machine.execDomainSwitchBoundary dom s
  | .domainSwitched dom => Sys2Proof.Machine.execDomainSwitched dom s
  | .timebaseTick => Sys2Proof.Machine.execTimebaseTick s
  | .tmbSetGo r value => Sys2Proof.Machine.execTmbSetGo r value s
  | .timeSet => Sys2Proof.Machine.execTimeSet s
  | .tmbSlewWrite r value => Sys2Proof.Machine.execTmbSlewWrite r value s
  | .tmbNsLoRead r len => Sys2Proof.Machine.execTmbNsLoRead r len s
  | .tmbLatchedRead r frac => Sys2Proof.Machine.execTmbLatchedRead r frac s
  | .ppsEdge => Sys2Proof.Machine.execPpsEdge s
  | .ref10mEdge => Sys2Proof.Machine.execRef10mEdge s
  | .throttleWindow => Sys2Proof.Machine.execThrottleWindow s
  | .currentSample watts milliamps => Sys2Proof.Machine.execCurrentSample watts milliamps s
  | .thermalSample temps => Sys2Proof.Machine.execThermalSample temps s
  | .capLoop watts => Sys2Proof.Machine.execCapLoop watts s
  | .extThrottle low => Sys2Proof.Machine.execExtThrottle low s
  | .inputFaultShutdown cause millivolts => Sys2Proof.Machine.execInputFaultShutdown cause millivolts s
  | .inputRange high millivolts => Sys2Proof.Machine.execInputRange high millivolts s
  | .powerStageRestart => Sys2Proof.Machine.execPowerStageRestart s
  | .meterSample codes => Sys2Proof.Machine.execMeterSample codes s
  | .meterAllocate resident => Sys2Proof.Machine.execMeterAllocate resident s
  | .meterInterval => Sys2Proof.Machine.execMeterInterval s
  | .meterPowerFail => Sys2Proof.Machine.execMeterPowerFail s
  | .meterReady gap => Sys2Proof.Machine.execMeterReady gap s
  | .meterRead msg => Sys2Proof.Machine.execMeterRead msg s
  | .sealRead msg => Sys2Proof.Machine.execSealRead msg s
  | .meterLog msg => Sys2Proof.Machine.execMeterLog msg s
  | .meterAck msg => Sys2Proof.Machine.execMeterAck msg s
  | .meterParam msg => Sys2Proof.Machine.execMeterParam msg s
  | .meterFwBegin len => Sys2Proof.Machine.execMeterFwBegin len s
  | .meterFwData off bytes => Sys2Proof.Machine.execMeterFwData off bytes s
  | .meterFwEnd => Sys2Proof.Machine.execMeterFwEnd s
  | .sensorPoll readings => Sys2Proof.Machine.execSensorPoll readings s
  | .pldmGetSensorReading sensor => Sys2Proof.Machine.execPldmGetSensorReading sensor s
  | .pldmRequestUpdate image len => Sys2Proof.Machine.execPldmRequestUpdate image len s
  | .pldmRequestFirmwareData data => Sys2Proof.Machine.execPldmRequestFirmwareData data s
  | .pldmActivateFirmware image selfContained => Sys2Proof.Machine.execPldmActivateFirmware image selfContained s
  | .ptpMessage bytes => Sys2Proof.Machine.execPtpMessage bytes s
  | .timeSampleSteer period => Sys2Proof.Machine.execTimeSampleSteer period s
  | .timeSourceLost => Sys2Proof.Machine.execTimeSourceLost s
  | .ethLink up => Sys2Proof.Machine.execEthLink up s
  | .logDequeue => Sys2Proof.Machine.execLogDequeue s
  | .logPageProgram => Sys2Proof.Machine.execLogPageProgram s
  | .logStart => Sys2Proof.Machine.execLogStart s
  | .captureStart c => Sys2Proof.Machine.execCaptureStart c s
  | .captureStop c => Sys2Proof.Machine.execCaptureStop c s
  | .replayStart c => Sys2Proof.Machine.execReplayStart c s
  | .replayStop c => Sys2Proof.Machine.execReplayStop c s
  | .perstNRising x => Sys2Proof.Machine.execPerstNRising x s
  | .slotBindConfirmation l slot fsid => Sys2Proof.Machine.execSlotBindConfirmation l slot fsid s
  | .trngStartUpTest => Sys2Proof.Machine.execTrngStartUpTest s
  | .registerRead r page off len => Sys2Proof.Machine.execRegisterRead r page off len s
  | .configurationRequest x fn off value => Sys2Proof.Machine.execConfigurationRequest x fn off value s
  | .aerError x uncorrectable status => Sys2Proof.Machine.execAerError x uncorrectable status s
  | .pldmCancelUpdate => Sys2Proof.Machine.execPldmCancelUpdate s
  | .mctpControlMessage msg => Sys2Proof.Machine.execMctpControlMessage msg s

end Sys2Proof.Machine
end

