-- ==== Sys2Proof/Safety.lean ====
section
/-!
DEFINITION. The terms in which statements about the module are made: commands that complete, tables in canonical form, a
legal layout, and what of the state a command leaves alone.
-/
namespace Sys2Proof.Machine

/-- A command answers a next state, of which `P` holds. -/
def Completes (i : Instr) (s : State) (P : State → Prop) : Prop := ∃ t, exec i s = .next t ∧ P t

/-- A command does not occur in a state: it is refused as an event that cannot be. -/
def Impossible (i : Instr) (s : State) : Prop := ∃ why, exec i s = .refused (.notEnabled why)

/-- A property that every step keeps. -/
def KeptByEveryStep (Inv : State → Prop) : Prop := ∀ s t, Inv s → step s = .next t → Inv t

/-- Every table of the state that a unit's number or a register's key indexes is in canonical form. -/
abbrev State.tablesCanonical (s : State) : Prop :=
  SMap.wf 0#32 s.regs = true ∧ SMap.wf {} s.pinnae = true ∧ SMap.wf {} s.fronds = true ∧ SMap.wf {} s.ctxs = true
    ∧ SMap.wf {} s.parts = true ∧ SMap.wf {} s.stackTab = true ∧ SMap.wf {} s.regions = true ∧ SMap.wf {} s.links = true
    ∧ SMap.wf 0 s.portOf = true ∧ SMap.wf {} s.ports = true ∧ SMap.wf false s.haltPart = true

/-- The tables inside a pinna that statements read in canonical form: scalar registers, masks and groups. -/
abbrev Pinna.canonical (p : Pinna) : Prop :=
  SMap.wf 0#32 p.sregs = true ∧ SMap.wf 0 p.masks = true ∧ SMap.wf {} p.groups = true

/-- The tables inside a stack's record: symbol errors and entries. -/
abbrev Stack.canonical (x : Stack) : Prop := SMap.wf [] x.err = true ∧ SMap.wf {} x.entries = true

/-- The tables inside a link's record: slots, waiting bindings and send queues. -/
abbrev Link.canonical (x : Link) : Prop :=
  SMap.wf {} x.slots = true ∧ SMap.wf none x.waits = true ∧ SMap.wf [] x.tx = true

/-- The tables inside the records of every pinna, stack and link are canonical. -/
def State.innerCanonical (s : State) : Prop :=
  (∀ n, (s.pinna n).canonical) ∧ (∀ k, (s.stack k).canonical) ∧ ∀ l, (s.link l).canonical

/-- Every addressed memory is in canonical form: scratchpads, frond memories, stacks and the hosts' memories. -/
def State.memoriesCanonical (s : State) : Prop :=
  (∀ n, (s.pinna n).spad.wf = true) ∧ (∀ f, (s.frond f).mem.wf = true) ∧ (∀ k, (s.stack k).mem.wf = true)
    ∧ ∀ x, (s.port x).hostMem.wf = true

/-- The partition layout is one of R349, and every partition is owned by port 0 or port 1 (R350). -/
abbrev State.layoutLegal (s : State) : Prop :=
  (s.layout = 1 ∨ s.layout = 2 ∨ s.layout = 4) ∧ ∀ p, s.portOfPart p < 2

/-- The state without what the report of an event changes: registers, ports, messages, the log and the event limits. -/
def State.silent (s : State) : State := { s with regs := [], ports := [], out := [], log := {}, rate := [] }

/-- Nothing but the record of pinna `n` differs. -/
def OnlyPinna (n : Nat) (s t : State) : Prop :=
  { t with pinnae := s.pinnae } = s ∧ ∀ m, m ≠ n → t.pinna m = s.pinna m

/-- Nothing but register words differs, and of them none outside the page `pg` (offsets below 4,096 in either copy). -/
def OnlyPage (pg : Page) (s t : State) : Prop :=
  { t with regs := s.regs } = s
    ∧ ∀ k, (k < pg.id * 2048 ∨ pg.id * 2048 + 2048 ≤ k) → SMap.get 0#32 t.regs k = SMap.get 0#32 s.regs k

/-- Every byte of the addressed memories reads as before: scratchpads, frond memories, stacks, hosts. -/
def MemoriesSame (s t : State) : Prop :=
  (∀ n a, (t.pinna n).spad.byte a = (s.pinna n).spad.byte a) ∧ (∀ f a, (t.frond f).mem.byte a = (s.frond f).mem.byte a)
    ∧ (∀ k a, (t.stack k).mem.byte a = (s.stack k).mem.byte a) ∧ ∀ x a, (t.port x).hostMem.byte a = (s.port x).hostMem.byte a

end Sys2Proof.Machine
end

