-- ==== Sys2Proof/Certificates/Slice0/Obligations.lean ====
section
/-!
DEFINITION. The statements about the module, for the provers, and the notions they share.
-/
namespace Sys2Proof.Machine

/-- Pinna `n` can issue the instruction at its program counter, whose opcode is `op`: it runs, and no register that the
instruction touches waits for a `VCOMPRESS` (R59, R107). -/
abbrev CanIssue (s : State) (n op : Nat) : Prop :=
  s.pinnaRuns n = true ∧ fOp (s.pinna n).fetch = op ∧ (s.pinna n).heldByCompress (s.pinna n).fetch 0 = false

/-- The loops and the index that follow the instruction at the program counter (R61). -/
def Pinna.following (p : Pinna) : List LoopRec × Nat := loopEnd p.loops (p.pc + 1)

/-- Nothing but pinna `n` differs, and its record is `p` with the sequencer moved to `to_` under the loops `ls`. -/
def WentTo (n : Nat) (p : Pinna) (ls : List LoopRec) (to_ : Nat) (s t : State) : Prop :=
  OnlyPinna n s t ∧ t.pinna n = { p with pc := to_, loops := ls, stall := none }

/-- Nothing but pinna `n` differs, and its record is `p` with the sequencer past the instruction at `s`'s counter. -/
def MovedOn (n : Nat) (p : Pinna) (s t : State) : Prop :=
  WentTo n p (s.pinna n).following.1 (s.pinna n).following.2 s t

/-- The second operand of a `SALU` (R60). -/
def Pinna.saluY (p : Pinna) : BitVec 32 :=
  if (p.fetch >>> 36) % 2 = 1 then BitVec.ofNat 32 (fImm p.fetch) else p.sreg (fB p.fetch)

/-- The results of R60's scalar operations, on the operands' values. -/
def SaluRule (op : Nat) (x y r : BitVec 32) : Prop :=
  (op = 0 ∧ r.toNat = (x.toNat + y.toNat) % 2 ^ 32) ∨ (op = 1 ∧ r.toNat = (x.toNat + 2 ^ 32 - y.toNat) % 2 ^ 32)
    ∨ (op = 2 ∧ r = x &&& y) ∨ (op = 3 ∧ r = x ||| y) ∨ (op = 4 ∧ r = x ^^^ y)
    ∨ (op = 5 ∧ r.toNat = x.toNat * 2 ^ (y.toNat % 32) % 2 ^ 32) ∨ (op = 6 ∧ r.toNat = x.toNat / 2 ^ (y.toNat % 32))
    ∨ (op = 7 ∧ r.toNat = x.toNat * y.toNat % 2 ^ 32)
    ∨ (op = 8 ∧ r.toInt = min x.toInt y.toInt) ∨ (op = 9 ∧ r.toInt = max x.toInt y.toInt)

/-- The condition of a `BR` (R60). -/
def BranchHolds (cond : Nat) (x : BitVec 32) : Prop :=
  cond = 0 ∨ (cond = 1 ∧ x.toNat = 0) ∨ (cond = 2 ∧ x.toNat ≠ 0) ∨ (cond = 3 ∧ 2 ^ 31 ≤ x.toNat)
    ∨ (cond = 4 ∧ x.toNat < 2 ^ 31)

/-- The trip count and the body length of a `LOOP` (R60). -/
def Pinna.loopTrips (p : Pinna) : Nat :=
  if bit (fD p.fetch) 3 then (p.sreg (fA p.fetch)).toNat else bits p.fetch 27 0
def Pinna.loopBody (p : Pinna) : Nat := fSub p.fetch * 16 + bits p.fetch 31 28

/-- Pinna `n` has stopped on the refusal `code` of the instruction at index `idx`: its part of the LAUNCH is over, its
file is being zeroed, and the bit of the code's class is set among its page's pending events (R86, R89, R394). -/
def StoppedWith (n code idx : Nat) (t : State) : Prop :=
  (t.pinna n).faultCode = code ∧ (t.pinna n).faultPc = idx ∧ (t.pinna n).seq = .stopped ∧ (t.pinna n).launch = none
    ∧ (t.pinna n).queue = [] ∧ (t.pinna n).zeroing = true ∧ bit (t.word (.pna n) 0x010) (code / 4096) = true

/-- The vector instructions with their opcodes (R110 to R114). -/
def vectorCommands (n : Nat) (ph : Phase) : List (Nat × Instr) :=
  [(0x80, .vadd n ph), (0x81, .vsub n ph), (0x82, .vmul n ph), (0x83, .vfma n ph), (0x84, .vmax n ph), (0x85, .vmin n ph),
   (0x86, .vabs n ph), (0x87, .vneg n ph), (0x88, .vrcp n ph), (0x89, .vrsqrt n ph), (0x8A, .vexp n ph), (0x8B, .vlog n ph),
   (0x8C, .vscale n ph), (0x8D, .vcvt n ph), (0x8E, .vsround n ph), (0x90, .vcmp n ph), (0x91, .vsel n ph)]
  ++ [(0x92, .vcompress n ph), (0x93, .vexpand n ph), (0x94, .vmlogic n ph), (0x95, .vmld n ph), (0x96, .vmst n ph),
   (0xA0, .vrsum n ph), (0xA1, .vrsumsq n ph), (0xA2, .vrmax n ph), (0xA3, .vrmin n ph), (0xA4, .vrmoment n ph)]

/-- The instruction of pinna `n` that is in the vector engine is `q`, of the opcode `op` and of LAUNCH `l` (R116). -/
abbrev InVectorEngine (s : State) (n op : Nat) (q : QEntry) (l : Launch) : Prop :=
  n < 768 ∧ s.haltedPart (s.pinnaPart n) = false ∧ (s.pinna n).queue.find? (fun q => isVector (fOp q.word.toNat)) = some q
    ∧ (s.pinna n).launch = some l ∧ fOp q.word.toNat = op

/-- The instruction at the head of the queue of an array of pinna `n` is `q`, of the opcode `op` and of LAUNCH `l`, and the
array is at no tree reduction (R59, R69). -/
abbrev AtHead (s : State) (n op : Nat) (q : QEntry) (l : Launch) : Prop :=
  n < 768 ∧ s.haltedPart (s.pinnaPart n) = false ∧ (s.pinna n).queue.find? (QEntry.ofArray q.array) = some q
    ∧ (s.pinna n).inTree q.array = false ∧ (s.pinna n).launch = some l ∧ fOp q.word.toNat = op

/-- Pinna `n`'s record once the head `q` of its array's queue has left it. -/
def Pinna.without (p : Pinna) (q : QEntry) : Pinna := p.take (QEntry.ofArray q.array)

/-- The matrix and group instructions that go to a queue, with their opcodes and their checks at issue. -/
def State.matrixIssues (s : State) (n : Nat) : List (Nat × Instr × (Nat → QEntry → Launch → Option Nat)) :=
  [(0x40, .mma n .issue, mmaCheck), (0x48, .gopen n .issue, gopenCheck), (0x49, .gclose n .issue, gcloseCheck),
   (0x4A, .gspill n .issue, imageCheck true), (0x4B, .gfill n .issue, imageCheck false),
   (0x4C, .greduce ⟨n, .issue⟩, s.greduceCheck n)]

/-- Requester `r`'s write of register `off` of page `pg` passes the gate: the page exists, the requester can make
accesses, reaches the page and may write the register, and, where only RW fields stand there, no lock binds it (R383,
R390, R391). -/
def Admits (s : State) (r : Requester) (pg : Page) (off : Nat) (locks : Bool) : Prop :=
  pg.exists = true ∧ s.canAsk r = true ∧ s.tdiRefuses r = false ∧ s.reaches r pg = true ∧ s.mayWrite r pg off = true
    ∧ (locks = true → s.lockBinds r pg = false)

/-- An engine that runs descriptor `q` and is not halted. -/
def Runs (s : State) (e : EngineId) (q : QDesc) : Prop :=
  e.exists = true ∧ s.engineHalted e = false ∧ (s.engine e).running = some q

/-- Nothing that DRAM holds of stack `k`, nor a line of its metadata cache, differs from what the MPE wrote. -/
abbrev Undisturbed (x : Stack) : Prop :=
  x.err = [] ∧ x.writeback = [] ∧ ∀ e ∈ x.cache, ∀ c ∈ e.2, c.dev = []

/-- Every byte of every stack but those in [lo, hi) of stack `k` reads as before. -/
def StacksSameBut (k lo hi : Nat) (s t : State) : Prop :=
  ∀ j a, (j ≠ k ∨ a < lo ∨ hi ≤ a) → (t.stack j).mem.byte a = (s.stack j).mem.byte a

/-- The command at the head of stack `k`'s lane queue may start, and `rest` stand behind it (R157, R231). -/
def AtLane (s : State) (k : Nat) (cmd : LaneCmd) (rest : List LaneCmd) : Prop :=
  s.lanesRun k = true ∧ (s.stack k).lanes = cmd :: rest ∧ s.laneFree k cmd = true

/-- The state with the head of stack `k`'s lane queue taken. -/
def State.laneTaken (s : State) (k : Nat) (rest : List LaneCmd) : State :=
  s.setStack k { s.stack k with lanes := rest }

/-- The started command `id` of context `c`, whose partition is not halted, is `j`, of the command byte `cmd` (R310, R355,
R356). -/
def Started (s : State) (id cmd c : Nat) (j : Job) : Prop :=
  s.job id = some (c, j) ∧ cmdOf j.entry = cmd ∧ s.haltedPart (c / 8) = false

/-- The stack that holds the lane command of kind `kind` of command `id`. -/
def State.laneOf (s : State) (id : Nat) (kind : LaneKind) : Option Nat :=
  (List.range 12).find? (fun k => (s.stack k).lanes.any (fun l => l.job == some id && l.kind == kind))

/-- Descriptor `q` moves elements of `w` bytes from one run of its frond's memory to another without conversion (R127,
R130). -/
abbrev CopiesWithinFrond (q : QDesc) (w : Nat) : Prop :=
  q.sealArg = none ∧ w ∈ [1, 2, 4, 8] ∧ (Desc.ofBytes q.bytes).fmtIn = (Desc.ofBytes q.bytes).fmtOut
    ∧ codeWidth (Desc.ofBytes q.bytes).fmtIn = 8 * w ∧ codeBlock (Desc.ofBytes q.bytes).fmtIn = false
    ∧ (Desc.ofBytes q.bytes).ssrc = 0 ∧ (Desc.ofBytes q.bytes).sside = false ∧ (Desc.ofBytes q.bytes).tiled = false
    ∧ (Desc.ofBytes q.bytes).ndim = 1 ∧ (Desc.ofBytes q.bytes).org = 0 ∧ (Desc.ofBytes q.bytes).srcSpace = 3
    ∧ (Desc.ofBytes q.bytes).dstSpace = 3 ∧ (Desc.ofBytes q.bytes).src % w = 0 ∧ (Desc.ofBytes q.bytes).dst % w = 0

/-- In frond `f`'s memory the first `n` elements of `w` bytes of descriptor `q`'s destination hold those of its source,
and every other byte is as before. -/
def Moved (s t : State) (f : Nat) (q : QDesc) (w n : Nat) : Prop :=
  ∀ a, (t.frond f).mem.byte a =
    if (Desc.ofBytes q.bytes).dst ≤ a ∧ a < (Desc.ofBytes q.bytes).dst + w * n
    then (s.frond f).mem.byte (a - (Desc.ofBytes q.bytes).dst + (Desc.ofBytes q.bytes).src) else (s.frond f).mem.byte a

/-- Engine `e` has ended its descriptor: it runs none, unless an alarm of the descriptor's own accesses has halted it
(R135, R310). -/
def Idle (t : State) (e : EngineId) : Prop := t.engineHalted e = false → (t.engine e).running = none

/-- Completion records of context `c` are written to no stack, and no capture stream is. -/
abbrev RecordsOutside (s : State) (c : Nat) : Prop := 2 ≤ s.qSpace c Reg.CTX_CQ ∧ s.capMode c ≠ 1

/-- The layer header that stack `k` holds at offset `hdr` (R226). -/
def State.hdrAt (s : State) (k hdr : Nat) : LHdr := LHdr.ofBytes (Mem.read (s.stack k).mem hdr 192)

/-- The update engine of stack `k` has reported an event of its class, unless an alarm has halted it (R253, R310). -/
def Reported (t : State) (k : Nat) : Prop := t.rhzRuns k = true → bit (t.word (.rhz k) 0x010) 6 = true

/-- From `u` to `t`, an update of the layer of lane command `cmd` has been counted, with its header advanced and left
whole; or it has not been counted, and the engine has reported why (R240, R244, R245, R252). -/
def Updated (u t : State) (k : Nat) (cmd : LaneCmd) : Prop :=
  (t.word (.rhz k) 0x188 = u.word (.rhz k) 0x188 → u.word (.rhz k) 0x188 < 2 ^ 32 - 1 → Reported t k) ∧
  (t.word (.rhz k) 0x188 ≠ u.word (.rhz k) 0x188 → ∀ s1 h, u.hdrRead k cmd = (s1, some h) →
    (t.hdrAt k cmd.hdr).step = (h.step + 1) % 2 ^ 32 ∧ (t.hdrAt k cmd.hdr).torn = false
      ∧ (t.hdrAt k cmd.hdr).fault = false)

/-- A request `q` of Thallus is served now, in the state `s0`: its runtime serves, and the queue is empty or has `q` at its
head (R316). -/
abbrev AtThallus (s : State) (q : ThlReq) (s0 : State) : Prop :=
  s.thlServes = true ∧ ((s.thl.queue = [] ∧ s0 = s) ∨ (s.thl.queue ≠ [] ∧ s.thl.queue.head? = some q ∧ s0 = s.thlTake q))

/-- What the table of a link's reset leaves of a link: nothing stands, and it trains, or is down where it is held (R282). -/
def LinkGone (x : Link) : Prop :=
  (∀ k, x.slot k = {}) ∧ x.phase ≠ .up ∧ x.phase ≠ .bootstrap ∧ x.tx = [] ∧ x.replay = [] ∧ x.lm = none

/-- Thallus serves the request of mailbox `x` next; its bytes are `bs`, and their operation is `op` (R316, R344). -/
def Serves (s : State) (x op : Nat) (bs : List Byte) : Prop :=
  x < 2 ∧ s.thlServes = true ∧ s.thl.queue.head? = some (.mailbox x) ∧ s.mbxRequest x = some bs ∧ leNat (slice bs 0 2) = op

/-- The request of mailbox `x` has left Thallus's queue, and its page shows that it is done (R347). -/
def Answered (s : State) (x : Nat) (t : State) : Prop :=
  t.thl.queue = s.thl.queue.erase (.mailbox x) ∧ t.fld (.mbx x) Reg.THL_MBX_CTL 0 0 = 0 ∧ t.fld (.mbx x) Reg.THL_MBX_CTL 2 2 = 1

/-- The result code that a mailbox shows. -/
def State.mbxResult (s : State) (x : Nat) : Nat := s.fld (.mbx x) Reg.THL_MBX_RES 15 0

/-- A request `m` of code `code` reaches responder `x`, and Thallus answers it now: over DOE while it signs nothing, from the
management controller in its turn (R316, R337, R384). -/
def Responds (s : State) (x code : Nat) (m : List Byte) : Prop :=
  x < 3 ∧ spdmCode m = code ∧ s.spdmPath x = true ∧ s.thl.stage = 1 ∧ s.thl.signing = none
    ∧ (x = 2 → ∃ s0, AtThallus s (.mc m) s0)
    ∧ leNat (slice m 0 1) = if code = 0x84 then 0x10 else 0x13

/-- The message of responder `x`: over DOE, or over MCTP for the management controller. -/
def spdmOut (x : Nat) (bs : List Byte) : Out := if x < 2 then .spdm x bs else .mctp bs

/-- Session `id` of port `x`'s responder has completed its handshake, and Thallus answers it. -/
def SessionOpen (s : State) (x id : Nat) : Prop :=
  x < 2 ∧ s.spdmPath x = true ∧ s.thl.stage = 1 ∧ ∃ y, (s.spdm x).session id = some y ∧ y.established = true

/-- Thallus serves the request of partition `p`'s page next; its block is `bs`, and its operation is `op` (R316, R353). -/
def Requests (s : State) (p op : Nat) (bs : List Byte) : Prop :=
  p < 4 ∧ s.thlServes = true ∧ s.thl.queue.head? = some (.tenancy p) ∧ bs = s.reqBlock p ∧ byteAt bs 0 = op

/-- The result that a partition's page shows: code and reason (R371). -/
def State.reqResult (s : State) (p : Nat) : Nat × Nat :=
  (s.fld (.prt p) Reg.PRT_REQ_RES 15 0, s.fld (.prt p) Reg.PRT_REQ_RES 23 16)

/-- The words of a link's slots that are bound to a context are none. -/
def State.unslotted (s : State) (c : Nat) : Prop :=
  ∀ l k, l < 16 → 1 ≤ k → k ≤ 8 → ¬ (((s.link l).slot k).bound = true ∧ ((s.link l).slot k).ctx = c)

/-- A host's function may ring the doorbells of its context `c`, which is ACTIVE, and whose queue at `o` is in use (R354,
R377). -/
def Rings (s : State) (x fn : Nat) (ide : Bool) (c o : Nat) : Prop :=
  c < 32 ∧ fn = c + 1 ∧ s.canAsk (.host x fn ide) = true ∧ s.tdiRefuses (.host x fn ide) = false ∧ (s.ctx c).state = .active
    ∧ s.qEn c o = true

/-- The partition's scheduler has moved past context `c` and its queue `q` (R356). -/
def State.turned (s : State) (p c q : Nat) : State :=
  (s.setPart p { s.part p with turn := (c + 1) % 8 }).setCtx c { s.ctx c with turn := (q + 1) % 4 }

/-- A command has ended: its context has no started command of its number. -/
def Ended (t : State) (c id : Nat) : Prop := findJob (t.ctx c).jobs id = none

/-- The command has ended unless a security alarm of its own accesses halted the partition (R310). -/
def EndsUnlessHalted (t : State) (c id : Nat) : Prop := t.haltedPart (c / 8) = false → Ended t c id

/-- Requester `r` reaches the page `pg` and its accesses are not refused (R383, R391). -/
def Reaches (s : State) (r : Requester) (pg : Page) : Prop :=
  pg.exists = true ∧ s.canAsk r = true ∧ s.tdiRefuses r = false ∧ s.reaches r pg = true

/-- The rise of account `k` of the meter: partitions 0 to 3, their idle accounts 4 to 7, contexts from 8 (R435, R436). -/
def acctRise (s t : State) (k : Nat) : Int := SMap.get 0 t.met.acct k - SMap.get 0 s.met.acct k

/-- A parameter message that R442 accepts, while the log takes entries (R439). -/
def State.paramGood (s : State) (m : List Byte) : Prop :=
  m.length = 268 + blockLen ∧ paramsOk (slice m 4 256) = true
    ∧ s.meterBlock (ascii "karfort meterpar") (slice m 4 264) (m.drop 268) = true
    ∧ leNat (slice m 260 8) = s.met.evcnt + 1 ∧ s.met.blocked = false

/-- A firmware transfer of `len` bytes, all received, whose image R442 accepts. -/
def State.meterFwGood (s : State) (len : Nat) (got : List Byte) : Prop :=
  got.length = len ∧ (∃ key, s.slotKey 3 = some key ∧ blockOk key 3 7 (got.take (len - 8 - blockLen)) (got.drop (len - blockLen)) = true)
    ∧ leNat (slice got (len - 8 - blockLen) 8) = s.met.evcnt + 1 ∧ s.met.logFull = false

/-- The type of the meter's log entry `n`. -/
def State.meterType (s : State) (n : Nat) : Nat := entryType (SMap.get [] s.met.log n)

/-- The offset limits of R451's steering, in 2^−16 ns: beyond 1,000 ns the timebase is set; within 10 ns a sample is good. -/
def steerFar : Nat := 1000 * 65536
def steerNear : Nat := 10 * 65536

end Sys2Proof.Machine

open Sys2Proof Sys2Proof.Machine

/-- In every state with canonical tables whose following index is an instruction: SLI completes with s[d] = imm; SALU with
op 0 to 9 completes with s[d] as R60 computes it from s[a] and y (imm or s[b]); AALU with address registers below 16
completes with a[d] = a[a] + imm[23:0] or s[a][23:0]. In each case every other register of the pinna, every other
pinna and everything else of the state is as before. -/
def Obligations.ScalarInstructionsWriteTheirResult : Prop :=
  ∀ (s : State) (n : Nat), s.tablesCanonical → (s.pinna n).following.2 ≤ 8191 →
    (CanIssue s n 0x02 →
      Completes (.sli n) s (fun t =>
        MovedOn n ((s.pinna n).setS (fD (s.pinna n).fetch) (BitVec.ofNat 32 (fImm (s.pinna n).fetch))) s t)) ∧
    (CanIssue s n 0x03 → fSub (s.pinna n).fetch % 16 ≤ 9 →
      Completes (.salu n) s (fun t =>
        ∃ r, SaluRule (fSub (s.pinna n).fetch % 16) ((s.pinna n).sreg (fA (s.pinna n).fetch)) (s.pinna n).saluY r
          ∧ MovedOn n ((s.pinna n).setS (fD (s.pinna n).fetch) r) s t)) ∧
    (CanIssue s n 0x04 → fD (s.pinna n).fetch < 16 → bit (fSub (s.pinna n).fetch) 0 = true →
      Completes (.aalu n) s (fun t =>
        MovedOn n ((s.pinna n).setA (fD (s.pinna n).fetch)
          (BitVec.ofNat 24 ((s.pinna n).sreg (fA (s.pinna n).fetch)).toNat)) s t)) ∧
    (CanIssue s n 0x04 → fD (s.pinna n).fetch < 16 → bit (fSub (s.pinna n).fetch) 0 = false → fA (s.pinna n).fetch < 16 →
      Completes (.aalu n) s (fun t =>
        ∃ v : BitVec 24, v.toNat = (((s.pinna n).areg (fA (s.pinna n).fetch)).toNat + fImm (s.pinna n).fetch) % 2 ^ 24
          ∧ MovedOn n ((s.pinna n).setA (fD (s.pinna n).fetch) v) s t))

/-- In every state with canonical tables: NOP changes nothing but the program counter. BR with a condition 0 to 4 goes to
imm[12:0], keeping the loops whose body holds the target, when its condition on s[a] holds, and moves on otherwise.
LOOP with a legal body, a free counter and fewer than 8 loops starts its first trip, or with a trip count of 0 goes
past its body. Everything else of the state is as before. -/
def Obligations.ControlInstructionsSteerTheSequencer : Prop :=
  ∀ (s : State) (n : Nat), s.tablesCanonical →
    (CanIssue s n 0x00 → (s.pinna n).following.2 ≤ 8191 → Completes (.nop n) s (fun t => MovedOn n (s.pinna n) s t)) ∧
    (CanIssue s n 0x06 → BranchHolds (fSub (s.pinna n).fetch % 8) ((s.pinna n).sreg (fA (s.pinna n).fetch)) →
      Completes (.br n) s (fun t =>
        WentTo n (s.pinna n) ((s.pinna n).loops.filter (fun l => decide (l.start ≤ (s.pinna n).fetch % 2 ^ 13)
          && decide ((s.pinna n).fetch % 2 ^ 13 < l.stop))) ((s.pinna n).fetch % 2 ^ 13) s t)) ∧
    (CanIssue s n 0x06 → fSub (s.pinna n).fetch % 8 ≤ 4 → (s.pinna n).following.2 ≤ 8191 →
      ¬ BranchHolds (fSub (s.pinna n).fetch % 8) ((s.pinna n).sreg (fA (s.pinna n).fetch)) →
      Completes (.br n) s (fun t => MovedOn n (s.pinna n) s t)) ∧
    (CanIssue s n 0x05 → 1 ≤ (s.pinna n).loopBody → (s.pinna n).pc + (s.pinna n).loopBody ≤ 8191 →
      (s.pinna n).loops.length < 8 → (∀ l ∈ (s.pinna n).loops, l.counter ≠ fD (s.pinna n).fetch % 8) →
      (0 < (s.pinna n).loopTrips →
        Completes (.loop n) s (fun t =>
          WentTo n (s.pinna n) (⟨fD (s.pinna n).fetch % 8, (s.pinna n).pc + 1, (s.pinna n).pc + 1 + (s.pinna n).loopBody,
            (s.pinna n).loopTrips - 1⟩ :: (s.pinna n).loops) ((s.pinna n).pc + 1) s t)) ∧
      ((s.pinna n).loopTrips = 0 → (s.pinna n).pc + (s.pinna n).loopBody < 8191 →
        (∀ l ∈ (s.pinna n).loops, l.stop ≠ (s.pinna n).pc + 1 + (s.pinna n).loopBody) →
        Completes (.loop n) s (fun t =>
          WentTo n (s.pinna n) (s.pinna n).loops ((s.pinna n).pc + 1 + (s.pinna n).loopBody) s t)))

/-- In every state with canonical tables and scratchpad, for an address a[a] + imm[23:0] that is 4-byte aligned and inside
the scratchpad and that no queued vector instruction touches: SLD sets s[d] to the little-endian word there and
changes nothing else but the program counter. SST puts the four bytes of s[b] there, every other byte of the
scratchpad reads as before, and nothing else but the program counter changes. -/
def Obligations.ScratchpadWordsLoadAndStore : Prop :=
  ∀ (s : State) (n : Nat), s.tablesCanonical → (s.pinna n).spad.wf = true → (s.pinna n).following.2 ≤ 8191 →
    fA (s.pinna n).fetch < 16 → (s.pinna n).wordAddr (s.pinna n).fetch % 4 = 0 →
    (s.pinna n).wordAddr (s.pinna n).fetch + 4 ≤ 786432 →
    (CanIssue s n 0x07 → (s.pinna n).heldByVector ((s.pinna n).wordAddr (s.pinna n).fetch) false = false →
      Completes (.sld n) s (fun t =>
        ∃ r : BitVec 32, MovedOn n ((s.pinna n).setS (fD (s.pinna n).fetch) r) s t
          ∧ ∀ i, i < 4 → (r.toNat / 256 ^ i) % 256 = ((s.pinna n).spad.byte ((s.pinna n).wordAddr (s.pinna n).fetch + i)).toNat)) ∧
    (CanIssue s n 0x08 → (s.pinna n).heldByVector ((s.pinna n).wordAddr (s.pinna n).fetch) true = false →
      Completes (.sst n) s (fun t =>
        MovedOn n { s.pinna n with spad := (t.pinna n).spad } s t
          ∧ (∀ i, i < 4 → ((t.pinna n).spad.byte ((s.pinna n).wordAddr (s.pinna n).fetch + i)).toNat
              = (((s.pinna n).sreg (fB (s.pinna n).fetch)).toNat / 256 ^ i) % 256)
          ∧ ∀ a, a < (s.pinna n).wordAddr (s.pinna n).fetch ∨ (s.pinna n).wordAddr (s.pinna n).fetch + 4 ≤ a →
              (t.pinna n).spad.byte a = (s.pinna n).spad.byte a))

/-- In every state with canonical tables: DWAIT of an issued ticket and DFENCE move on when the engines have ended the
descriptors waited for, and otherwise leave the pinna stalled at the instruction. FLAGADD adds s[a] to the frond's
flag modulo 2^32 and moves on. FLAGWAIT moves on when the flag has reached s[a] and otherwise stalls, waiting since
the moment it first stalled. DSUB with its queue full stalls, and with room puts the 64 bytes at the end of the queue
of engine sub[1:0] and the ticket e·2^30 + k in s[d]. FLAG_TIMEOUT of a pinna stalled at a FLAGWAIT whose flag is
below s[a] stops the program with 0x200C once limit × 1,024 cycles have passed, the limit not 0; before that, and with
a limit of 0, it cannot occur. -/
def Obligations.SynchronisationInstructionsPassOrStall : Prop :=
  ∀ (s : State) (n : Nat), s.tablesCanonical → (s.pinna n).following.2 ≤ 8191 →
    (CanIssue s n 0x21 →
      ∀ e k, (((s.pinna n).sreg (fA (s.pinna n).fetch)).toNat = e * 2 ^ 30 + k ∧ k < 2 ^ 30 ∧ 1 ≤ k
          ∧ k ≤ SMap.get 0 (s.pinna n).submitted e) →
        (k ≤ SMap.get 0 (s.pinna n).done e → Completes (.dwait n) s (fun t => MovedOn n (s.pinna n) s t)) ∧
        (SMap.get 0 (s.pinna n).done e < k →
          Completes (.dwait n) s (fun t => OnlyPinna n s t ∧ t.pinna n = { s.pinna n with stall := some .ticket }))) ∧
    (CanIssue s n 0x22 →
      ((∀ e, e < 4 → SMap.get 0 (s.pinna n).submitted e = SMap.get 0 (s.pinna n).done e) →
        Completes (.dfence n) s (fun t => MovedOn n (s.pinna n) s t)) ∧
      ((∃ e, e < 4 ∧ SMap.get 0 (s.pinna n).submitted e ≠ SMap.get 0 (s.pinna n).done e) →
        Completes (.dfence n) s (fun t => OnlyPinna n s t ∧ t.pinna n = { s.pinna n with stall := some .fence }))) ∧
    (CanIssue s n 0x23 →
      Completes (.flagadd n) s (fun t =>
        t.word (.frd (n / 24)) (flagOff (fImm (s.pinna n).fetch % 64))
            = (s.word (.frd (n / 24)) (flagOff (fImm (s.pinna n).fetch % 64))
                + ((s.pinna n).sreg (fA (s.pinna n).fetch)).toNat) % 2 ^ 32
          ∧ MovedOn n (s.pinna n) { s with regs := t.regs } t)) ∧
    (CanIssue s n 0x24 →
      (((s.pinna n).sreg (fA (s.pinna n).fetch)).toNat ≤ s.word (.frd (n / 24)) (flagOff (fImm (s.pinna n).fetch % 64)) →
        Completes (.flagwait n) s (fun t => MovedOn n (s.pinna n) s t)) ∧
      (s.word (.frd (n / 24)) (flagOff (fImm (s.pinna n).fetch % 64)) < ((s.pinna n).sreg (fA (s.pinna n).fetch)).toNat →
        Completes (.flagwait n) s (fun t => OnlyPinna n s t ∧ t.pinna n = { s.pinna n with stall := some .flag, waitedFrom :=
          (if (s.pinna n).stall = some .flag then (s.pinna n).waitedFrom else s.ticks) }))) ∧
    (CanIssue s n 0x20 → (s.pinna n).queue = [] → SMap.wf 0#32 (s.pinna n).sregs = true → fSub (s.pinna n).fetch < 4 → fA (s.pinna n).fetch < 16 →
      (s.pinna n).wordAddr (s.pinna n).fetch % 64 = 0 → (s.pinna n).wordAddr (s.pinna n).fetch + 64 ≤ 786432 →
      (32 ≤ ((s.frond (n / 24)).engine (fSub (s.pinna n).fetch)).queue.length →
        Completes (.dsub n) s (fun t => OnlyPinna n s t ∧ t.pinna n = { s.pinna n with stall := some .queue })) ∧
      (((s.frond (n / 24)).engine (fSub (s.pinna n).fetch)).queue.length < 32 →
        Completes (.dsub n) s (fun t =>
          (t.pinna n).sreg (fD (s.pinna n).fetch)
              = BitVec.ofNat 32 (fSub (s.pinna n).fetch * 2 ^ 30
                  + (SMap.get 0 (s.pinna n).submitted (fSub (s.pinna n).fetch) + 1) % 2 ^ 30)
            ∧ (∃ d : QDesc, d.bytes = Mem.read (s.pinna n).spad ((s.pinna n).wordAddr (s.pinna n).fetch) 64
                ∧ (t.frond (n / 24)).engine (fSub (s.pinna n).fetch)
                  = { (s.frond (n / 24)).engine (fSub (s.pinna n).fetch) with
                      queue := ((s.frond (n / 24)).engine (fSub (s.pinna n).fetch)).queue ++ [d] })
            ∧ (t.pinna n).pc = (s.pinna n).following.2 ∧ { t with pinnae := s.pinnae, fronds := s.fronds } = s))) ∧
    (CanIssue s n 0x24 → (s.pinna n).stall = some .flag →
      s.word (.frd (n / 24)) (flagOff (fImm (s.pinna n).fetch % 64)) < ((s.pinna n).sreg (fA (s.pinna n).fetch)).toNat →
      (s.fld (.pna n) Reg.PNA_TREE_TIMEOUT 23 0 ≠ 0 →
        (s.pinna n).waitedFrom + 128 * s.fld (.pna n) Reg.PNA_TREE_TIMEOUT 23 0 ≤ s.ticks →
        Completes (.flagTimeout n) s (StoppedWith n 0x200C (s.pinna n).pc)) ∧
      ((s.fld (.pna n) Reg.PNA_TREE_TIMEOUT 23 0 = 0
          ∨ s.ticks < (s.pinna n).waitedFrom + 128 * s.fld (.pna n) Reg.PNA_TREE_TIMEOUT 23 0) →
        Impossible (.flagTimeout n) s))

/-- In every state with canonical tables: HALT of a running pinna whose queues are empty and that is in no tree completes;
the sequencer is idle, the pinna no longer runs the LAUNCH, the command no longer waits for it, zeroing has begun, and
the pinna's memories and registers, the stacks and the frond memories are as before. The end of the zeroing then
leaves no group and no mask and changes nothing else. -/
def Obligations.ProgramEndsAtHalt : Prop :=
  ∀ (s : State) (n : Nat), s.tablesCanonical →
    (CanIssue s n 0x01 → (s.pinna n).queue = [] → (s.pinna n).treeRun = none →
      Completes (.halt n) s (fun t =>
        (t.pinna n).seq = .idle ∧ (t.pinna n).launch = none ∧ (t.pinna n).zeroing = true
          ∧ (∀ l, (s.pinna n).launch = some l → ∀ j ∈ (t.ctx l.ctx).jobs, j.id = l.job → n ∉ j.pinnae)
          ∧ (t.pinna n).spad = (s.pinna n).spad ∧ (t.pinna n).imem = (s.pinna n).imem
          ∧ (t.pinna n).sregs = (s.pinna n).sregs ∧ (t.pinna n).aregs = (s.pinna n).aregs
          ∧ (∀ m, m ≠ n → t.pinna m = s.pinna m) ∧ t.stackTab = s.stackTab ∧ t.fronds = s.fronds)) ∧
    (n < 768 → (s.pinna n).zeroing = true →
      Completes (.accZeroingDone n) s (fun t =>
        OnlyPinna n s t ∧ t.pinna n = { s.pinna n with groups := [], masks := [], zeroing := false }))

/-- In every state with canonical tables: a reserved opcode stops the program with 0x300D; SALU with op 10 to 15, BR with
condition 5 to 7, AALU, SLD or SST with an address register above 15 with 0x3007; LOOP with no body, a body beyond
instruction 8191, a ninth loop or a counter in use with 0x300E; SLD or SST of a misaligned or absent word with 0x3008.
The fault register names the code and the index, the LAUNCH no longer runs there, and the page's pending class bit is
set. -/
def Obligations.RefusedInstructionsStopTheProgram : Prop :=
  ∀ (s : State) (n : Nat), s.tablesCanonical →
    (s.pinnaRuns n = true → reservedOp (fOp (s.pinna n).fetch) = true →
      Completes (.nop n) s (StoppedWith n 0x300D (s.pinna n).pc)) ∧
    (CanIssue s n 0x03 → 10 ≤ fSub (s.pinna n).fetch % 16 → Completes (.salu n) s (StoppedWith n 0x3007 (s.pinna n).pc)) ∧
    (CanIssue s n 0x04 → (16 ≤ fD (s.pinna n).fetch ∨ (bit (fSub (s.pinna n).fetch) 0 = false ∧ 16 ≤ fA (s.pinna n).fetch)) →
      Completes (.aalu n) s (StoppedWith n 0x3007 (s.pinna n).pc)) ∧
    (CanIssue s n 0x06 → 5 ≤ fSub (s.pinna n).fetch % 8 → Completes (.br n) s (StoppedWith n 0x3007 (s.pinna n).pc)) ∧
    (CanIssue s n 0x05 → ((s.pinna n).loopBody = 0 ∨ 8191 < (s.pinna n).pc + (s.pinna n).loopBody
        ∨ 8 ≤ (s.pinna n).loops.length ∨ ∃ l ∈ (s.pinna n).loops, l.counter = fD (s.pinna n).fetch % 8) →
      Completes (.loop n) s (StoppedWith n 0x300E (s.pinna n).pc)) ∧
    (CanIssue s n 0x07 → 16 ≤ fA (s.pinna n).fetch → Completes (.sld n) s (StoppedWith n 0x3007 (s.pinna n).pc)) ∧
    (CanIssue s n 0x08 → 16 ≤ fA (s.pinna n).fetch → Completes (.sst n) s (StoppedWith n 0x3007 (s.pinna n).pc)) ∧
    (fA (s.pinna n).fetch < 16 → ((s.pinna n).wordAddr (s.pinna n).fetch % 4 ≠ 0
        ∨ 786432 < (s.pinna n).wordAddr (s.pinna n).fetch + 4) →
      (CanIssue s n 0x07 → Completes (.sld n) s (StoppedWith n 0x3008 (s.pinna n).pc)) ∧
      (CanIssue s n 0x08 → Completes (.sst n) s (StoppedWith n 0x3008 (s.pinna n).pc)))

/-- In every state with canonical tables, for a participant that waits for a partner: TREE_TIMEOUT stops its program with
0x300A when the limit is not 0 and the wait has lasted longer than PNA_TREE_TIMEOUT.limit × 1,024 cycles of 1.6 GHz
(128 ticks of 5 ns for each unit); it cannot occur before, nor when the limit is 0. -/
def Obligations.TreeWaitLimitStopsTheProgram : Prop :=
  ∀ (s : State) (n : Nat) (run : TreeRun) (l : Launch) (partner : Nat), s.tablesCanonical → n < 768 →
    s.treeAwaits n = some (run, l, partner) →
    (s.fld (.pna n) Reg.PNA_TREE_TIMEOUT 23 0 ≠ 0 → run.since + 128 * s.fld (.pna n) Reg.PNA_TREE_TIMEOUT 23 0 < s.ticks →
      Completes (.treeTimeout n) s (StoppedWith n 0x300A run.pc)) ∧
    ((s.fld (.pna n) Reg.PNA_TREE_TIMEOUT 23 0 = 0
        ∨ s.ticks ≤ run.since + 128 * s.fld (.pna n) Reg.PNA_TREE_TIMEOUT 23 0) →
      Impossible (.treeTimeout n) s)

/-- In every state with canonical tables, for each of the 27 vector instructions at the program counter of a running
pinna: when the checks of R101 pass, the vector queue has room and no queued instruction touches its bytes (R79), the
instruction joins the queue with the registers as they stand, and the sequencer moves past it and past its immediate
slot; when a check fails, the program stops with the code of the first that fails. Nothing else changes in the first
case. -/
def Obligations.VectorInstructionsIssue : Prop :=
  ∀ (s : State) (n : Nat), s.tablesCanonical → s.pinnaRuns n = true → ∀ x ∈ vectorCommands n .issue,
    fOp (s.pinna n).fetch = x.1 → (s.pinna n).heldByCompress (s.pinna n).fetch (s.pinna n).vecExt = false →
    ((vFields (s.pinna n).fetch).refusal (s.pinna n).fetch (s.pinna n).vecExt (s.pinna n).slotOk
          ((s.pinna n).entry (s.pinna n).vecExt) = none → (s.pinna n).vecQueued < 4 →
      (s.pinna n).stalledBy ((s.pinna n).entry (s.pinna n).vecExt) = false →
      ∀ next, next = loopEnd (s.pinna n).loops ((s.pinna n).pc + if (vFields (s.pinna n).fetch).ximm then 2 else 1) →
        next.2 ≤ 8191 →
        Completes x.2 s (WentTo n { s.pinna n with queue := (s.pinna n).queue ++ [(s.pinna n).entry (s.pinna n).vecExt] }
          next.1 next.2 s)) ∧
    (∀ c, (vFields (s.pinna n).fetch).refusal (s.pinna n).fetch (s.pinna n).vecExt (s.pinna n).slotOk
          ((s.pinna n).entry (s.pinna n).vecExt) = some c →
      Completes x.2 s (StoppedWith n c (s.pinna n).pc))

/-- In every state with canonical tables and scratchpad, each of the 27 vector instructions that is the oldest issued of
its pinna, with the NaN trap off, completes: it leaves the queue, PNA_VEC_DONE counts it, every scratchpad byte
outside the runs its fields name as written reads as before, no scalar register but the count register of a VCOMPRESS,
no mask but md of VCMP, VMLOGIC and VMLD changes, and address registers, groups, instruction memory, program counter,
other pinnae, frond memories and stacks are as before. -/
def Obligations.VectorInstructionsWriteOnlyTheirRun : Prop :=
  ∀ (s : State) (n : Nat) (q : QEntry) (l : Launch), s.tablesCanonical → (s.pinna n).spad.wf = true → l.ctx < 32 →
    bit (s.word (.pna n) Reg.PNA_VEC_CTL) 0 = false → SMap.wf 0#32 (s.pinna n).sregs = true →
    SMap.wf 0 (s.pinna n).masks = true →
    ∀ x ∈ vectorCommands n .perform, InVectorEngine s n x.1 q l →
      Completes x.2 s (fun t =>
        (t.pinna n).queue = (s.pinna n).queue.eraseP (fun q => isVector (fOp q.word.toNat))
          ∧ t.word (.pna n) Reg.PNA_VEC_DONE = min (s.word (.pna n) Reg.PNA_VEC_DONE + 1) 0xFFFFFFFF
          ∧ (∀ a, (∀ r ∈ (vFields q.word.toNat).writes q, a < r.1 ∨ r.1 + r.2 ≤ a) →
              (t.pinna n).spad.byte a = (s.pinna n).spad.byte a)
          ∧ (∀ i, (x.1 ≠ 0x92 ∨ i ≠ (vFields q.word.toNat).sn) → (t.pinna n).sreg i = (s.pinna n).sreg i)
          ∧ (∀ i, (x.1 ∉ [0x90, 0x94, 0x95] ∨ i ≠ (vFields q.word.toNat).md) →
              (t.pinna n).maskReg i = (s.pinna n).maskReg i)
          ∧ (t.pinna n).aregs = (s.pinna n).aregs ∧ (t.pinna n).groups = (s.pinna n).groups
          ∧ (t.pinna n).imem = (s.pinna n).imem ∧ (t.pinna n).pc = (s.pinna n).pc
          ∧ (∀ m, m ≠ n → t.pinna m = s.pinna m) ∧ t.fronds = s.fronds ∧ t.stackTab = s.stackTab)

/-- In every state with canonical tables and masks, VMLOGIC in the vector engine with sub 0 to 4, md from 1 to 7 and a
count of at least 1 completes, and bit k of mask md is, below the count, the and, or, exclusive or, and-not or not of
the bits of the mask field's register and of register rb, where m0 reads as all ones; at and above the count it is 0. -/
def Obligations.MaskLogicWorksBitByBit : Prop :=
  ∀ (s : State) (n : Nat) (q : QEntry) (l : Launch) (f : VFields), s.tablesCanonical →
    SMap.wf 0 (s.pinna n).masks = true → InVectorEngine s n 0x94 q l → f = vFields q.word.toNat → f.sub ≤ 4 → f.md ≠ 0 →
    1 ≤ f.count → f.count ≤ 4096 →
    Completes (.vmlogic n .perform) s (fun t =>
      ∀ k, ((t.pinna n).maskReg f.md).testBit k
        = (decide (k < f.count) &&
            (let a := ((s.pinna n).maskReg f.mask).testBit k
             let b := ((s.pinna n).maskReg f.rb).testBit k
             match f.sub with
             | 0 => a && b
             | 1 => a || b
             | 2 => a != b
             | 3 => a && !b
             | _ => !a)))

/-- In every state with canonical tables, for each of the six instructions at the program counter of a running pinna: with
its check passed, fewer than 4 instructions in its array's queue and no queued instruction touching its bytes it joins
the list of issued instructions with the registers as they stand and the sequencer moves on, nothing else changing;
with its check failed the program stops with the check's code; with the queue full it cannot issue. -/
def Obligations.MatrixInstructionsIssue : Prop :=
  ∀ (s : State) (n : Nat) (l : Launch), s.tablesCanonical → (s.pinna n).launch = some l → ∀ x ∈ s.matrixIssues n,
    CanIssue s n x.1 →
    (x.2.2 (s.pinna n).fetch ((s.pinna n).entry 0) l = none →
      ((s.pinna n).arrayQueued (groupOf (s.pinna n).fetch / 4) < 4 → (s.pinna n).stalledBy ((s.pinna n).entry 0) = false →
        (s.pinna n).following.2 ≤ 8191 →
        Completes x.2.1 s (MovedOn n { s.pinna n with queue := (s.pinna n).queue ++ [(s.pinna n).entry 0] } s)) ∧
      (4 ≤ (s.pinna n).arrayQueued (groupOf (s.pinna n).fetch / 4) → Impossible x.2.1 s)) ∧
    (∀ c, x.2.2 (s.pinna n).fetch ((s.pinna n).entry 0) l = some c →
      Completes x.2.1 s (StoppedWith n c (s.pinna n).pc))

/-- In every state with canonical tables and memories, with the NaN trap off: GOPEN without fill opens a closed group with
no words and no flags. MMA whose group is OPEN with a matching attribute and whose scale lines pass leaves it OPEN,
counts PNA_MMA_DONE, and writes no memory and no other group. GCLOSE of an OPEN group without slice attribute and
without an estimator slot closes it and writes outside its two destination runs no byte. GSPILL of W96 writes the
group's 12,480-byte image and closes the group unless bit 47 is set. GFILL of a W96 image with a legal attribute byte
opens its group with the image's words, a word of exp 0 as zero, and changes no memory and no other group. -/
def Obligations.GroupInstructionsPerform : Prop :=
  ∀ (s : State) (n : Nat) (q : QEntry) (l : Launch) (w : Nat), s.tablesCanonical → (s.pinna n).spad.wf = true →
    SMap.wf {} (s.pinna n).groups = true → (s.frond (n / 24)).mem.wf = true → l.ctx < 32 → w = q.word.toNat →
    bit (s.word (.pna n) Reg.PNA_MMA_CTL) 0 = false →
    (AtHead s n 0x48 q l → bit w 47 = false →
      (((s.pinna n).group (groupOf w)).state = .closed ∨ ((s.pinna n).group (groupOf w)).state = .invalid) →
      Completes (.gopen n (.perform q.array)) s (fun t =>
        OnlyPinna n s t ∧ t.pinna n = ((s.pinna n).without q).setGroup (groupOf w) { state := .opened })) ∧
    (AtHead s n 0x40 q l → ((s.pinna n).group (groupOf w)).state = .opened →
      ((s.pinna n).group (groupOf w)).attr ≠ (if (mFields w).fmta = 0xC then .nonSlice else .slice) →
      (mmaScaled (mFields w).fmta = true →
        lineMiss (s.pinna n).spad (q.a (mFields w).rsa) (q.s (mFields w).sn % 65536) (q.s ((mFields w).sn + 1))
            (16 * (mFields w).kb) = none ∧
        lineMiss (s.pinna n).spad (q.a (mFields w).rsb) (q.s (mFields w).sn / 65536) (q.s ((mFields w).sn + 2))
            (64 * (mFields w).kb) = none) →
      Completes (.mma n (.perform q.array)) s (fun t =>
        ((t.pinna n).group (groupOf w)).state = .opened ∧ (t.pinna n).spad = (s.pinna n).spad
          ∧ (∀ g, g ≠ groupOf w → (t.pinna n).group g = (s.pinna n).group g)
          ∧ t.word (.pna n) Reg.PNA_MMA_DONE = min (s.word (.pna n) Reg.PNA_MMA_DONE + 1) 0xFFFFFFFF
          ∧ (∀ m, m ≠ n → t.pinna m = s.pinna m) ∧ t.fronds = s.fronds ∧ t.stackTab = s.stackTab)) ∧
    (AtHead s n 0x49 q l → ((s.pinna n).group (groupOf w)).state = .opened →
      ((s.pinna n).group (groupOf w)).attr ≠ .slice → (gcFields w).ssrc ≠ 1 →
      Completes (.gclose n (.perform q.array)) s (fun t =>
        ((t.pinna n).group (groupOf w)).state = .closed
          ∧ (∀ g, g ≠ groupOf w → (t.pinna n).group g = (s.pinna n).group g)
          ∧ (∀ a, ((fmtOf (gcFields w).fmt).isBlock = true →
                (a < q.a (gcFields w).rd ∨ q.a (gcFields w).rd + 32 * (fmtOf (gcFields w).fmt).blockBytes ≤ a)
                  ∧ (a < q.a (gcFields w).rs ∨ q.a (gcFields w).rs + 64 ≤ a)) →
              ((fmtOf (gcFields w).fmt).isBlock = false →
                a < q.a (gcFields w).rd ∨ q.a (gcFields w).rd + 1024 * vWidth (gcFields w).fmt ≤ a) →
              (t.pinna n).spad.byte a = (s.pinna n).spad.byte a)
          ∧ (∀ m, m ≠ n → t.pinna m = s.pinna m) ∧ t.fronds = s.fronds ∧ t.stackTab = s.stackTab)) ∧
    (AtHead s n 0x4A q l → ((s.pinna n).group (groupOf w)).state = .opened → bits w 55 52 = 0xB →
      Completes (.gspill n (.perform q.array)) s (fun t =>
        (∀ i, i < 1024 → Mem.readLe (t.imageMem n w) (q.a (bits w 45 42) + 12 * i) 12
            = (SMap.get 0#96 ((s.pinna n).group (groupOf w)).words i).toNat)
          ∧ (∀ a, a < q.a (bits w 45 42) ∨ q.a (bits w 45 42) + 12480 ≤ a →
              (t.imageMem n w).byte a = (s.imageMem n w).byte a)
          ∧ ((t.pinna n).group (groupOf w)).state = (if bit w 47 then .opened else .closed)
          ∧ t.stackTab = s.stackTab)) ∧
    (AtHead s n 0x4B q l → (((s.pinna n).group (groupOf w)).state = .closed ∨ ((s.pinna n).group (groupOf w)).state = .invalid) →
      bits w 55 52 = 0xB → ((s.imageMem n w).byte (q.a (bits w 45 42) + 12416)).toNat ≤ 2 →
      Completes (.gfill n (.perform q.array)) s (fun t =>
        ((t.pinna n).group (groupOf w)).state = .opened
          ∧ (∀ i, i < 1024 → SMap.get 0#96 ((t.pinna n).group (groupOf w)).words i
              = (if W96.exp (BitVec.ofNat 96 (Mem.readLe (s.imageMem n w) (q.a (bits w 45 42) + 12 * i) 12)) = 0 then 0#96
                 else BitVec.ofNat 96 (Mem.readLe (s.imageMem n w) (q.a (bits w 45 42) + 12 * i) 12)))
          ∧ (t.pinna n).spad = (s.pinna n).spad ∧ (∀ m, m ≠ n → t.pinna m = s.pinna m) ∧ t.fronds = s.fronds
          ∧ t.stackTab = s.stackTab))

/-- In every state with canonical tables: GREDUCE at the head of its array's queue, the pinna in no tree and no earlier
GREDUCE waiting, by a participant its description admits and with its group OPEN, either sends the group's words as a
tile and closes the group, or leaves the group in the tree and its run begun; the sequencer stays where it stands. A
tile for a pinna that does not yet wait moves from the network to its empty port. The awaited tile, with an equal
description, is taken from the network, and the participant no longer awaits it at the level it stood. -/
def Obligations.TreeParticipantsSendOrWait : Prop :=
  ∀ (s : State) (n : Nat), s.tablesCanonical → n < 768 →
    (∀ q l, AtHead s n 0x4C q l → (s.pinna n).treeRun = none →
      (s.pinna n).queue.find? (fun x => fOp x.word.toNat == 0x4C) = some q → SMap.wf {} (s.pinna n).groups = true →
      s.treeSpecOk n l.ctx (q.s (bits q.word.toNat 47 43)) = true →
      ((s.pinna n).group (groupOf q.word.toNat)).state = .opened →
      Completes (.greduce ⟨n, .perform q.array⟩) s (fun t =>
        (t.pinna n).pc = (s.pinna n).pc ∧ (t.pinna n).seq = (s.pinna n).seq ∧ (t.pinna n).queue = ((s.pinna n).without q).queue ∧
          (((t.pinna n).group (groupOf q.word.toNat)).state = .closed ∧ (t.pinna n).treeRun = none
              ∧ (∃ tile, t.treeNet = s.treeNet ++ [tile] ∧ tile.src = n
                  ∧ tile.words = ((s.pinna n).group (groupOf q.word.toNat)).words)
            ∨ ((t.pinna n).group (groupOf q.word.toNat)).state = .inTree ∧ (t.pinna n).treeRun.isSome = true
              ∧ t.treeNet = s.treeNet))) ∧
    (∀ tile, s.treeAwaits n = none → (s.pinna n).treePort = none → s.treeNet.find? (fun t => t.dst == n) = some tile →
      Completes (.greduceTileReceived n) s (fun t =>
        (t.pinna n).treePort = some tile ∧ t.treeNet = s.treeNet.erase tile ∧ OnlyPinna n s { t with treeNet := s.treeNet })) ∧
    (∀ run l partner tile, s.treeAwaits n = some (run, l, partner) → (s.pinna n).treePort = none →
      s.treeNet.find? (fun t => t.dst == n && (t.src == partner || t.spec != run.spec)) = some tile → tile.spec = run.spec →
      bit (s.word (.pna n) Reg.PNA_MMA_CTL) 0 = false →
      Completes (.greduceTileReceived n) s (fun t =>
        (t.treeNet = s.treeNet.erase tile ∨ ∃ own, t.treeNet = s.treeNet.erase tile ++ [own] ∧ own.src = n)
          ∧ ∀ run', (t.pinna n).treeRun = some run' → run'.level ≠ run.level ∨ run'.cross ≠ run.cross))

/-- In every state with canonical tables, outside a Module reset: MEMORY_LINE_READ without disturbances of a line that the
checks admit, in a stack that nothing has disturbed, sends the line's 64 bytes, or 64 zero bytes where the region is
in tree mode and the line was never written, and every byte of every stack reads as before. A line that the checks do
not admit gives a bus error, and every byte reads as before. -/
def Obligations.MemoryReadsReturnStoredBytes : Prop :=
  ∀ (s : State) (k line cls ctx : Nat), s.tablesCanonical → k < 12 → line < stackLines → cls < 7 → ctx < 32 →
    s.clk.inReset = false →
    (∀ r, s.checkLine k line cls ctx false = .ok r → Undisturbed (s.stack k) →
      Completes (.memoryLineRead k line cls ctx []) s (fun t =>
        t.out = s.out ++ [.readLine (if (s.region r).tree = true ∧ SMap.get 0 (s.stack k).ctrs line = 0
            then List.replicate 64 0#8 else Mem.read (s.stack k).mem (64 * line) 64)]
          ∧ ∀ j a, (t.stack j).mem.byte a = (s.stack j).mem.byte a)) ∧
    (∀ s', s.checkLine k line cls ctx false = .error s' →
      Completes (.memoryLineRead k line cls ctx []) s (fun t =>
        t.out.getLast? = some .busError ∧ ∀ j a, (t.stack j).mem.byte a = (s.stack j).mem.byte a))

/-- In every state with canonical tables and stack memory, outside a Module reset: MEMORY_LINE_WRITE of a line that the
checks admit, in a stack that nothing has disturbed and with the line's counter below its last value, completes
without a message; the bytes from the offset on are the data, every byte outside the line reads as before, and in a
region not in tree mode so does every other byte of the line. -/
def Obligations.MemoryWritesStoreTheirBytesOnly : Prop :=
  ∀ (s : State) (k line cls ctx off r : Nat) (data : List Byte), s.tablesCanonical → k < 12 → line < stackLines → cls < 7 →
    ctx < 32 → s.clk.inReset = false → data ≠ [] → off + data.length ≤ 64 → (s.stack k).mem.wf = true →
    s.checkLine k line cls ctx true = .ok r → Undisturbed (s.stack k) →
    SMap.get 0 (s.stack k).ctrs line < 2 ^ 64 - 1 →
    Completes (.memoryLineWrite k line cls ctx off data) s (fun t =>
      t.out = s.out
        ∧ (∀ i, ∀ h : i < data.length, (t.stack k).mem.byte (64 * line + off + i) = data[i])
        ∧ StacksSameBut k (64 * line) (64 * line + 64) s t
        ∧ ((s.region r).tree = false → StacksSameBut k (64 * line + off) (64 * line + off + data.length) s t))

/-- In every state with canonical tables: a due ECC_WRITEBACK leaves the line the pattern that was due, and no write-back
due; SWEEP_START takes the oldest sweep of an idle MPE's queue; STAGING_ZEROING_DONE ends the zeroing. Each changes
only its stack's record and no byte of memory. While an initialisation or zeroing sweep runs that another stack still
owes, SWEEP_START ends it there and takes the oldest queued one; while the running sweep is its region's last, it
cannot occur. -/
def Obligations.StackMaintenanceTouchesNoLiveByte : Prop :=
  ∀ (s : State) (k : Nat), s.tablesCanonical → k < 12 →
    (∀ line pat, line < stackLines → (s.stack k).writeback.find? (fun a => a.1 == line) = some (line, pat) →
      SMap.wf [] (s.stack k).err = true →
      Completes (.eccWriteback k line) s (fun t =>
        { t with stackTab := s.stackTab } = s ∧ (t.stack k).errOf line = pat
          ∧ (t.stack k).writeback.find? (fun a => a.1 == line) = none ∧ (t.stack k).mem = (s.stack k).mem
          ∧ ∀ j, j ≠ k → t.stack j = s.stack j)) ∧
    (∀ w ws, (s.stack k).sweep = none → (s.stack k).sweeps = w :: ws → s.haltDev = false →
      Completes (.sweepStart k) s (fun t =>
        { t with stackTab := s.stackTab } = s ∧ t.stack k = { s.stack k with sweep := some w, sweeps := ws }
          ∧ ∀ j, j ≠ k → t.stack j = s.stack j)) ∧
    (∀ v w ws, (s.stack k).sweep = some v → (s.stack k).sweeps = w :: ws → s.haltDev = false →
      (s.sweepOwed k v.region = true → v.kind ≠ .rekey →
        Completes (.sweepStart k) s (fun t =>
          (t.stack k).sweep = some w ∧ (t.stack k).sweeps = ws ∧ (∀ r, r ≠ v.region → t.region r = s.region r)
            ∧ ∀ j, j ≠ k → t.stack j = s.stack j)) ∧
      (s.sweepOwed k v.region = false → Impossible (.sweepStart k) s)) ∧
    ((s.stack k).zeroing = true →
      Completes (.stagingZeroingDone k) s (fun t =>
        { t with stackTab := s.stackTab } = s ∧ t.stack k = { s.stack k with zeroing := false }
          ∧ ∀ j, j ≠ k → t.stack j = s.stack j))

/-- In every state with canonical tables, for a sweep that runs in every stack of a region's mask: the end of an
initialisation sweep leaves the region ACTIVE, that of a zeroing sweep FREE; in both every byte of the region's data
range that the sweep had not yet passed reads 0 in every stack of the mask, no sweep runs there, and every byte of the
stacks outside the mask reads as before. The end of a re-key sweep over undisturbed stacks leaves the region ACTIVE,
its current keys as they were and no old ones, and every byte as before. -/
def Obligations.SweepsEndWithTheirRegionSettled : Prop :=
  ∀ (s : State) (r last : Nat) (g : Region) (kind : SweepKind) (pos : Nat → Nat), s.tablesCanonical → r < 64 → last < 12 → s.region r = g →
    g.has last = true → s.haltDev = false → (∀ k, (s.stack k).mem.wf = true) →
    (∀ k, k < 12 → g.has k = true → (s.stack k).sweep = some ⟨r, kind, pos k⟩
      ∧ ∀ v ∈ (s.stack k).sweeps, v.region ≠ r) →
    (kind = .init ∨ kind = .zero →
      Completes (.sweepDone r last) s (fun t =>
        (kind = .init → (t.region r).state = .active) ∧ (kind = .zero → (t.region r).state = .free)
          ∧ (∀ k, k < 12 → g.has k = true → (t.stack k).sweep = none
              ∧ ∀ a, g.base * unitLines * 64 ≤ a → a < (g.limit + 1) * unitLines * 64 →
                (pos k = 0 ∨ g.tree = false ∧ (g.base * unitLines + pos k) * 64 ≤ a) → (t.stack k).mem.byte a = 0#8)
          ∧ ∀ k a, ¬ (k < 12 ∧ g.has k = true) → (t.stack k).mem.byte a = (s.stack k).mem.byte a)) ∧
    (kind = .rekey → g.state = .rekey → (∀ k, k < 12 → Undisturbed (s.stack k)) →
      Completes (.sweepDone r last) s (fun t =>
        (t.region r).state = .active ∧ (∀ k, k < 12 → ((t.stack k).keySlot r).old = none
            ∧ ((t.stack k).keySlot r).cur = ((s.stack k).keySlot r).cur)
          ∧ ∀ k a, (t.stack k).mem.byte a = (s.stack k).mem.byte a))

/-- In every state with canonical tables, for an admitted write: with parts that sum to 24, no lane command queued and no
buffer entry OPEN or CLOSING the register's three fields hold the parts; otherwise they are unchanged and the page's
first code or its pending class 2 shows the refusal. -/
def Obligations.StageSplitIsTakenOrRefused : Prop :=
  ∀ (s : State) (r : Requester) (k value : Nat), s.tablesCanonical → Admits s r (.rhz k) Reg.RHZ_STAGE_SPLIT true →
    (bits value 4 0 + bits value 12 8 + bits value 20 16 = 24 → (s.stack k).lanes = [] →
      (∀ x ∈ (s.stack k).entries, x.2.state = .free ∨ x.2.state = .closed) →
      Completes (.stageSplitWrite r k value) s (fun t =>
        t.fld (.rhz k) Reg.RHZ_STAGE_SPLIT 4 0 = bits value 4 0 ∧ t.fld (.rhz k) Reg.RHZ_STAGE_SPLIT 12 8 = bits value 12 8
          ∧ t.fld (.rhz k) Reg.RHZ_STAGE_SPLIT 20 16 = bits value 20 16 ∧ { t with regs := s.regs } = s)) ∧
    ((bits value 4 0 + bits value 12 8 + bits value 20 16 ≠ 24 ∨ (s.stack k).lanes ≠ []
        ∨ ∃ x ∈ (s.stack k).entries, x.2.state = .opened ∨ x.2.state = .closing) →
      Completes (.stageSplitWrite r k value) s (fun t =>
        t.word (.rhz k) Reg.RHZ_STAGE_SPLIT = s.word (.rhz k) Reg.RHZ_STAGE_SPLIT ∧ bit (t.word (.rhz k) 0x010) 2 = true))

/-- In every state with canonical tables, DMA_DESCRIPTOR_START of an engine that is not halted and runs nothing takes the
head of its queue. A descriptor that passes steps 1 to 8 of R131 and needs no source scale line then runs: the engine
holds it as running, the rest of its queue leads the queue, and the memories, pinnae and stacks are as before. One
that the checks end leaves the engine running nothing, its page with an event of class 2 pending, and the memories,
pinnae's scratchpads and stacks as before. -/
def Obligations.DescriptorsStartInQueueOrder : Prop :=
  ∀ (s : State) (e : EngineId) (q : QDesc) (rest : List QDesc) (taken : State), s.tablesCanonical → e.exists = true →
    s.engineHalted e = false → (s.engine e).running = none → (s.engine e).queue = q :: rest → q.sealArg = none →
    taken = (s.setEngine e { queue := rest, running := some q }).feed e →
    ((Desc.ofBytes q.bytes).linesNeeded = [] → taken.descCheck e q (Desc.ofBytes q.bytes) 0 = 0 →
      Completes (.dmaDescriptorStart e) s (fun t =>
        (t.engine e).running = some q ∧ (t.engine e).lines = [] ∧ rest <+: (t.engine e).queue ∧ t.pinnae = s.pinnae
          ∧ t.stackTab = s.stackTab ∧ (∀ f, (t.frond f).mem = (s.frond f).mem)
          ∧ ∀ x, (t.port x).hostMem = (s.port x).hostMem)) ∧
    (∀ code, taken.descCheck e q (Desc.ofBytes q.bytes) 0 = code → code ≠ 0 →
      Completes (.dmaDescriptorStart e) s (fun t =>
        (t.engine e).running = none ∧ bit (t.word e.page 0x010) 2 = true
          ∧ (∀ f k, e = .frond f k → t.fld (.frd f) Reg.FRD_DMA_FAULT 15 0 = code)
          ∧ (∀ n, (t.pinna n).spad = (s.pinna n).spad) ∧ ∀ f, (t.frond f).mem = (s.frond f).mem))

/-- In every state, for an engine that runs a descriptor whose estimator has folded where it needs one:
DMA_DESCRIPTOR_COMPLETE of a context that is not ending, DMA_BUS_ERROR at element k, HOST_DMA_ERROR_COMPLETION at
element k and, of a context that is ending, DMA_TEARDOWN_ABORT at boundary m end it: unless an alarm of its accesses
halts it, the engine then runs nothing. A bus error leaves an event of class 2 pending on the engine's page and the
code in the frond's fault register; a host error also one of class 13 on the port's; a teardown that is no Context
reset one of class 2. A descriptor that copies elements of w bytes within its frond's memory has moved all its
elements, those below k, or those of the first 4096 m bytes, and no other byte of that memory changes. -/
def Obligations.RunningDescriptorsEnd : Prop :=
  ∀ (s : State) (e : EngineId) (q : QDesc) (k m : Nat), s.tablesCanonical → Runs s e q →
    (s.ctxEnding q.ctx = false → s.descReady e q = true → (∀ x, q.sealArg = some x → x.opening = true ∨ s.thl.trngOk = true) →
      Completes (.dmaDescriptorComplete e) s (fun t => Idle t e)) ∧
    (k < (Desc.ofBytes q.bytes).count → s.descReady e q = true →
      Completes (.dmaBusError e k) s (fun t => Idle t e ∧ (t.engineHalted e = false → bit (t.word e.page 0x010) 2 = true
        ∧ ∀ f j, e = .frond f j → t.fld (.frd f) Reg.FRD_DMA_FAULT 15 0 = 0x200A))) ∧
    (∀ x kind, k < (Desc.ofBytes q.bytes).count → s.descReady e q = true → x < 2 → 1 ≤ kind → kind ≤ 4 →
      ((Desc.ofBytes q.bytes).srcSpace = 4 + x ∨ (Desc.ofBytes q.bytes).dstSpace = 4 + x) →
      Completes (.hostDmaErrorCompletion x e kind k) s (fun t => Idle t e ∧ bit (t.word (.hif x) 0x010) 13 = true
        ∧ (t.engineHalted e = false → bit (t.word e.page 0x010) 2 = true))) ∧
    (s.ctxEnding q.ctx = true →
      Completes (.dmaTeardownAbort e m) s (fun t => Idle t e
        ∧ ((s.ctx q.ctx).state = .teardown → t.engineHalted e = false → bit (t.word e.page 0x010) 2 = true))) ∧
    (∀ f j w, e = .frond f j → (s.frond f).mem.wf = true → CopiesWithinFrond q w →
      (s.ctxEnding q.ctx = false →
        Completes (.dmaDescriptorComplete e) s (fun t => Moved s t f q w (Desc.ofBytes q.bytes).count
          ∧ t.word (.frd f) Reg.FRD_DMA_DONE = min (s.word (.frd f) Reg.FRD_DMA_DONE + 1) 0xFFFFFFFF)) ∧
      (k < (Desc.ofBytes q.bytes).count → Completes (.dmaBusError e k) s (fun t => Moved s t f q w k)) ∧
      (s.ctxEnding q.ctx = true →
        Completes (.dmaTeardownAbort e m) s (fun t => Moved s t f q w (min (4096 * m / w) (Desc.ofBytes q.bytes).count))))

/-- In every state with canonical tables, an admitted STAT_SLOT_FREE sets the slot's elem field to the value; with the
value 0 the slot's owner field becomes 0 too. Nothing but register words of the frond's page changes. -/
def Obligations.StatisticsSlotsAreWritten : Prop :=
  ∀ (s : State) (r : Requester) (f slot value : Nat), s.tablesCanonical → 1 ≤ slot → slot ≤ 63 → value < 2 ^ 32 →
    Admits s r (.frd f) (statOff slot) true →
    Completes (.statSlotFree r f slot value) s (fun t =>
      t.fld (.frd f) (statOff slot) 31 0 = value ∧ (value = 0 → t.fld (.frd f) (statOff slot) 165 160 = 0)
        ∧ { t with regs := s.regs } = s)

/-- In every state with canonical tables: EST_FOLD for a seed that a conversion waits for, with no conversion of the old
step in progress, leaves the slot valid with that seed; with one in progress and none reported yet it raises 0x1107
and leaves the slot's seed. An admitted write of word 0 with a format outside 4 to 10 leaves the slot's words as they
were and the partition's page pending in class 1; one with a legal format sets the slot's enable bit and its initial
code. -/
def Obligations.EstimatorSlotsFoldAndTakeWrites : Prop :=
  ∀ (s : State) (p slot : Nat), s.tablesCanonical → p < 4 → 1 ≤ slot → slot ≤ 63 →
    (∀ seed : BitVec 64, s.estSeeded p slot seed = false →
      (s.estWaits p slot seed = true ∨ s.estCloses p slot seed = true) →
      (s.estFld p slot 57 57 = 0 ∨ s.estBusy p slot (s.estFld p slot 255 192) = false →
        Completes (.estFold p slot seed) s (fun t =>
          t.estFld p slot 57 57 = 1 ∧ t.estFld p slot 255 192 = seed.toNat ∧ t.pinnae = s.pinnae ∧ t.stackTab = s.stackTab)) ∧
      (s.estFld p slot 57 57 = 1 → s.estBusy p slot (s.estFld p slot 255 192) = true →
        SMap.get false s.estWait (64 * p + slot) = false →
        Completes (.estFold p slot seed) s (fun t =>
          t.estFld p slot 255 192 = s.estFld p slot 255 192 ∧ bit (t.word (.est p) 0x010) 1 = true))) ∧
    (∀ r value, Admits s r (.est p) (estOff slot) true →
      (bits value 4 1 < 4 ∨ 10 < bits value 4 1 →
        Completes (.estSlotWrite r p slot 0 4 value) s (fun t =>
          (∀ i, i < 8 → t.word (.est p) (estOff slot + 4 * i) = s.word (.est p) (estOff slot + 4 * i))
            ∧ bit (t.word (.est p) 0x010) 1 = true)) ∧
      (4 ≤ bits value 4 1 → bits value 4 1 ≤ 10 →
        Completes (.estSlotWrite r p slot 0 4 value) s (fun t =>
          t.estFld p slot 0 0 = value % 2 ∧ t.estFld p slot 31 24 = bits value 31 24)))

/-- In every state with canonical tables: CSE_REQUEST of the run at the head of its engine, whose check passes, marks the
run sent, waiting for the request's stacks, and puts one part at the end of the lane queue of each; one that fails
ends the run with an event of class 2. CSE_STACK_PART takes the part at the head of a lane queue: its run no longer
waits for that stack, and has its partials, or the event of its abort; a part whose segment begins at or past npos has
the partials of no position. CSE_MERGE of a run whose parts have all ended writes only the result area, unmerged
partials each at its place, increments the request's flag, and goes on to the next request or ends the run. -/
def Obligations.CacheSelectionRequestsRun : Prop :=
  ∀ (s : State), s.tablesCanonical →
    (∀ f r q, f < 32 → s.haltedPart (s.partOfQuarter (f / 8)) = false → (s.frond f).cseNext = some r →
      q = CseReq.ofBytes (nth [] r.reqs r.index) →
      (s.cseCheck r.ctx f r.index q = none →
        Completes (.cseRequest f) s (fun t =>
          (∃ x ∈ (t.frond f).cse, x.job = r.job ∧ x.sent = true ∧ x.waiting = q.stackList ∧ x.parts = []) ∧
          ∀ k ∈ q.stackList, ∃ part : LaneCmd, (t.stack k).lanes = (s.stack k).lanes ++ [part] ∧ part.kind = .csePart
            ∧ part.ctx = r.ctx ∧ part.frond = f ∧ part.job = some r.job ∧ part.desc = nth [] r.reqs r.index)) ∧
      (∀ v, s.cseCheck r.ctx f r.index q = some v →
        Completes (.cseRequest f) s (fun t => (∀ x ∈ (t.frond f).cse, x.job ≠ r.job)
          ∧ bit (t.word (.frd f) 0x010) 2 = true ∧ ∀ k, (t.stack k).lanes = (s.stack k).lanes))) ∧
    (∀ k cmd rest q, AtLane s k cmd rest → cmd.kind = .csePart → q = CseReq.ofBytes cmd.desc →
      Completes (.cseStackPart k) s (fun t => (t.stack k).lanes = rest ∧ ∃ parts faults,
        (t.frond cmd.frond).cse = (s.frond cmd.frond).cse.map (fun x => if x.job = cmd.job.getD 0 then
          { x with waiting := x.waiting.filter (· ≠ k), parts := x.parts ++ parts, faults := x.faults ++ faults } else x)
        ∧ ((∃ p, parts = [(k, p)] ∧ faults = []) ∨ (∃ ev, parts = [] ∧ faults = [(k, ev)] ∧ bit (t.word (.rhz k) 0x010) 2 = true))
        ∧ (q.npos ≤ q.rank k * q.seg →
            parts = [(k, List.replicate q.g ([0xFF800000, 0] ++ List.replicate q.d 0))] ∧ faults = []))) ∧
    (∀ f r q, f < 32 → s.haltedPart (s.partOfQuarter (f / 8)) = false →
      (s.frond f).cse.find? (fun r => r.sent && r.waiting.isEmpty) = some r → q = CseReq.ofBytes (nth [] r.reqs r.index) →
      Completes (.cseMerge f) s (fun t =>
        (q.dstSpace = 3 → (s.frond f).mem.wf = true → (∀ p ∈ r.parts, p.2.length = q.g ∧ ∀ c ∈ p.2, c.length = 2 + q.d) →
          (∀ a, a < q.dst ∨ q.dst + q.outBytes ≤ a → (t.frond f).mem.byte a = (s.frond f).mem.byte a) ∧
          (q.merge = false → ∀ k ∈ q.stackList, ∀ p, r.parts.find? (fun p => p.1 == k) = some p → ∀ i c, p.2[i]? = some c →
            Mem.read (t.frond f).mem (q.dst + (q.rank k * q.g + i) * (64 + 4 * q.d)) (64 + 4 * q.d)
              = (c.take 2).flatMap (leBytes 4) ++ List.replicate 56 0#8 ++ (c.drop 2).flatMap (leBytes 4))) ∧
        (r.fault = none → q.flagEn = true →
          t.word (.frd f) (flagOff q.flag) = (s.word (.frd f) (flagOff q.flag) + 1) % 2 ^ 32) ∧
        (r.fault = none → r.index + 1 < r.reqs.length →
          ∃ x ∈ (t.frond f).cse, x.job = r.job ∧ x.index = r.index + 1 ∧ x.sent = false) ∧
        (r.fault ≠ none ∨ r.reqs.length ≤ r.index + 1 → ∀ x ∈ (t.frond f).cse, x.job ≠ r.job)))

/-- In every state with canonical tables, for a started REDUCE command of a partition that is not halted whose descriptor
can be read: an arm that R204 allows, with no entry for its buffer and one free, without replay, forwarding or table
codes, opens an entry with the descriptor's buffer identity and step; an arm that R204 does not allow opens none. A
release of a CLOSED entry frees it. A legal send to a stack of its own node, from scratchpads or frond memory, with no
code 0xFF, puts one contribution for each of its spans, in order, behind the stack's inbox; an illegal send leaves
every inbox as it was. Each then has ended, unless an alarm has halted its partition. -/
def Obligations.ReductionBuffersAreArmedAndReleased : Prop :=
  ∀ (s : State) (id c f : Nat) (j : Job) (s1 : State) (bs : List Byte) (d : SendDesc), s.tablesCanonical → Started s id 3 c j →
    j.id = id → f = (entryEngine j.entry).1 → s.frondDesc c j 0 64 = (s1, some bs) → s1.tablesCanonical →
    (redOp j = 0 → s.armHeld c j = false → ∀ k e, k = bits (leNat bs) 115 112 →
      e = armEntry (leNat bs) c (s1.fld (.rhz k) Reg.RHZ_RED_CTL 4 0) (s1.ctx c).proth →
      (∀ i, s1.armLegal k (leNat bs) e = true → (s1.stack k).findEntry c e.group e.buffer = none →
        (s1.stack k).freeEntry = some i → e.kind ≠ 1 → e.replay = false → bit (leNat bs) 404 = true →
        Completes (.redArm id) s (fun t => EndsUnlessHalted t c id ∧
          ((t.stack k).entry i).state = .opened ∧ ((t.stack k).entry i).ctx = c
            ∧ ((t.stack k).entry i).group = bits (leNat bs) 63 48 ∧ ((t.stack k).entry i).buffer = bits (leNat bs) 143 128
            ∧ ((t.stack k).entry i).step = bits (leNat bs) 191 160)) ∧
      (s1.armLegal k (leNat bs) e = false →
        Completes (.redArm id) s (fun t => EndsUnlessHalted t c id ∧ ∀ m, (t.stack m).entries = (s1.stack m).entries))) ∧
    (redOp j = 2 → ∀ k i, k = bits (leNat bs) 115 112 → (s1.stacksOf (c / 8)).contains k = true →
      leNat bs = bits (leNat bs) 63 48 * 2 ^ 48 + k * 2 ^ 112 + bits (leNat bs) 143 128 * 2 ^ 128 →
      (s1.stack k).findEntry c (bits (leNat bs) 63 48) (bits (leNat bs) 143 128) = some i →
      SMap.wf {} (s1.stack k).entries = true → ((s1.stack k).entry i).state = .closed →
      Completes (.redRelease id) s (fun t => EndsUnlessHalted t c id ∧ (t.stack k).entry i = {})) ∧
    (redOp j = 1 → d = SendDesc.ofBytes bs →
      (s1.sendLegal c f d = false →
        Completes (.redSend id) s (fun t => EndsUnlessHalted t c id ∧ ∀ m, (t.stack m).inbox = (s1.stack m).inbox)) ∧
      (s1.sendLegal c f d = true → d.dst = s1.node → 2 ≤ d.srcSpace → 2 ≤ d.codesSpace →
        (d.typ = 2 ∨ ∀ bs, (s1.readSpace { ctx := c, frond := some f } d.codesSpace (d.codes + d.span0) d.nspan).2 = some bs →
          0xFF#8 ∉ bs) →
        Completes (.redSend id) s (fun t => EndsUnlessHalted t c id ∧ ∃ ms : List Inbound,
          (t.stack d.stack).inbox = (s1.stack d.stack).inbox ++ ms ∧ ms.length = d.nspan
            ∧ ∀ i m, ms[i]? = some m → m.ctx = c ∧ m.sender = .engine f (entryEngine j.entry).2
              ∧ (Contrib.ofBytes m.bytes).kind = d.typ + 1 ∧ (Contrib.ofBytes m.bytes).group = d.group
              ∧ (Contrib.ofBytes m.bytes).buffer = d.buffer ∧ (Contrib.ofBytes m.bytes).step = d.step
              ∧ (Contrib.ofBytes m.bytes).rank = d.rank ∧ (Contrib.ofBytes m.bytes).weight = d.weight
              ∧ (Contrib.ofBytes m.bytes).span = d.span0 + i)))

/-- In every state with canonical tables, CONTRIBUTION_RECEIVED takes from the inbox of a stack whose Rhizoid works a
message that no earlier message of its sender precedes. If an entry of the context is OPEN within its cycle D for the
message's buffer and step, the header fits, and the rank is new and, in replay, recorded, the span's accepted ranks
afterwards hold the rank, and the entry is CLOSING if it is then complete, OPEN if it is not. If the rank had been
accepted, the span's record is unchanged. If no entry exists, every entry is unchanged and the page is pending in
class 5 when the buffer was not reported before. -/
def Obligations.ContributionsAreAcceptedOnce : Prop :=
  ∀ (s : State) (k src : Nat) (m : Inbound) (h : Contrib), s.tablesCanonical → k < 12 →
    s.rhzRuns k = true → (s.stack k).inbox[src]? = some m → (∀ o ∈ (s.stack k).inbox.take src, o.sender ≠ m.sender) →
    h = Contrib.ofBytes m.bytes → SMap.wf {} (s.stack k).entries = true →
    (∀ i, (s.stack k).findEntry m.ctx h.group h.buffer = some i → ((s.stack k).entry i).state = .opened →
      s.rhzCycle ≤ ((s.stack k).entry i).cycle →
      h.step = ((s.stack k).entry i).step → ((s.stack k).entry i).contribOk h m.bytes.length = true →
      SMap.wf {} ((s.stack k).entry i).spans = true →
      (bit (((s.stack k).entry i).span h.span).acc h.rank = false →
        (((s.stack k).entry i).replay = true → bit (((s.stack k).entry i).takes h.span) h.rank = true) →
        Completes (.contributionReceived k src) s (fun t =>
          bit (((t.stack k).entry i).span h.span).acc h.rank = true ∧ (t.stack k).inbox = (s.stack k).inbox.eraseIdx src
            ∧ ((t.stack k).entry i).state = if ((t.stack k).entry i).complete then .closing else .opened)) ∧
      (bit (((s.stack k).entry i).span h.span).acc h.rank = true →
        Completes (.contributionReceived k src) s (fun t =>
          ((t.stack k).entry i).span h.span = ((s.stack k).entry i).span h.span
            ∧ (t.stack k).inbox = (s.stack k).inbox.eraseIdx src))) ∧
    ((s.stack k).findEntry m.ctx h.group h.buffer = none →
      Completes (.contributionReceived k src) s (fun t =>
        (t.stack k).entries = (s.stack k).entries ∧ (t.stack k).inbox = (s.stack k).inbox.eraseIdx src
          ∧ ((s.stack k).unarmed.contains (m.ctx, h.group, h.buffer, h.step) = false → bit (t.word (.rhz k) 0x010) 5 = true)))

/-- In every state with canonical tables, of a stack whose Rhizoid works: RED_DEADLINE moves an OPEN entry that is
complete, or whose cycle D ends before the timebase's present cycle does, to CLOSING and changes nothing else of the
stack; RED_CLOSE of a CLOSING entry leaves it CLOSED, and counted as closed, unless an alarm of its own accesses halts
the Rhizoid, or CLOSING at its check when the arm asked for one; SAMPLED_CHECK of an entry at its check leaves it
CLOSED and counted unless such an alarm halts the Rhizoid. -/
def Obligations.BuffersCloseInOrder : Prop :=
  ∀ (s : State) (k i : Nat), s.tablesCanonical → k < 12 → i < 64 → SMap.wf {} (s.stack k).entries = true →
    s.rhzRuns k = true →
    (((s.stack k).entry i).state = .opened →
      (((s.stack k).entry i).complete = true ∨ 5 * (((s.stack k).entry i).cycle + 1) < 32 * (s.ticks + 1)) →
      Completes (.redDeadline k i) s (fun t =>
        (t.stack k).entry i = { (s.stack k).entry i with state := .closing }
          ∧ t.rhzNow = (if ((s.stack k).entry i).complete then s.rhzNow else max s.rhzNow (((s.stack k).entry i).cycle + 1))
          ∧ { t with stackTab := s.stackTab, rhzNow := s.rhzNow } = s ∧ (∀ m, m ≠ k → t.stack m = s.stack m)
          ∧ { t.stack k with entries := (s.stack k).entries } = s.stack k)) ∧
    (((s.stack k).entry i).state = .closing → ((s.stack k).entry i).checking = false →
      Completes (.redClose k i) s (fun t =>
        (((s.stack k).entry i).chkEn = false → t.rhzRuns k = true → ((t.stack k).entry i).state = .closed
            ∧ t.word (.rhz k) (redCounter 4) = min (s.word (.rhz k) (redCounter 4) + 1) 0xFFFFFFFF)
          ∧ (((s.stack k).entry i).chkEn = true →
              ((t.stack k).entry i).state = .closing ∧ ((t.stack k).entry i).checking = true))) ∧
    (((s.stack k).entry i).state = .closing → ((s.stack k).entry i).checking = true →
      Completes (.sampledCheck k i) s (fun t =>
        t.rhzRuns k = true → ((t.stack k).entry i).state = .closed ∧ ((t.stack k).entry i).checking = false
          ∧ t.word (.rhz k) (redCounter 4) = min (s.word (.rhz k) (redCounter 4) + 1) 0xFFFFFFFF))

/-- In every state with canonical tables, for a started UPDATE command that has not begun, in a partition that is not
halted, whose descriptor can be read, and for an APPLY the layer's element count: when it passes R229, APPLY and
CLEAR, and INIT and LOADPROG when their image can be read (INIT with a copy of weights when the source passes too),
end up at the end of the lane queue of the descriptor's stack with the command's context and number, and the command
has begun. A descriptor that fails leaves every lane queue as it was and the command ended, unless an alarm has halted
its partition, with an event of class 6 on the frond's page. -/
def Obligations.UpdateCommandsReachTheirLanes : Prop :=
  ∀ (s : State) (id c f : Nat) (j : Job) (s0 s1 : State) (bs : List Byte) (d : UpdDesc) (nel : Nat), s.tablesCanonical →
    Started s id 4 c j → j.id = id → f = (entryEngine j.entry).1 →
    j.begun = false → s.frondDesc c j 0 64 = (s0, some bs) → d = UpdDesc.ofBytes bs → s0.updNel c f d = (s1, some nel) →
    s1.tablesCanonical →
    ∀ x ∈ [(0, Instr.updateInit id .issue), (1, .updateApply id .issue), (2, .updateClear id .issue),
        (3, .updateLoadprog id .issue)],
      d.op = x.1 →
      (∀ s2 image, s1.updCheck c f d nel = none →
        (if d.op = 1 ∨ d.op = 2 then (s1, some []) else
          s1.readSpace { ctx := c, frond := some f } d.srcSpace d.src (if d.op = 0 then 192 else 320))
            = (s2, some image) →
        (d.op = 0 → d.wcopy = true → s2.updLocal c d.stack 1 d.wsrc (2 * (LHdr.ofBytes image).nel) = true) →
        Completes x.2 s (fun t =>
          (∃ cmd : LaneCmd, (t.stack d.stack).lanes = (s2.stack d.stack).lanes ++ [cmd] ∧ cmd.ctx = c ∧ cmd.job = some id
            ∧ cmd.hdr = d.hdr ∧ cmd.image = image ∧ cmd.desc = bs)
          ∧ ∃ j', findJob (t.ctx c).jobs id = some j' ∧ j'.begun = true)) ∧
      (∀ q, s1.updCheck c f d nel = some q → s1.haltedPart (c / 8) = false →
        Completes x.2 s (fun t => EndsUnlessHalted t c id ∧ bit (t.word (.frd f) 0x010) 6 = true
          ∧ ∀ m, (t.stack m).lanes = (s1.stack m).lanes))

/-- In every state with canonical tables, the command at the head of a stack's lane queue, when it may start, runs and the
rest of the queue stays. LOADPROG of a legal program makes its slot valid under the context. Where completion records
and capture lie outside the stacks: an INIT has written the image's header with its step, untorn, without fault and
with last 0; CLEAR has set the descriptor's step, without fault and with last 0; an APPLY or queued update that is
counted as done has advanced the header's step and left it untorn and without fault; a skip that is counted has
advanced the step and the skips; a fault write has set fault and last; or else an event of class 6 is pending on the
stack's page, unless an alarm has halted the Rhizoid. -/
def Obligations.LaneCommandsRunInOrder : Prop :=
  ∀ (s : State) (k id : Nat) (cmd : LaneCmd) (rest : List LaneCmd) (u : State) (d : UpdDesc), s.tablesCanonical →
    AtLane s k cmd rest → u = s.laneTaken k rest → d = UpdDesc.ofBytes cmd.desc → (s.stack k).mem.wf = true →
    (cmd.job = some id → s.laneOf id cmd.kind = some k →
      (cmd.kind = .init → Completes (.updateInit id .perform) s (fun t => (t.stack k).lanes = rest ∧ (RecordsOutside s cmd.ctx →
        ((t.hdrAt k cmd.hdr).step = (LHdr.ofBytes cmd.image).step ∧ (t.hdrAt k cmd.hdr).torn = false
          ∧ (t.hdrAt k cmd.hdr).fault = false ∧ (t.hdrAt k cmd.hdr).last = 0) ∨ Reported t k))) ∧
      (cmd.kind = .clear → Completes (.updateClear id .perform) s (fun t => (t.stack k).lanes = rest ∧ (RecordsOutside s cmd.ctx →
        ((s.ctx cmd.ctx).joint = true → ∀ s1 h, u.hdrRead k cmd = (s1, some h) → h.step ≤ d.step) →
        ((t.hdrAt k cmd.hdr).step = d.step ∧ (t.hdrAt k cmd.hdr).fault = false ∧ (t.hdrAt k cmd.hdr).last = 0)
          ∨ Reported t k))) ∧
      (cmd.kind = .loadprog → Completes (.updateLoadprog id .perform) s (fun t => (t.stack k).lanes = rest ∧
        ((s.ctx cmd.ctx).joint = false →
          ((SMap.get {} (s.stack k).progs d.slot).valid = false ∨ (SMap.get {} (s.stack k).progs d.slot).owner = cmd.ctx) →
          progBad cmd.image d.ni = none → SMap.wf {} (s.stack k).progs = true →
          SMap.get {} (t.stack k).progs d.slot = { valid := true, owner := cmd.ctx, ni := d.ni, image := cmd.image }))) ∧
      (cmd.kind = .apply → Completes (.updateApply id .perform) s (fun t => (t.stack k).lanes = rest
        ∧ (RecordsOutside s cmd.ctx → Updated u t k cmd)))) ∧
    (cmd.kind = .update → Completes (.layerUpdate k) s (fun t => (t.stack k).lanes = rest
      ∧ (RecordsOutside s cmd.ctx → Updated u t k cmd))) ∧
    (cmd.kind = .skip → Completes (.layerSkip k) s (fun t => (t.stack k).lanes = rest ∧
      (t.word (.rhz k) 0x190 = s.word (.rhz k) 0x190 → s.word (.rhz k) 0x190 < 2 ^ 32 - 1 → Reported t k) ∧
      (RecordsOutside s cmd.ctx → t.word (.rhz k) 0x190 ≠ s.word (.rhz k) 0x190 →
        ∀ s1 h, u.hdrRead k cmd = (s1, some h) → (t.hdrAt k cmd.hdr).step = (h.step + 1) % 2 ^ 32
          ∧ (t.hdrAt k cmd.hdr).skips = min (h.skips + 1) 0xFFFFFFFF))) ∧
    (∀ code, cmd.kind = .fault code → Completes (.layerFaultWrite k) s (fun t => (t.stack k).lanes = rest
      ∧ (RecordsOutside s cmd.ctx → ((t.hdrAt k cmd.hdr).fault = true ∧ (t.hdrAt k cmd.hdr).last = code % 65536)
          ∨ Reported t k)))

/-- In every state with canonical tables, of a stack whose Rhizoid works: RELEASE_START of the oldest waiting release of a
layer, whose buffer is OPEN at the new step or gone, leaves it begun, or ended and gone from the list; one whose list
has a count outside 1 to 64 is gone with an event of class 6. MIRROR_SEND of a layer whose copy is due, and whose
release does not wait: the copy is no longer due; without a path to the buddy nothing is sent; with one, when the
header can be read, the channel's queue gains first the mirror write of the header, at the header's offset plus the
context's delta. -/
def Obligations.ReleasesAndMirrorsAreSent : Prop :=
  ∀ (s : State) (k hdr : Nat), s.tablesCanonical → k < 12 → s.rhzRuns k = true →
    (∀ i r, (s.stack k).releases.findIdx? (fun r => r.hdr == hdr && !r.begun) = some i →
      (s.stack k).releases[i]? = some r → s.relReady k r = true →
      Completes (.releaseStart k hdr) s (fun t =>
        ((∃ r', (t.stack k).releases[i]? = some r' ∧ r'.begun = true ∧ r'.hdr = hdr)
          ∨ (t.stack k).releases = (s.stack k).releases.eraseIdx i) ∧
        (∀ s1 head, s.rhzRead k r.ctx r.listAt 64 = (s1, .ok head) →
          (bits (leNat head) 23 16 = 0 ∨ 64 < bits (leNat head) 23 16) → r.stamps = [] →
          (t.stack k).releases = (s.stack k).releases.eraseIdx i ∧ Reported t k))) ∧
    (∀ m u, (s.stack k).mirrors.find? (fun m => m.1 == hdr) = some m →
      (s.stack k).releases.any (fun r => r.hdr == hdr && !r.begun) = false →
      u = s.setStack k { s.stack k with mirrors := (s.stack k).mirrors.erase m } →
      Completes (.mirrorSend k hdr) s (fun t => (t.stack k).mirrors = (s.stack k).mirrors.erase m ∧
        (u.mirrorPath m.2 (s.fld .fabric (Reg.LML_MIRROR + 16 * m.2) 47 32) = none → t.links = s.links ∧ MemoriesSame s t) ∧
        (∀ l v g s1 s2 bs head at_, u.mirrorPath m.2 (s.fld .fabric (Reg.LML_MIRROR + 16 * m.2) 47 32) = some (l, v, g) →
          u.rhzRead k m.2 hdr 192 = (s1, .ok bs) → s1.rhzRead k m.2 hdr 192 = (s2, .ok head) →
          at_ = (hdr + s.fld .fabric (Reg.LML_MIRROR + 16 * m.2) 100 64) % stackBytes → SMap.wf [] (s.link l).tx = true →
          ∃ ms, SMap.get [] (t.link l).tx v = SMap.get [] (s.link l).tx v ++
            { bytes := writeHeader 0x23 g s.node (2 ^ 43 + k * stackBytes + at_) 1 (min 192 (stackBytes - at_)) s.nextWrite
                        ++ head.take (stackBytes - at_) } :: ms)))

/-- In every state with canonical tables, for a link whose slots and waiting bindings are canonical: an admitted
LINK_RETRAIN, outside a reset of its partition, leaves the link training, or down where hold is then 1, with no slot
bound and nothing queued. LINK_TRAINED takes a training link to bootstrap. LINK_SESSION_ESTABLISH of a link in
bootstrap, served by Thallus, leaves it there where a check fails, so where the peer's public value or chain does not
hold, or up: the peer's node and digest are recorded, this module is the requester where its digest is the smaller
one, a secret LM stands, and slot 0 begins epoch 1 both ways. A SLOT_BIND_CONFIRMATION of the identifier that a
waiting binding names binds the slot, when Thallus serves it, to the binding's context in epoch 1. REKEY_FORCE moves
every bound slot to its next epoch, with its counter at 0, but one in the last epoch. A SLOT_RETIRE_NOTICE unbinds the
slot and drops what waits on its channels. No other link changes in LINK_TRAINED and REKEY_FORCE. -/
def Obligations.LinksTrainAndRunTheirSession : Prop :=
  ∀ (s : State) (l : Nat), s.tablesCanonical → l < 16 → (s.link l).canonical →
    (∀ r value, bit value 0 = true → Admits s r (.lml l) Reg.LML_LINK_CTL false →
      (s.part (s.partOfQuarter (l / 4))).resetting = false →
      Completes (.linkRetrain r l value) s (fun t =>
        t.link l = { phase := if (if s.lockBinds r (.lml l) then s.fld (.lml l) Reg.LML_LINK_CTL 1 1 else bits value 1 1) = 1
                              then .down else .training })) ∧
    (s.clk.inReset = false → (s.link l).phase = .training →
      Completes (.linkTrained l) s (fun t => t.link l = { s.link l with phase := .bootstrap } ∧ ∀ m, m ≠ l → t.link m = s.link m)) ∧
    (∀ peer node s0, (s.link l).phase = .bootstrap → AtThallus s (.session l) s0 →
      Completes (.linkSessionEstablish l peer node) s (fun t =>
        ((t.link l).phase = .bootstrap ∨
          ((t.link l).phase = .up ∧ (t.link l).peer = node % 65536 ∧ (t.link l).peerId = keyDigest peer.n rsaE peer.slh
            ∧ (t.link l).lm.isSome = true
            ∧ (t.link l).requester = decide (beNat s.deviceDigest < beNat (keyDigest peer.n rsaE peer.slh))
            ∧ (t.link l).slot 0 = { bound := true, txEpoch := 1, rxEpoch := 1 })) ∧
        (ecdhValid peer.exchange = false ∨ Config.certifies peer.chain peer.n peer.slh = false →
          (t.link l).phase = .bootstrap))) ∧
    (∀ k w s0, 1 ≤ k → k ≤ 8 → SMap.get none (s.link l).waits k = some w → (s.link l).phase = .up →
      AtThallus s (.slotBind l k w.fsid) s0 →
      Completes (.slotBindConfirmation l k w.fsid) s (fun t =>
        (t.link l).slot k = { bound := true, ctx := w.ctx, fsid := w.fsid, txEpoch := 1, rxEpoch := 1 }
          ∧ SMap.get none (t.link l).waits k = none)) ∧
    (∀ r value, bit value 8 = true → Admits s r (.lml l) Reg.LML_REKEY_CTL false →
      Completes (.rekeyForce r l value) s (fun t =>
        (∀ k, k < 9 → ((s.link l).slot k).bound = true →
          (((s.link l).slot k).txEpoch < 0xFFFFFFFF →
            (t.link l).slot k = { (s.link l).slot k with txEpoch := ((s.link l).slot k).txEpoch + 1, txCount := 0 }) ∧
          (((s.link l).slot k).txEpoch = 0xFFFFFFFF → (t.link l).slot k = (s.link l).slot k)) ∧
        ∀ m, m ≠ l → t.link m = s.link m)) ∧
    (∀ k s0, 1 ≤ k → k ≤ 8 → (s.link l).phase = .up → AtThallus s (.slotRetire l k) s0 →
      Completes (.slotRetireNotice l k) s (fun t =>
        ((t.link l).slot k).bound = false
          ∧ (((s.link l).slot k).bound = true → ∀ v ∈ s.channelsOf l k, SMap.get [] (t.link l).tx v = [])))

/-- In every state with canonical tables, on a link that carries frames: LANE_FAILED of a data lane while the spare is
free and good records the lane, begins the remap and sends the ordered set; REMAP_ORDERED_SET for it switches this
end, and one that this end did not ask for is answered; REMAP_DESKEW_DONE puts the spare into use for the lane, counts
the remap and raises 0x8001. With the spare in use, one more failed data lane leaves the link half as wide, on the
half with fewer failed lanes, the low one where they are equal. LANE_ERROR_WINDOW with no lane's corrected symbols
above the threshold, or with a threshold of 0, only begins their counts anew; one lane above it fails as LANE_FAILED
says. -/
def Obligations.LanesFailAreRemappedAndHalved : Prop :=
  ∀ (s : State) (l lane : Nat) (x : Link), s.tablesCanonical → l < 16 → lane < 8 → x = s.link l → x.runs = true →
    (x.half = none → x.spareFor = none → x.remapping = none → bit x.failed 8 = false →
      (bit x.failed lane = false →
        Completes (.laneFailed l lane) s (fun t =>
          t.link l = { x with failed := x.failed ||| 2 ^ lane, remapping := some lane, remapStage := 1 }
            ∧ t.out = s.out ++ [.orderedSet l [BitVec.ofNat 8 lane]])) ∧
      Completes (.remapOrderedSet l lane) s (fun t =>
        t.link l = { x with failed := x.failed ||| 2 ^ lane, remapping := some lane, remapStage := 2 }
          ∧ t.out = s.out ++ [.orderedSet l [BitVec.ofNat 8 lane]])) ∧
    (x.remapping = some lane → x.remapStage = 1 →
      Completes (.remapOrderedSet l lane) s (fun t => t.link l = { x with remapStage := 2 } ∧ t.out = s.out)) ∧
    (x.remapping = some lane → x.remapStage = 2 →
      Completes (.remapDeskewDone l) s (fun t =>
        (t.link l).spareFor = some lane ∧ (t.link l).remapping = none ∧ (t.link l).failed = x.failed
          ∧ t.word (.lml l) (lmlCounter 7) = min (s.word (.lml l) (lmlCounter 7) + 1) 0xFFFFFFFF
          ∧ bit (t.word (.lml l) 0x010) 8 = true)) ∧
    (∀ one, x.half = none → x.spareFor = some one → one < 8 → x.failed = 2 ^ one → lane ≠ one →
      Completes (.laneFailed l lane) s (fun t =>
        (t.link l).half = some (decide (one < 4 ∧ lane < 4)) ∧ (t.link l).failed = 2 ^ one + 2 ^ lane
          ∧ (t.link l).phase = x.phase)) ∧
    (∀ (counts : List Nat) (errs : Nat → Nat), (∀ i, errs i = SMap.get 0 x.laneErrs i + counts.getD i 0) →
      ((∀ i, i < 9 → errs i ≤ s.fld (.lml l) Reg.LML_LANE_CTL 15 0) ∨ s.fld (.lml l) Reg.LML_LANE_CTL 15 0 = 0 →
        Completes (.laneErrorWindow l counts) s (fun t => t = s.setLink l { x with laneErrs := [] })) ∧
      (s.fld (.lml l) Reg.LML_LANE_CTL 15 0 ≠ 0 → s.fld (.lml l) Reg.LML_LANE_CTL 15 0 < errs lane →
        (∀ i, i < 9 → i ≠ lane → errs i ≤ s.fld (.lml l) Reg.LML_LANE_CTL 15 0) → bit x.failed lane = false →
        Completes (.laneErrorWindow l counts) s (fun t =>
          exec (.laneFailed l lane) (s.setLink l { x with laneErrs := [] }) = .next t)))

/-- In every state with canonical tables, on a link that carries frames: FRAME_TRANSMIT of the channel that the order of
R263 chooses, with fewer than 64 frames unacknowledged and no remap in progress, takes the next sequence number, keeps
the frame under it and sends its superblocks. CONTROL_WORD_RECEIVED drops the frames up to the acknowledged one from
those kept, and counts the rest as sent again where nak is set; a superblock with an uncorrectable half does neither.
A FRAME_RECEIVED with a flit in an uncorrectable codeword, or out of sequence, leaves the sequence number, the slots
and the messages as they were and asks for a replay. One in sequence that fits its channel and buffer, of the slot's
epoch, with the right counter and tag, takes the sequence number and counts on the slot. One whose counter or tag is
wrong leaves the link reset: no slot stands. -/
def Obligations.FramesAreSentReceivedAndRepeated : Prop :=
  ∀ (s : State) (l : Nat) (x : Link), s.tablesCanonical → l < 16 → x = s.link l → x.runs = true → x.canonical →
    (∀ v m rest, x.remapping = none → x.replay.length < 64 → s.chosen l = some v → SMap.get [] x.tx v = m :: rest →
      Completes (.frameTransmit l) s (fun t =>
        (t.link l).seqOut = (x.seqOut + 1) % 65536 ∧ (t.link l).seqIn = x.seqIn
          ∧ ∃ bs blocks, (t.link l).replay = x.replay ++ [(x.seqOut, bs)] ∧ s.out ++ blocks <+: t.out
            ∧ blocks.length = ceilDiv bs.length 1280 ∧ ∀ b ∈ blocks, ∃ lanes, b = Out.superblock l lanes)) ∧
    (∀ b : Superblock,
      (b.errs0.length ≤ 15 → b.errs1.length ≤ 15 →
        Completes (.controlWordReceived l b) s (fun t =>
          (t.link l).replay = (match x.replay.findIdx? (fun r => r.1 == bits b.ctl.toNat 25 10) with
            | some i => x.replay.drop (i + 1)
            | none => x.replay) ∧
          (bit b.ctl.toNat 26 = false → t.out = s.out) ∧
          (bit b.ctl.toNat 26 = true → t.word (.lml l) (lmlCounter 2)
            = min (s.word (.lml l) (lmlCounter 2) + (t.link l).replay.length) 0xFFFFFFFF))) ∧
      (15 < b.errs0.length ∨ 15 < b.errs1.length →
        Completes (.controlWordReceived l b) s (fun t => (t.link l).replay = x.replay ∧ t.out = s.out
          ∧ t.word (.lml l) (lmlCounter 1) = min (s.word (.lml l) (lmlCounter 1)
              + (if 15 < b.errs0.length ∧ 15 < b.errs1.length then 2 else 1)) 0xFFFFFFFF))) ∧
    (∀ flit blocks bytes h, frameStands flit blocks = true → bytes = frameAt flit blocks → h = FrameHdr.ofBytes bytes →
      (frameLost flit blocks = true ∨ (startSeen blocks = true ∧ h.seq ≠ x.seqIn) →
        Completes (.frameReceived l flit blocks) s (fun t =>
          (t.link l).seqIn = x.seqIn ∧ (t.link l).slots = x.slots ∧ (t.link l).rx = x.rx ∧ (t.link l).naked = true)) ∧
      (frameLost flit blocks = false → startSeen blocks = true → h.seq = x.seqIn → s.frameFits l h bytes = true →
        (x.slot h.slot).stale h.slot h.epoch = false → h.epoch = (x.slot h.slot).rxEpoch →
        (∀ plain, x.open h bytes = some plain → h.fm1 + 1 ≤ s.bufferFlits l h.vc →
          Completes (.frameReceived l flit blocks) s (fun t =>
            (t.link l).seqIn = (x.seqIn + 1) % 65536
              ∧ (t.link l).slot h.slot = { x.slot h.slot with rxCount := h.counter + 1 })) ∧
        (x.open h bytes = none → (s.part (s.partOfQuarter (l / 4))).resetting = false →
          Completes (.frameReceived l flit blocks) s (fun t => LinkGone (t.link l)
            ∧ t.word (.lml l) (lmlCounter 6) = min (s.word (.lml l) (lmlCounter 6) + 1) 0xFFFFFFFF))))

/-- In every state with canonical tables, where the first waiting message of a link's channels from VC4 on has the
command's kind: REMOTE_WRITE and MIRROR_WRITE take it. Where its slot is bound, its length field is its data's length
and the stack-local view, the context's regions of the kind's sealing and the memory path take the data, the data
stand at the address, no other byte of the stack changes, and the answer of kind 0x21 with the write's identifier is
queued last on the same channel. Where its slot is bound but the length differs, no byte of any memory changes and the
answer is of kind 0x22; where its slot is not bound, nothing else happens. REMOTE_WRITE_ACK of an identifier that no
release waits for changes nothing but the waiting messages; of one among several of a destination, it ends that one's
wait alone; REMOTE_WRITE_REFUSAL raises 0x800E. -/
def Obligations.RemoteWritesArePerformedOrRefused : Prop :=
  ∀ (s s0 : State) (l v k : Nat) (bs : List Byte) (y : KeySlot), s.tablesCanonical → l < 16 → (s.link l).canonical →
    (s.link l).nextWriteMsg = some (v, k, bs) → y = (s.link l).slot k →
    s0 = s.setLink l { s.link l with inbox := (s.link l).inbox.erase (v, k, bs) } →
    (∀ mirror cmd, (mirror = false ∧ cmd = .remoteWrite l ∧ leNat (bs.take 1) = 0x20 ∨
                    mirror = true ∧ cmd = .mirrorWrite l ∧ leNat (bs.take 1) = 0x23) →
      (y.bound = false → Completes cmd s (fun t => t = s0)) ∧
      (y.bound = true → bits (leNat (bs.take 64)) 127 96 ≠ (bs.drop 64).length →
        Completes cmd s (fun t =>
          MemoriesSame s t ∧ ∃ m, SMap.get [] (t.link l).tx v = SMap.get [] (s.link l).tx v ++ [m]
            ∧ leNat (m.bytes.take 1) = 0x22 ∧ bits (leNat (m.bytes.take 64)) 159 128 = bits (leNat (bs.take 64)) 159 128)) ∧
      (∀ a kk o data, y.bound = true → a = bits (leNat (bs.take 64)) 83 40 → data = bs.drop 64 →
        bits (leNat (bs.take 64)) 86 84 = 1 → bits (leNat (bs.take 64)) 127 96 = data.length → data ≠ [] →
        s0.holds { ctx := y.ctx } 1 a data.length = true →
        s0.viewOwned y.ctx 1 a data.length (fun g => g.sealedBit == mirror) = true →
        (s0.writeView (y.ctx / 8) 1 a (if mirror then 3 else 0) y.ctx data (runFuel data.length)).2 = true →
        s0.resolve (y.ctx / 8) 1 a = some (kk, o) → (s.stack kk).mem.wf = true →
        Completes cmd s (fun t =>
          Mem.read (t.stack kk).mem o data.length = data ∧ StacksSameBut kk o (o + data.length) s t
            ∧ ∃ m, SMap.get [] (t.link l).tx v = SMap.get [] (s.link l).tx v ++ [m]
            ∧ leNat (m.bytes.take 1) = 0x21 ∧ bits (leNat (m.bytes.take 64)) 159 128 = bits (leNat (bs.take 64)) 159 128))) ∧
    (leNat (bs.take 1) = 0x21 →
      Completes (.remoteWriteAck l) s (fun t =>
        (s.findWrite l (bits (leNat (bs.take 64)) 159 128) = none → t = s0) ∧
        (∀ kk i pos r left, s.findWrite l (bits (leNat (bs.take 64)) 159 128) = some (kk, i, pos) →
          (s.stack kk).releases[i]? = some r →
          left = r.unacked.filter (fun u => !(u.2.1 == bits (leNat (bs.take 64)) 159 128 && u.2.2 == l)) →
          left.any (fun u => u.1 == pos) = true →
          (t.stack kk).releases[i]? = some { r with unacked := left }))) ∧
    (leNat (bs.take 1) = 0x22 →
      Completes (.remoteWriteRefusal l) s (fun t => bit (t.word (.lml l) 0x010) 8 = true))

/-- In every state with canonical tables: TIME_REQUEST_TIMER of a follower whose link is up and whose period has passed
queues a request on VC1; its departure in a frame notes t1 (exactly where the time is a whole step of 15.625 ps).
TIME_ANSWER of a link in a role that answers, 40 ns after the oldest request's arrival, queues an answer with t2 on
VC1 and takes the request. TIME_ANSWER_RECEIVED takes the oldest answer: one within 100 µs of its request ends the
exchange, and where the offset ((t2 − t1) + (t3 − t4) − asymmetry) / 2 and the delay ((t4 − t1) − (t3 − t2)) / 2 are
whole and fit their registers, LML_TIME_OFS and LML_TIME_DLY hold them; a later one ends it with 0x800B and leaves the
offset. TIME_ANSWER_TIMEOUT, more than 100 µs after a request without answer, ends it and raises 0x800B. -/
def Obligations.TimeIsExchangedOverALink : Prop :=
  ∀ (s : State) (l : Nat), s.tablesCanonical → l < 16 → (s.link l).canonical →
    (s.timeRole l = 2 → (s.link l).phase = .up → s.rateOpen (timeKey l) (200 * 2 ^ s.fld (.lml l) Reg.LML_TIME_CTL 5 2) = true →
      Completes (.timeRequestTimer l) s (fun t =>
        SMap.get [] (t.link l).tx 1 = SMap.get [] (s.link l).tx 1 ++ [{ bytes := timeRequest (s.link l).timeNum }]
          ∧ (t.link l).timeNum = (s.link l).timeNum + 1)) ∧
    (∀ m rest, (s.link l).runs = true → (s.link l).remapping = none → (s.link l).replay.length < 64 → s.chosen l = some 1 →
      SMap.get [] (s.link l).tx 1 = m :: rest → timeKind m.bytes = 1 → s.fineTime % 1024 = 0 →
      Completes (.frameTransmit l) s (fun t =>
        (t.link l).timeAsked = (s.link l).timeAsked ++ [(timeNumber m.bytes, s.fineTime)])) ∧
    (∀ n t2 rest, (s.link l).timeDue = (n, t2) :: rest → (s.timeRole l = 1 ∨ s.timeRole l = 2) → t2 + 40 * 65536 ≤ s.fineTime →
      Completes (.timeAnswer l) s (fun t =>
        (t.link l).timeDue = rest
          ∧ SMap.get [] (t.link l).tx 1 = SMap.get [] (s.link l).tx 1 ++ [{ bytes := timeAnswer n t2 0 }])) ∧
    (∀ n t1 t2 t3 t4, (s.link l).timeGot.find? (fun g => g.2 == (t2, t3, t4)) = some (n, t2, t3, t4) →
      (s.link l).timeAsked.find? (fun a => a.1 == n) = some (n, t1) →
      Completes (.timeAnswerReceived l t2 t3 t4) s (fun t =>
        (t.link l).timeGot = (s.link l).timeGot.erase (n, t2, t3, t4) ∧ (t.link l).timeAsked = (s.link l).timeAsked.filter (fun a => a.1 != n) ∧
        (t4 ≤ t1 + 100000 * 65536 → ∀ ofs dly : Int,
          (((t2 : Int) - t1) + ((t3 : Int) - t4)) * 1000 - signed 32 (s.word (.lml l) Reg.LML_TIME_ASYM) * 65536 = 2000 * ofs →
          ((t4 : Int) - t1) - ((t3 : Int) - t2) = 2 * dly → -2 ^ 31 ≤ ofs → ofs < 2 ^ 31 → 0 ≤ dly → dly < 2 ^ 32 →
          signed 32 (t.word (.lml l) Reg.LML_TIME_OFS) = ofs ∧ (t.word (.lml l) Reg.LML_TIME_DLY : Int) = dly) ∧
        (t1 + 100000 * 65536 < t4 → t.word (.lml l) Reg.LML_TIME_OFS = s.word (.lml l) Reg.LML_TIME_OFS
          ∧ bit (t.word (.lml l) 0x010) 8 = true))) ∧
    (∀ n t1, (s.link l).timeAsked.find? (fun a => (s.link l).timeGot.all (fun g => g.1 != a.1)) = some (n, t1) →
      t1 + 100000 * 65536 < s.fineTime →
      Completes (.timeAnswerTimeout l) s (fun t =>
        (t.link l).timeAsked = (s.link l).timeAsked.filter (fun a => a.1 != n) ∧ bit (t.word (.lml l) 0x010) 8 = true))

/-- In every state: COLD_RESET with PWR_OK low leaves the clock start waiting for the oscillator with the Module reset in
force, the straps sampled, no register word away from its reset value, and the queue, Thallus's OTP, directory and
flash, the meter's log, the layout and the bytes of every stack kept. With PWR_OK high, OSC_FIRST_EDGE goes on to the
settling time, SETTLE_TIME_END to the PLL, and PLL_LOCKED of at most 200 µs to running; OSC_EDGE_TIMEOUT,
PLL_LOCK_TIMEOUT and PLL_LOCK_LOST end in patterns 1, 2 and 3, the last with a Module reset in force; a
FAULT_PATTERN_FRAME shows the pattern once more. But for the first and the last loss nothing except the clock's record
and the messages changes. -/
def Obligations.ClocksStartStepByStep : Prop :=
  ∀ s : State,
    (∀ settle port, s.pwr.ok = false →
      Completes (.coldReset settle port) s (fun t =>
        t.clk.phase = .waitEdge ∧ t.clk.inReset = true ∧ t.clk.settle = settle % 8 ∧ t.clk.mgmtPort = port % 2 ∧ t.regs = []
          ∧ t.pending = s.pending ∧ t.thl.otp = s.thl.otp ∧ t.thl.dir = s.thl.dir ∧ t.thl.flash = s.thl.flash
          ∧ t.met.log = s.met.log ∧ t.layout = s.layout ∧ ∀ k a, k < 12 → (t.stack k).mem.byte a = (s.stack k).mem.byte a)) ∧
    (s.pwr.ok = true →
      (s.clk.phase = .waitEdge →
        Completes .oscFirstEdge s (fun t => t = { s with clk := { s.clk with phase := .settling } }) ∧
        Completes .oscEdgeTimeout s (fun t => t = { s with clk := { s.clk with phase := .failed 1 } })) ∧
      (s.clk.phase = .settling →
        Completes .settleTimeEnd s (fun t => t = { s with clk := { s.clk with phase := .pllStarting } })) ∧
      (s.clk.phase = .pllStarting →
        (∀ us, us ≤ 200 → Completes (.pllLocked us) s (fun t =>
          t = { s with clk := { s.clk with phase := .running, lockUs := us, resetAt := s.ticks } })) ∧
        Completes .pllLockTimeout s (fun t => t = { s with clk := { s.clk with phase := .failed 2 } })) ∧
      (s.clk.phase = .running →
        Completes .pllLockLost s (fun t => t.clk.phase = .failed 3 ∧ t.clk.inReset = true)) ∧
      (∀ n, s.clk.phase = .failed n →
        Completes .faultPatternFrame s (fun t =>
          t.clk.phase = .failed n ∧ t.clk.patternFrames = s.clk.patternFrames + 1 ∧ t.out = s.out ++ [.faultPattern n])))

/-- In every state whose domains run, with canonical tables, out of reset and with no host engine at work: RST_N_ASSERTED,
an admitted TOP_RESET_GO and a BOOT_WATCHDOG_EXPIRY 2,000 ms after the last release put the Module reset in force and
leave every context and region FREE, no pinna running or its queue filled, no link up, the timebase at 0 and the
module without a node role, while Thallus's OTP, the meter's log, the bytes of every stack, and those of the
scratchpad of every pinna without a vector instruction, are as before. MODULE_RESET_RELEASE, 200 cycles after the
reset was raised and at a multiple of 40, with every domain back at source 0, ends it and leaves every partition of
the layout waiting for its check key. -/
def Obligations.ModuleResetsReturnTheBlocks : Prop :=
  ∀ s : State, s.tablesCanonical → s.pwr.ok = true → s.clk.phase = .running →
    (s.clk.inReset = false → (∀ e ∈ allEngines, (s.engine e).running = none) →
      ∀ cmd, (cmd = .rstNAsserted ∨ (∃ r value, cmd = .topResetGo r value ∧ bit value 0 = true ∧ Admits s r .top Reg.TOP_RESET false)
              ∨ (cmd = .bootWatchdogExpiry ∧ s.thl.stage = 0 ∧ s.thl.started = true ∧ s.thl.awaiting.contains 1 = true
                  ∧ (s.stagedCopy 1).isSome = true ∧ s.clk.releasedAt + 2000 * msTicks ≤ s.ticks)) →
        Completes cmd s (fun t =>
          t.clk.inReset = true ∧ (∀ c, (t.ctx c).state = .free) ∧ (∀ r, (t.region r).state = .free)
            ∧ (∀ n, (t.pinna n).launch = none ∧ (t.pinna n).queue = []) ∧ (∀ l, (t.link l).phase = .down) ∧ t.tmb = {}
            ∧ t.role = 0 ∧ t.node = 0xFFFF ∧ t.thl.otp = s.thl.otp
            ∧ t.met.log = s.met.log
            ∧ (∀ k a, k < 12 → (t.stack k).mem.byte a = (s.stack k).mem.byte a)
            ∧ ∀ n a, n < 768 → (s.pinna n).vecList = [] → (t.pinna n).spad.byte a = (s.pinna n).spad.byte a)) ∧
    (s.clk.inReset = true → s.clk.resetAt + 200 ≤ s.ticks → s.ticks % 40 = 0 → s.clk.doms = [] →
      Completes .moduleResetRelease s (fun t =>
        t.clk.inReset = false ∧ t.clk.rstN = true ∧ t.clk.releasedAt = s.ticks ∧ ∀ p, p < s.layout → (t.part p).resetting = true))

/-- In every state with canonical tables: an admitted PARTITION_RESET marks the partition as resetting, and changes
nothing while it is; PARTITION_RESET_DONE of one that is resetting, served by a Thallus that can draw, gives every
stack of the partition one check key, ends the reset and leaves every byte of the stacks; behind other requests it
joins Thallus's queue and changes nothing else. An admitted CONTEXT_RESET, or one by a function-level reset of an
enabled VF, marks the context as resetting, unless it is, is torn down, or its partition is resetting: a register
write then changes nothing, and the function-level reset only the port; that reset always unlocks the VF's TDI.
CONTEXT_RESET_DONE, once no engine runs a descriptor of the context, ends the reset: a FAULTED context is ACTIVE
again, no command of it is left, and 0xA00C is raised unless it is torn down. -/
def Obligations.PartitionAndContextResetsBeginOnce : Prop :=
  ∀ s : State, s.tablesCanonical →
    (∀ r p value, bit value 0 = true → Admits s r (.prt p) Reg.PRT_RESET false →
      ((s.part p).resetting = false → Completes (.partitionReset r p value) s (fun t => (t.part p).resetting = true)) ∧
      ((s.part p).resetting = true → Completes (.partitionReset r p value) s (fun t => t = s))) ∧
    (∀ p, p < 4 → (s.part p).resetting = true → s.thl.stage = 1 → s.clk.inReset = false →
      (∀ s0, s.thl.trngOk = true → AtThallus s (.checkKeys p) s0 → Completes (.partitionResetDone p) s (fun t =>
        (t.part p).resetting = false ∧ (∃ key, ∀ k ∈ s.stacksIn p, (t.stack k).checkKey = key)
          ∧ (∀ k a, (t.stack k).mem.byte a = (s.stack k).mem.byte a)
          ∧ (∀ q, q ≠ p → t.part q = s.part q) ∧ t.thl.queue = s0.thl.queue)) ∧
      (s.thl.queue ≠ [] → s.thl.queue.head? ≠ some (.checkKeys p) → s.thl.queue.length < 64 →
        Completes (.partitionResetDone p) s (fun t => t = { s with thl := { s.thl with queue := s.thl.queue ++ [.checkKeys p] } }))) ∧
    (∀ r c value, bit value 0 = true → Admits s r (.ctx c) Reg.CTX_RESET false →
      ((s.ctx c).state = .teardown ∨ (s.ctx c).resetting = true ∨ (s.part (c / 8)).resetting = true →
        Completes (.contextReset (some r) c value) s (fun t => t = s)) ∧
      ((s.ctx c).state ≠ .teardown → (s.ctx c).resetting = false → (s.part (c / 8)).resetting = false →
        Completes (.contextReset (some r) c value) s (fun t => (t.ctx c).resetting = true ∧ (t.ctx c).jobs = []))) ∧
    (∀ c value, c < 32 → (s.port (s.portOfCtx c)).linkUp = true → s.vfUp (s.portOfCtx c) (c + 1) = true →
      SMap.wf {} (s.port (s.portOfCtx c)).tdis = true →
      Completes (.contextReset none c value) s (fun t =>
        SMap.get {} (t.port (s.portOfCtx c)).tdis (c + 1) = {} ∧
        ((s.ctx c).state = .teardown ∨ (s.ctx c).resetting = true ∨ (s.part (c / 8)).resetting = true →
          { t with ports := s.ports } = s) ∧
        ((s.ctx c).state ≠ .teardown → (s.ctx c).resetting = false → (s.part (c / 8)).resetting = false →
          (t.ctx c).resetting = true ∧ (t.ctx c).jobs = []))) ∧
    (∀ c, c < 32 → (s.ctx c).resetting = true → s.engineBusy c = false →
      Completes (.contextResetDone c) s (fun t =>
        (t.ctx c).resetting = false ∧ (t.ctx c).jobs = [] ∧ ((s.ctx c).state = .faulted → (t.ctx c).state = .active)
          ∧ ((s.ctx c).state ≠ .teardown → bit (t.word (.ctx c) 0x010) 10 = true)))

/-- In every state outside a Module reset whose Thallus has not run: THALLUS_BOOT locks the key ladder, has the TRNG work,
unwraps the root secret that OTP holds and leaves it there, or, in an interrupted first start whose secret fails to
unwrap, stops signing without ending that start; it starts the runtime, or, where no copy of image 1 verifies, stops
with FAULT_N low. RUNTIME_READY of a started runtime ends with the runtime ready, or stopped where an image has no
copy that verifies. IMAGE_DEST_READY of an awaited image with a staged copy leaves that copy running and the image no
longer awaited; IMAGE_READY_TIMEOUT, 500 ms after its start, leaves it rejected, and the image in its other copy with
the fallback noted. TRNG_HEALTH_FAIL stops the TRNG and raises class 9 on the THL page; TRNG_START_UP_TEST starts it
again; where a ready runtime lacks a nonce it is drawn now, and otherwise nothing else changes. -/
def Obligations.ThallusBootsOrStops : Prop :=
  ∀ s : State, s.clk.inReset = false → s.tablesCanonical →
    (s.thl.started = false → s.thl.stage = 0 →
      Completes .thallusBoot s (fun t =>
        t.thl.locked = true ∧ t.thl.trngOk = true ∧ t.clk.inReset = false
          ∧ (s.thl.firstDue = false → t.thl.otp.first = s.thl.otp.first ∧ t.thl.otp.secret = s.thl.otp.secret
              ∧ t.thl.rs = s.thl.otp.unwrap.getD [])
          ∧ (s.thl.firstDue = true → s.thl.otp.secret ≠ [] → s.thl.otp.unwrap = none →
              t.thl.signStopped = true ∧ t.thl.otp.first = false)
          ∧ t.thl.started = (s.romStart.choose 1 (s.romStart.bootOrder 1)).2.isSome
          ∧ t.thl.stage = (if (s.romStart.choose 1 (s.romStart.bootOrder 1)).2.isSome then 0 else 2)
          ∧ ((s.romStart.choose 1 (s.romStart.bootOrder 1)).2 = none → t.clk.faultHeld = true))) ∧
    (s.thl.started = true → s.thl.stage = 0 →
      Completes .runtimeReady s (fun t => (t.thl.stage = 1 ∧ t.clk.faultHeld = s.clk.faultHeld) ∨ (t.thl.stage = 2 ∧ t.clk.faultHeld = true))) ∧
    (∀ i c, 2 ≤ i → i ≤ 4 → s.thl.awaiting.contains i = true → s.stagedCopy i = some c → SMap.wf 0 s.thl.dir.states = true →
      SMap.wf [] s.thl.flash = true →
      Completes (.imageDestReady i) s (fun t => (t.img i c).state = 1 ∧ i ∉ t.thl.awaiting ∧ (t.img i (1 - c)).state ∈ [0, 3]) ∧
      (SMap.get 0 s.thl.startedAt i + 500 * msTicks ≤ s.ticks → Completes (.imageReadyTimeout i) s (fun t =>
        (t.img i c).state = 4 ∧ i ∉ t.thl.awaiting ∧ t.thl.fallback = i ∧ t.img i (1 - c) = s.img i (1 - c)))) ∧
    (∀ kind, (kind = 1 ∨ kind = 2) → s.thl.trngOk = true →
      Completes (.trngHealthFail kind) s (fun t => t.thl = { s.thl with trngOk := false } ∧ bit (t.word .thl 0x010) 9 = true)) ∧
    (s.thl.trngOk = false → s.thl.started = true →
      Completes .trngStartUpTest s (fun t => t.thl.trngOk = true ∧ t.thl.stage = s.thl.stage ∧
        (s.thl.stage = 1 → s.words .thl Reg.THL_BOOTNONCE 2 = 0 ∨ s.fabNonce = 0 → t.thl.drbg ≠ s.thl.drbg) ∧
        (s.thl.stage ≠ 1 ∨ (s.words .thl Reg.THL_BOOTNONCE 2 ≠ 0 ∧ s.fabNonce ≠ 0) →
          t = { s with thl := { s.thl with trngOk := true } })))

/-- In every state with canonical tables in which Thallus serves a mailbox's request: IDENTITY, KEY_UPDATE, FW_BEGIN,
FW_DATA, FW_END and ACTIVATE of the request's operation take it from the queue and mark the page done. IDENTITY
answers code 0, or 0x9010 where the response does not fit. A key update of a slot outside 1 to 5 answers 0x9007, fuses
nothing and writes no record. A legal begin with no transfer open opens one; with one open it answers 0x9009 and keeps
it. Data at the end of the port's open transfer are appended, other data answer 0x9009 and append nothing. An end of
the port's transfer closes it, and answers 0x9009, with the copy rejected, where bytes are missing. An activation of
an image but 2 answers 0; one of image 2 with a staged copy, and no interface that forbids it, makes it awaited. An
admitted MAILBOX_CANCEL takes the waiting request from the queue, or closes the port's transfer. -/
def Obligations.MailboxRequestsAreAnswered : Prop :=
  ∀ (s : State) (x op : Nat) (bs : List Byte), s.tablesCanonical →
    (Serves s x op bs →
      (∀ p ∈ [(Instr.identity x, 2), (.keyUpdate x, 3), (.fwBegin x, 4), (.fwData x, 5), (.fwEnd x, 6), (.activate x, 7)],
        op = p.2 → Completes p.1 s (fun t => Answered s x t)) ∧
      (op = 2 → Completes (.identity x) s (fun t =>
        t.mbxResult x = if s.mbxLen x < s.identityBytes.length then 0x9010 else 0)) ∧
      (op = 3 → byteAt bs 16 = 0 ∨ 5 < byteAt bs 16 → 528 ≤ bs.length →
        s.thl.fuseBad.contains (slotFuses (byteAt bs 16)) = false →
        Completes (.keyUpdate x) s (fun t => t.mbxResult x = 0x9007 ∧ t.thl.otp = s.thl.otp ∧ t.thl.dir = s.thl.dir ∧ t.met.records = s.met.records)) ∧
      (op = 4 → 1 ≤ byteAt bs 2 → byteAt bs 2 ≤ 4 → leNat (slice bs 4 4) ≤ imageSize (byteAt bs 2) →
        (s.thl.xfer = none → Completes (.fwBegin x) s (fun t =>
          t.mbxResult x = 0 ∧ t.thl.xfer = some { image := byteAt bs 2, path := some x, len := leNat (slice bs 4 4) })) ∧
        (s.thl.xfer ≠ none → Completes (.fwBegin x) s (fun t => t.mbxResult x = 0x9009 ∧ t.thl.xfer = s.thl.xfer))) ∧
      (∀ y, op = 5 → s.thl.xfer = some y → y.path = some x →
        (leNat (slice bs 4 4) = y.got.length → y.got.length + (bs.drop 16).length ≤ y.len →
          Completes (.fwData x) s (fun t => t.mbxResult x = 0 ∧ t.thl.xfer = some { y with got := y.got ++ bs.drop 16 })) ∧
        (leNat (slice bs 4 4) ≠ y.got.length →
          Completes (.fwData x) s (fun t => t.mbxResult x = 0x9009 ∧ t.thl.xfer = s.thl.xfer))) ∧
      (∀ y, op = 6 → s.thl.xfer = some y → y.path = some x → SMap.wf 0 s.thl.dir.states = true →
        Completes (.fwEnd x) s (fun t => t.thl.xfer = none ∧
          (y.got.length < y.len → t.mbxResult x = 0x9009 ∧ (t.img y.image (s.idleCopy y.image)).state = 4))) ∧
      (op = 7 →
        (byteAt bs 2 = 1 ∨ byteAt bs 2 = 3 ∨ byteAt bs 2 = 4 → Completes (.activate x) s (fun t =>
          t.mbxResult x = 0 ∧ t.thl.awaiting = s.thl.awaiting)) ∧
        (byteAt bs 2 = 2 → s.noFwUpdate = false → (s.stagedCopy 2).isSome = true → Completes (.activate x) s (fun t =>
          t.mbxResult x = 0 ∧ t.thl.live = true ∧ 2 ∈ t.thl.awaiting)))) ∧
    (∀ r value, x < 2 → bit value 1 = true → bit value 0 = false → Admits s r (.mbx x) Reg.THL_MBX_CTL false →
      (s.thl.queue.contains (.mailbox x) = true →
        Completes (.mailboxCancel r x value) s (fun t => t.thl.queue = s.thl.queue.erase (.mailbox x) ∧ t.thl.xfer = s.thl.xfer)) ∧
      (∀ y, s.thl.queue.contains (.mailbox x) = false → s.thl.xfer = some y → y.path = some x →
        Completes (.mailboxCancel r x value) s (fun t => t.thl.xfer = none ∧ t.thl.queue = s.thl.queue)))

/-- In every state with canonical tables while the DRBG serves: a fabric command of a message of its type, in a mailbox
request that Thallus serves or from the management controller when its turn has come, performs the message. One whose
block, device or nonce is wrong is answered 0x800D and changes neither role, node nor nonce. A good STANDBY gives role
1 where no context is in use, a good ADOPT from role 1 gives role 2 and the message's node, a good ACTIVATE from role
2 gives role 3; from another role each is refused and the role stays. An operator message that fails a check is
answered 0x9010 and changes neither the escalation policy nor the layout. -/
def Obligations.SignedMessagesNeedNonceAndSignature : Prop :=
  ∀ (s : State) (m : List Byte), s.tablesCanonical → s.thl.trngOk = true →
    (∀ src, (∃ x bs, src = .mailbox x ∧ Serves s x 9 bs ∧ m = bs.drop 16) ∨
            (src = .mc m ∧ ∃ s0, AtThallus s (.mc m) s0) →
      (∀ p ∈ [(Instr.fabricStandby src, 1), (.fabricAdopt src, 2), (.fabricActivate src, 3), (.fabricRoute src, 4), (.fabricRestore src, 5)],
        fabType m = p.2 → Completes p.1 s (fun t =>
          (s.fabricGood m = false → t.role = s.role ∧ t.node = s.node ∧ t.fabNonce = s.fabNonce
            ∧ ∀ x, src = .mailbox x → t.mbxResult x = 0x800D) ∧
          (p.2 = 4 ∨ p.2 = 5 → t.role = s.role))) ∧
      (fabType m = 1 → Completes (.fabricStandby src) s (fun t =>
        t.role = if s.fabricGood m = true ∧ s.usedCtxs = [] then 1 else s.role)) ∧
      (fabType m = 2 → Completes (.fabricAdopt src) s (fun t =>
        t.role = (if s.fabricGood m = true ∧ s.role = 1 then 2 else s.role)
          ∧ t.node = if s.fabricGood m = true ∧ s.role = 1 then fabNode m else s.node)) ∧
      (fabType m = 3 → Completes (.fabricActivate src) s (fun t =>
        t.role = if s.fabricGood m = true ∧ s.role = 2 then 3 else s.role))) ∧
    (∀ src, (∃ x bs, src = .mailbox x ∧ Serves s x 8 bs ∧ m = bs.drop 16) ∨
            (src = .mc m ∧ ∃ s0, AtThallus s (.mc m) s0) →
      ∀ cmd, (cmd = Instr.operatorEscPolicy src ∧ opType m ≠ 2) ∨ (cmd = Instr.operatorPartitionLayout src ∧ opType m = 2) →
        Completes cmd s (fun t =>
          s.operatorBad m ≠ 0 → t.escPolicy = s.escPolicy ∧ t.layout = s.layout ∧ t.portOf = s.portOf ∧ t.parts = s.parts
            ∧ ∀ x, src = .mailbox x → t.mbxResult x = 0x9010))

/-- In every state with canonical tables in which Thallus may sign: CALYPTRA of a mailbox's request of operation 1, or
from the management controller when its turn has come, begins the signing of the snapshot of the device with the
request's nonce and requester code. CALYPTRA_SIGNED of the snapshot in hand ends it: with fewer than two failed
self-checks the document with its block, made with the device's keys, goes to the requester, and two signatures are
counted; with two the signing stops for good and a mailbox is answered 0x9004. -/
def Obligations.CalyptraSnapshotIsSigned : Prop :=
  ∀ s : State, s.tablesCanonical →
    (∀ x bs, s.signRefusal = none → Serves s x 1 bs →
      Completes (.calyptra (.mailbox x)) s (fun t =>
        t.thl.signing = some ⟨.mailbox x, (s.mbxTake x).calyptra (0xFFFE + x) (slice bs 16 32), s.ticks⟩
          ∧ t.thl.queue = s.thl.queue.erase (.mailbox x))) ∧
    (∀ m s0, s.signRefusal = none → AtThallus s (.mc m) s0 →
      Completes (.calyptra (.mc m)) s (fun t =>
        t = { s0 with thl := { s0.thl with signing := some ⟨.mc m, s0.calyptra 0xFFFD m, s.ticks⟩ } })) ∧
    (∀ g failures, s.thl.signing = some g →
      Completes (.calyptraSigned failures) s (fun t =>
        t.thl.signing = none ∧ t.thl.signStopped = (s.thl.signStopped || decide (2 ≤ failures)) ∧
        (failures < 2 → ∃ (u : State) (block : List Byte), u.thl.idKey = s.thl.idKey ∧ u.thl.keys = s.thl.keys
          ∧ block = (u.ownBlock 6 g.doc).2 ∧ t.word .thl 0x054 = min (s.word .thl 0x054 + 2) 0xFFFFFFFF ∧
          (∀ m, g.src = .mc m → Out.mctp (g.doc ++ block) ∈ t.out) ∧
          (∀ x, g.src = .mailbox x → t.mbxResult x = if s.mbxLen x < (g.doc ++ block).length then 0x9010 else 0)) ∧
        (2 ≤ failures → ∀ x, g.src = .mailbox x → t.mbxResult x = 0x9004)))

/-- In every state with canonical tables in which a responder can answer a request: every SPDM command of its code ends
with one message on the connection. GET_VERSION begins the connection anew without sessions, GET_CAPABILITIES after it
and NEGOTIATE_ALGORITHMS with RSASSA-3072 and SHA-384 take the next stages. KEY_EXCHANGE with 8 sessions open opens
none. FINISH of a session whose handshake is open, long enough, establishes it or ends it. KEY_UPDATE of a legal
operation keeps the session established, HEARTBEAT leaves every session, END_SESSION of an established session ends
it. While the runtime is not ready, each is answered that it is not ready, and no session changes. -/
def Obligations.SpdmRequestsAreAnswered : Prop :=
  ∀ (s : State) (x id : Nat) (m : List Byte), s.tablesCanonical →
    (∀ chain keys, ∀ p ∈ [(Instr.getMeasurements x m, 0xE0), (.getVersion x m, 0x84), (.getCapabilities x m, 0xE1),
        (.negotiateAlgorithms x m, 0xE3), (.getDigests x m, 0x81), (.getCertificate x m, 0x82), (.challenge x m, 0x83),
        (.keyExchange x m, 0xE4), (.finish x id m chain keys, 0xE5), (.spdmKeyUpdate x id m, 0xE9), (.heartbeat x id m, 0xE8),
        (.endSession x id m, 0xEC), (.chunkSend x m, 0x85), (.chunkGet x m, 0x86), (.vendorDefinedRequest x id m, 0xFE)],
      (Responds s x p.2 m → Completes p.1 s (fun t => ∃ r, t.out.getLast? = some (spdmOut x r))) ∧
      (x < 3 → spdmCode m = p.2 → s.spdmPath x = true → s.thl.stage ≠ 1 →
        Completes p.1 s (fun t => t.spdm x = s.spdm x ∧ ∃ r, t.out = s.out ++ [spdmOut x r] ∧ spdmCode r = 0x7F ∧ param1 r = 0x42))) ∧
    (Responds s x 0x84 m → 4 ≤ m.length →
      Completes (.getVersion x m) s (fun t => (t.spdm x).stage = 1 ∧ (t.spdm x).sessions = [])) ∧
    (Responds s x 0xE1 m → (s.spdm x).stage = 1 → 20 ≤ m.length →
      Completes (.getCapabilities x m) s (fun t => (t.spdm x).stage = 2 ∧ (t.spdm x).transfer = leNat (slice m 12 4))) ∧
    (Responds s x 0xE3 m → (s.spdm x).stage = 2 → 32 ≤ m.length → bit (leNat (slice m 8 4)) 2 = true →
      bit (leNat (slice m 12 4)) 1 = true → Completes (.negotiateAlgorithms x m) s (fun t => (t.spdm x).stage = 3)) ∧
    (Responds s x 0xE4 m → 8 ≤ (s.spdm x).sessions.length →
      Completes (.keyExchange x m) s (fun t => (t.spdm x).sessions = (s.spdm x).sessions)) ∧
    (SMap.wf none (s.spdm x).sessions = true → ∀ y, (s.spdm x).session id = some y →
      (∀ chain keys, Responds s x 0xE5 m → y.established = false → 436 ≤ m.length →
        Completes (.finish x id m chain keys) s (fun t =>
          (t.spdm x).session id = none ∨ ∃ z, (t.spdm x).session id = some z ∧ z.established = true)) ∧
      (y.established = true →
        (Responds s x 0xE9 m → 4 ≤ m.length → 1 ≤ param1 m → param1 m ≤ 3 →
          Completes (.spdmKeyUpdate x id m) s (fun t =>
            (t.spdm x).session id = some { y with updates := y.updates + if param1 m = 3 then 0 else 1 })) ∧
        (Responds s x 0xE8 m → Completes (.heartbeat x id m) s (fun t => (t.spdm x).sessions = (s.spdm x).sessions)) ∧
        (Responds s x 0xEC m → Completes (.endSession x id m) s (fun t => (t.spdm x).session id = none))))

/-- In every state with canonical tables, in an open session of a port: IDE_KM_KEY_PROG stores a legal key, a K_SET_GO of
a complete key set makes the stream Secure, and a K_SET_STOP clears it. IDE_INTEGRITY_FAIL of a Secure stream makes it
Insecure, raises the alarm 0xD006, counts it, and puts the stream's TDI in ERROR. For a TDI of an enabled VF:
LOCK_INTERFACE takes an unlocked one to CONFIG_LOCKED with the session and a nonce of 32 bytes; START_INTERFACE by
that session takes it to RUN with that nonce and leaves it with another; STOP_INTERFACE takes one that is locked or
runs to ERROR, and another to CONFIG_UNLOCKED; GET_DEVICE_INTERFACE_STATE and GET_DEVICE_INTERFACE_REPORT send one
message and change nothing else. -/
def Obligations.InterfacesAreKeyedLockedAndRun : Prop :=
  ∀ (s : State) (x id : Nat) (m : List Byte), s.tablesCanonical →
    (SessionOpen s x id → SMap.wf {} (s.port x).ide = true → ∀ i, i = leNat (slice m 3 1) → i ≤ 32 →
      (leNat (slice m 0 1) = 2 → m.length = 47 → leNat (slice m 6 1) = 0 →
        (keySet (leNat (slice m 5 1) % 2)).contains (leNat (slice m 5 1)) = true → SMap.wf [] ((s.port x).stream i).keys = true →
        Completes (.ideKmKeyProg x id m) s (fun t =>
          SMap.get [] ((t.port x).stream i).keys (leNat (slice m 5 1)) = slice m 7 40)) ∧
      (leNat (slice m 0 1) = 4 →
        (keySet (leNat (slice m 5 1) % 2)).all (fun k => SMap.get [] ((s.port x).stream i).keys k != []) = true →
        Completes (.ideKmKeyProg x id m) s (fun t => ((t.port x).stream i).secure = true)) ∧
      (leNat (slice m 0 1) = 5 → Completes (.ideKmKeyProg x id m) s (fun t => (t.port x).stream i = {}))) ∧
    (∀ i, x < 2 → i ≤ 32 → (s.port x).linkUp = true → ((s.port x).stream i).secure = true →
      SMap.wf {} (s.port x).ide = true → SMap.wf {} (s.port x).tdis = true →
      Completes (.ideIntegrityFail x i) s (fun t =>
        ((t.port x).stream i).secure = false ∧ ((t.port x).stream i).insecure = true ∧ bit (t.word (.hif x) 0x010) 16 = true
          ∧ t.word (.hif x) (hifCounter 2) = min (s.word (.hif x) (hifCounter 2) + 1) 0xFFFFFFFF
          ∧ (i ≠ 0 → ((t.port x).tdi i).state = .error))) ∧
    (∀ v, SessionOpen s x id → SMap.wf {} (s.port x).tdis = true → v = tdispFn m → 1 ≤ v → v ≤ (s.port x).numVfs →
      (s.port x).vfEn = true → leNat (slice m 0 1) = 0x10 →
      (leNat (slice m 1 1) = 0x83 → 36 ≤ m.length → ((s.port x).tdi v).state = .unlocked → s.thl.trngOk = true →
        Completes (.lockInterface x id m) s (fun t =>
          ((t.port x).tdi v).state = .locked ∧ ((t.port x).tdi v).session = id ∧ ((t.port x).tdi v).nonce.length = 32)) ∧
      (leNat (slice m 1 1) = 0x86 → 48 ≤ m.length → ((s.port x).tdi v).state = .locked → ((s.port x).tdi v).session = id →
        Completes (.startInterface x id m) s (fun t =>
          ((t.port x).tdi v).state = if slice m 16 32 = ((s.port x).tdi v).nonce then .run else .locked)) ∧
      (leNat (slice m 1 1) = 0x87 →
        Completes (.stopInterface x id m) s (fun t =>
          ((t.port x).tdi v).state = (if s.tdiHeld x v then .error else .unlocked)
            ∧ ∀ w, w ≠ v → (t.port x).tdi w = (s.port x).tdi w)) ∧
      (leNat (slice m 1 1) = 0x85 →
        Completes (.getDeviceInterfaceState x id m) s (fun t =>
          t = { s with out := s.out ++ [.spdm x (tdispHead 0x05 m ++ leBytes 1 ((s.port x).tdi v).state.code)] })) ∧
      (leNat (slice m 1 1) = 0x84 →
        Completes (.getDeviceInterfaceReport x id m) s (fun t => ∃ r, t = { s with out := s.out ++ [.spdm x r] })))

/-- In every state with canonical tables in which Thallus serves a request of a partition's page: CTX_CREATE of a legal
block for a FREE context of a partition without a parked die, in a role that takes contexts, answers 0 and leaves it
ACTIVE with the Prothallus bit of the block; for one that is not FREE, or in another role, it answers 0xA002, reason
1. JOINT_CREATE of a legal block for such a context, with room in the directory, leaves it ACTIVE exactly where its
document passes the checks, and answers 0xA006 with the reason where it does not. A SLOT_BIND that nothing forbids
waits for the peer with its request outstanding; one that is forbidden answers 0xA002 with the reason and leaves the
links. A SLOT_UNBIND of a slot bound to the context answers 0 and unbinds it. A RELEASE_GRANT for an ACTIVE context
that is not joint answers 0 exactly where its document is accepted, and 0xA002, reason 5, elsewhere. A
POLICY_KEY_TRANSFER by a member gives the context its policy key. -/
def Obligations.ContextsAndSlotsAreGrantedOnRequest : Prop :=
  ∀ (s : State) (p c : Nat) (bs : List Byte), s.tablesCanonical → c = 8 * p + byteAt bs 1 →
    (Requests s p 1 bs → byteAt bs 1 < 8 → byteAt bs 2 < 2 → restZero bs [(0, 2), (16, 63)] = true →
      ((s.ctx c).state = .free → s.dieParked p = false → s.takesContexts = true →
        Completes (.ctxCreate p) s (fun t =>
          t.reqResult p = (0, 0) ∧ (t.ctx c).state = .active ∧ (t.ctx c).proth = bit (byteAt bs 2) 0 ∧ (t.ctx c).joint = false)) ∧
      ((s.ctx c).state ≠ .free ∨ s.takesContexts = false →
        Completes (.ctxCreate p) s (fun t => t.reqResult p = (0xA002, 1) ∧ t.ctx c = s.ctx c))) ∧
    (Requests s p 2 bs → byteAt bs 1 < 8 → byteAt bs 2 < 2 → restZero bs [(0, 2), (8, 19)] = true → (s.ctx c).state = .free →
      s.dieParked p = false → s.takesContexts = true → s.thl.trngOk = true → s.policyDigests.length < 1024 →
      Completes (.jointCreate p) s (fun t =>
        ((t.ctx c).state = .active ↔ s.polBad (s.reqDoc p bs) = none) ∧
        (∀ why, s.polBad (s.reqDoc p bs) = some why → why.1 < 256 → t.reqResult p = (0xA006, why.1)))) ∧
    (Requests s p 7 bs →
      (s.bindBad p bs = none → (s.link (byteAt bs 2)).canonical →
        Completes (.slotBind p) s (fun t =>
          (∃ w, SMap.get none (t.link (byteAt bs 2)).waits (byteAt bs 3) = some w ∧ w.page = some p ∧ w.ctx = c
            ∧ w.fsid = leNat (slice bs 4 4)) ∧ (t.part p).reqBusy = true)) ∧
      (∀ why, s.bindBad p bs = some why →
        Completes (.slotBind p) s (fun t => t.reqResult p = (0xA002, why) ∧ t.links = s.links))) ∧
    (Requests s p 8 bs → byteAt bs 1 < 8 → byteAt bs 2 < 16 → 1 ≤ byteAt bs 3 → byteAt bs 3 ≤ 8 →
      restZero bs [(0, 3)] = true → ((s.link (byteAt bs 2)).slot (byteAt bs 3)).bound = true →
      ((s.link (byteAt bs 2)).slot (byteAt bs 3)).ctx = c → (s.link (byteAt bs 2)).canonical →
      Completes (.slotUnbind p) s (fun t =>
        t.reqResult p = (0, 0) ∧ ((t.link (byteAt bs 2)).slot (byteAt bs 3)).bound = false)) ∧
    (Requests s p 9 bs → byteAt bs 1 < 8 → restZero bs [(0, 1), (8, 19)] = true → (s.ctx c).state = .active →
      (s.ctx c).joint = false →
      Completes (.releaseGrant p) s (fun t =>
        t.reqResult p = if s.grantOk c (s.reqDoc p bs) then (0, 0) else (0xA002, 5))) ∧
    (∀ l y s0, l < 16 → c < 32 → AtThallus s (.policyKey l c) s0 → (s.ctx c).policy = some y → (s.ctx c).policyKey = none → (s.link l).phase = .up →
      y.members.contains (s.link l).peerId = true →
      Completes (.policyKeyTransfer l c) s (fun t => (t.ctx c).policyKey.isSome = true ∧ (t.ctx c).state = (s.ctx c).state))

/-- In every state with canonical tables in which Thallus serves a request of a partition's page and can draw: a
REGION_CREATE that nothing forbids answers 0 and leaves the region INIT with a fresh epoch, its owner, and a sweep in
each of its stacks; one that is forbidden answers 0x700A with the reason and leaves the regions. A REGION_REKEY of an
ACTIVE region leaves it in REKEY with a fresh epoch, keys of it in each of its stacks, the old ones kept, and b at the
base. A REGION_DESTROY leaves the region FREE, or ZEROING where its block asks for zeroing. A TEARDOWN of a context
that is neither FREE nor torn down stops its commands and keeps the request in service. TEARDOWN_RETIRE_DESTROY, once
no engine works for the context, leaves it no live region but those being zeroed, and no slot; TEARDOWN_RELEASE, once
none is, leaves it FREE with 0xA004 raised. -/
def Obligations.RegionsAndTeardownsFollowRequests : Prop :=
  ∀ (s : State) (p c r : Nat) (bs : List Byte), s.tablesCanonical →
    (s.thl.trngOk = true → c = 8 * p + byteAt bs 1 → r = byteAt bs 2 →
      (Requests s p 4 bs →
        (s.createBad p bs = none →
          Completes (.regionCreate p) s (fun t =>
            t.reqResult p = (0, 0) ∧ (t.region r).state = .init ∧ (t.region r).owner = c
              ∧ (t.region r).epoch = s.word .rgn Reg.MPE_EPOCH_NEXT
              ∧ t.word .rgn Reg.MPE_EPOCH_NEXT = (s.word .rgn Reg.MPE_EPOCH_NEXT + 1) % 2 ^ 32
              ∧ ∀ k ∈ (t.region r).stackList, (t.stack k).sweeps = (s.stack k).sweeps ++ [{ region := r, kind := .init }])) ∧
        (∀ why, s.createBad p bs = some why →
          Completes (.regionCreate p) s (fun t => t.reqResult p = (0x700A, why) ∧ t.regions = s.regions))) ∧
      (Requests s p 5 bs → s.rgnBad p bs 2 (fun x => x == .active) = none →
        Completes (.regionRekey p) s (fun t =>
          t.reqResult p = (0, 0) ∧ (t.region r).state = .rekey ∧ (t.region r).epoch = s.word .rgn Reg.MPE_EPOCH_NEXT
            ∧ ∀ k ∈ (s.region r).stackList, ((t.stack k).keySlot r).old = some ((s.stack k).keySlot r).cur
              ∧ ((t.stack k).keySlot r).bound = (s.region r).base * unitLines
              ∧ ((t.stack k).keySlot r).cur.epoch = s.word .rgn Reg.MPE_EPOCH_NEXT)) ∧
      (Requests s p 6 bs → byteAt bs 3 < 2 → s.rgnBad p bs 3 (fun x => x != .free) = none →
        Completes (.regionDestroy p) s (fun t =>
          t.reqResult p = (0, 0) ∧ (t.region r).state = (if bit (byteAt bs 3) 0 then .zeroing else .free)
            ∧ ∀ q, q ≠ r → t.region q = s.region q)) ∧
      (Requests s p 3 bs → byteAt bs 1 < 8 → byteAt bs 2 < 2 → restZero bs [(0, 2)] = true →
        (s.ctx c).state = .active ∨ (s.ctx c).state = .faulted →
        Completes (.teardown p) s (fun t =>
          (t.ctx c).state = .teardown ∧ (t.ctx c).teardown = .stopping ∧ (t.ctx c).jobs = [] ∧ (t.part p).request = some bs))) ∧
    (c < 32 →
      ((s.ctx c).teardown = .stopping → s.engineBusy c = false → (∀ l, (s.link l).canonical) →
        Completes (.teardownRetireDestroy c) s (fun t =>
          (t.ctx c).teardown = .destroyed ∧ t.unslotted c
            ∧ ∀ q, q < 64 → (t.region q).owner = c → (t.region q).state = .free ∨ (t.region q).state = .zeroing)) ∧
      ((s.ctx c).teardown = .destroyed → (∀ q, q < 64 → (s.region q).owner = c → (s.region q).state ≠ .zeroing) →
        Completes (.teardownRelease c) s (fun t =>
          (t.ctx c).state = .free ∧ (t.ctx c).owners = [] ∧ (t.ctx c).policyKey = none ∧ bit (t.word (.ctx c) 0x010) 10 = true)))

/-- In every state with canonical tables, for a doorbell of 4 bytes of an ACTIVE context's function: SQ_DOORBELL whose
tail stands 1 to size − 1 − waiting entries behind the old one sets the tail, another one leaves the context FAULTED
with reason 1; CQ_HEAD_RETURN that returns no more records than are written sets the head, another one leaves the
context FAULTED. COMMAND_START takes the next queue of the rotation and moves the rotation behind it: an entry that
cannot be read leaves the context FAULTED with reason 2; a legal entry of a context that is not replayed moves the
head by one and is a started command with the next number; an illegal one leaves no started command and marks 0xA00A
on the context's page, unless a security alarm of its own accesses halted the partition. -/
def Obligations.QueuesMoveByDoorbellsAndStarts : Prop :=
  ∀ s : State, s.tablesCanonical →
    (∀ x fn ide c q n d m value, q < 4 → value < 4096 → Rings s x fn ide c (sqOff q) → n = s.qSize c (sqOff q) →
      s.qTail c (sqOff q) < n → s.qHead c (sqOff q) < n →
      d = (value + n - s.qTail c (sqOff q)) % n → m = n - 1 - (s.qTail c (sqOff q) + n - s.qHead c (sqOff q)) % n →
      (value < n → 1 ≤ d → d ≤ m →
        Completes (.sqDoorbell (.host x fn ide) c q 4 value) s (fun t =>
          t.qTail c (sqOff q) = value ∧ { t with regs := s.regs } = s)) ∧
      (n ≤ value ∨ d = 0 ∨ m < d →
        Completes (.sqDoorbell (.host x fn ide) c q 4 value) s (fun t =>
          (t.ctx c).state = .faulted ∧ (t.ctx c).reason = 1 ∧ t.qTail c (sqOff q) = s.qTail c (sqOff q)))) ∧
    (∀ x fn ide c n value, value < 4096 → Rings s x fn ide c Reg.CTX_CQ → n = s.qSize c Reg.CTX_CQ →
      s.qHead c Reg.CTX_CQ < n →
      (value < n → (value + n - s.qHead c Reg.CTX_CQ) % n ≤ s.cqUsed c →
        Completes (.cqHeadReturn (.host x fn ide) c 4 value) s (fun t => t.qHead c Reg.CTX_CQ = value)) ∧
      (n ≤ value ∨ s.cqUsed c < (value + n - s.qHead c Reg.CTX_CQ) % n →
        Completes (.cqHeadReturn (.host x fn ide) c 4 value) s (fun t =>
          (t.ctx c).state = .faulted ∧ (t.ctx c).reason = 1 ∧ t.qHead c Reg.CTX_CQ = s.qHead c Reg.CTX_CQ))) ∧
    (∀ p c q, p < 4 → s.nextStart p = some (c, q) →
      Completes (.commandStart p) s (fun t => (t.part p).turn = (c + 1) % 8 ∧ (t.ctx c).turn = (q + 1) % 4) ∧
      (∀ s2, (s.turned p c q).readEntry c q = (s2, none) →
        Completes (.commandStart p) s (fun t => (t.ctx c).state = .faulted ∧ (t.ctx c).reason = 2)) ∧
      (∀ s2 e, (s.turned p c q).readEntry c q = (s2, some e) →
        (s2.entryLegal c e = true → s2.capMode c ≠ 2 →
          Completes (.commandStart p) s (fun t =>
            t.qHead c (sqOff q) = (s.qHead c (sqOff q) + 1) % s.qSize c (sqOff q) % 4096 ∧ t.nextJob = s2.nextJob + 1
              ∧ ∃ j : Job, (t.ctx c).jobs = (s2.ctx c).jobs ++ [j] ∧ j.id = s2.nextJob ∧ j.queue = q ∧ j.entry = e)) ∧
        (s2.entryLegal c e = false → s2.capMode c ≠ 2 →
          Completes (.commandStart p) s (fun t =>
            t.haltedPart (c / 8) = false → Ended t c s2.nextJob ∧ bit (t.word (.ctx c) 0x010) 10 = true))))

/-- In every state with canonical tables, for a started command of a context whose partition is not halted, where no
security alarm of its own accesses halts the partition (R310): LAUNCH whose image can be read, of a context that is
not joint, leaves every pinna it names running at word 0 with the image and no queue; in a joint context an image that
the policy does not list ends the command with 0xA007. LAUNCH_COMPLETE ends a LAUNCH whose pinnae have all stopped.
DMA whose descriptors cannot be read, or that would carry a joint context's data out against its rules, ends; another
one begins, with its first descriptor in its engine's queue where no earlier command feeds it; CSE whose requests can
be read puts its run at the end of its frond's list. FENCE, with no accumulate of its queues on its way, and
SIGNAL_WRITE end once no command they wait for is left; SIGNAL_WAIT, 1 µs after the last poll, ends where the value in
memory is at least its own, and waits otherwise; SIGNAL_TIMEOUT once the wait's timeout has passed ends it with class
10 marked on the context's page. CAPTURE_MARK ends. -/
def Obligations.StartedCommandsRunAndEnd : Prop :=
  ∀ (s : State) (id c : Nat) (j : Job), s.tablesCanonical →
    (Started s id 1 c j →
      (∀ s1 image n, j.begun = false →
        s.readSpace { ctx := c } (bits (qword j.entry 2) 46 44) (bits (qword j.entry 2) 43 0)
          (8 * (bits (qword j.entry 2) 60 48 + 1)) = (s1, some image) →
        ((s1.ctx c).joint = false → n ∈ j.named → s1.pinnae = s.pinnae →
          Completes (.launch id) s (fun t =>
            (t.pinna n).seq = .running ∧ (t.pinna n).pc = 0 ∧ (t.pinna n).queue = [] ∧ (t.pinna n).halted = false
              ∧ (t.pinna n).launch = some ⟨j.id, c, entrySeed j.entry, (s1.ctx c).proth⟩
              ∧ (8 ≤ image.length → SMap.get 0#64 (t.pinna n).imem 0 = BitVec.ofNat 64 (leNat (image.take 8)))
              ∧ (t.pinna n).spad = (s.pinna n).spad)) ∧
        ((s1.ctx c).joint = true →
          (∀ y, (s1.ctx c).policy = some y → y.programs.contains (sha384 image) = false) → j.id = id →
          Completes (.launch id) s (fun t => t.pinnae = s1.pinnae
            ∧ (t.haltedPart (c / 8) = false → Ended t c id ∧ bit (t.word (.ctx c) 0x010) 10 = true)))) ∧
      (j.begun = true → j.pinnae = [] → j.id = id → Completes (.launchComplete id) s (fun t => Ended t c id))) ∧
    (∀ e s1 got, Started s id 2 c j → j.begun = false → j.id = id → e = entryEngineId j.entry → (s.engine e).queue.length < 32 →
      s.readSpace { ctx := c, frond := e.frond? } (bits (qword j.entry 2) 46 44) (bits (qword j.entry 2) 43 0)
        (64 * (bits (qword j.entry 3) 7 0 + 1)) = (s1, got) → findJob (s1.ctx c).jobs id = some j →
      (got = none → Completes (.dma id) s (fun t => EndsUnlessHalted t c id)) ∧
      (∀ bs j1, got = some bs →
        j1 = { j with begun := true, descs := groupsOf 64 (bits (qword j.entry 3) 7 0 + 2) bs, descAddr := bits (qword j.entry 2) 43 0 } →
        ((s1.ctx c).joint = true → j1.descs.all (fun d => s1.exportOk c (bits (qword j.entry 3) 9 8) (bits (qword j.entry 3) 13 10)
            (Desc.ofBytes d)) = false → Completes (.dma id) s (fun t => EndsUnlessHalted t c id)) ∧
        ((s1.ctx c).joint = false ∨ j1.descs.all (fun d => s1.exportOk c (bits (qword j.entry 3) 9 8) (bits (qword j.entry 3) 13 10)
            (Desc.ofBytes d)) = true → Completes (.dma id) s (fun t =>
          (∃ k, findJob (t.ctx c).jobs id = some { j1 with nextDesc := k }) ∧
          (s1.feeder e = none → j.nextDesc = 0 → 0 < j1.descs.length → (s1.engine e).queue.length < 32 →
            ∃ rest, (t.engine e).queue = (s1.engine e).queue ++ s1.jobQDesc c j1 0 :: rest))))) ∧
    (∀ s1 bs f, Started s id 5 c j → j.begun = false → f = (entryEngine j.entry).1 →
      s.readSpace { ctx := c, frond := some f } (bits (qword j.entry 2) 46 44) (bits (qword j.entry 2) 43 0)
        (64 * (bits (qword j.entry 3) 15 0 + 1)) = (s1, some bs) → SMap.wf {} s1.fronds = true →
      Completes (.cse id) s (fun t => ∃ r : CseRun, (t.frond f).cse = (s1.frond f).cse ++ [r] ∧ r.job = j.id ∧ r.ctx = c
        ∧ r.reqs = groupsOf 64 (bits (qword j.entry 3) 15 0 + 2) bs)) ∧
    (Started s id 6 c j → j.waitFor = [] → j.id = id → s.accumulating c (qword j.entry 2) = false →
      Completes (.fence id) s (fun t => Ended t c id ∧ (t.ctx c).jobs.map Job.id = ((s.ctx c).jobs.map Job.id).filter (· ≠ id))) ∧
    (Started s id 7 c j → j.id = id →
      (j.waitFor = [] → bit (qword j.entry 2) 48 = false → Completes (.signalWrite id) s (fun t => EndsUnlessHalted t c id)) ∧
      (∀ s1 bs, j.waitFor = [] → bit (qword j.entry 2) 48 = true → s.rateOpen (pollKey id) usTicks = true →
        s.readSpace { ctx := c } (signalAt j).1 (signalAt j).2 8 = (s1, some bs) →
        (qword j.entry 3 ≤ leNat bs → Completes (.signalWait id) s (fun t => EndsUnlessHalted t c id)) ∧
        (leNat bs < qword j.entry 3 → findJob (s1.ctx c).jobs id = some j →
          Completes (.signalWait id) s (fun t => findJob (t.ctx c).jobs id = some { j with waits := true, since := if j.waits then j.since else s.ticks }))) ∧
      (j.waits = true → qword j.entry 4 ≠ 0 → j.since + usTicks * qword j.entry 4 ≤ s.ticks →
        Completes (.signalTimeout id) s (fun t => Ended t c id ∧ bit (t.word (.ctx c) 0x010) 10 = true))) ∧
    (Started s id 8 c j → j.id = id → Completes (.captureMark id) s (fun t => EndsUnlessHalted t c id))

/-- In every state with canonical tables, for a requester whose accesses are not refused: a REGISTER_WRITE of another size
or alignment changes no word at 0x040 and above but the port's counters, and a REGISTER_READ so answers all ones. A
read of a page that a host cannot reach answers 0, and a write of 4 bytes there changes no word of that page, but the
count of lost events of CLK, if it is not the port's own. A read of 4 bytes at an offset that no table defines, below
the windows, answers 0. EVT_MASK_WRITE sets the mask to the low 17 bits written. EVT_STS_WRITE in a cycle without an
event clears exactly the bits written as 1. The first PAGE_CTL_LOCK through a requester that may write the lock sets
it and later ones leave it. A host's REGISTER_WRITE to a word of RW fields alone at 0x040 or above of a locked page
leaves the word, but for that count, and raises 0xD002 within its limit; the same write of HIF_DMA_DONE of an unlocked
page sets it and nothing else. -/
def Obligations.RegisterAccessesFollowTheHeaderRules : Prop :=
  ∀ (s : State) (r : Requester) (pg : Page), s.tablesCanonical →
    (∀ off len value, pg.exists = true → s.canAsk r = true → s.tdiRefuses r = false →
      ((len ≠ 4 ∧ len ≠ 8) ∨ off % len ≠ 0 →
        Completes (.registerWrite r pg off len value) s (fun t =>
          { t with regs := [], ports := [], out := [], log := {}, rate := [] } = s.silent
            ∧ ∀ q o, 0x80 ≤ o → o < 0x1000 → t.word q o = s.word q o) ∧
        Completes (.registerRead r pg off len) s (fun t => t.out.getLast? = some (.readData r (2 ^ (8 * len) - 1))))) ∧
    (∀ x fn ide off value, r = .host x fn ide → pg.exists = true → s.canAsk r = true → s.tdiRefuses r = false → off % 4 = 0 →
      s.reaches r pg = false →
      Completes (.registerRead r pg off 4) s (fun t =>
        t.out.getLast? = some (.readData r 0)
          ∧ t.word (.hif x) (hifCounter 4) = min (s.word (.hif x) (hifCounter 4) + 1) 0xFFFFFFFF) ∧
      Completes (.registerWrite r pg off 4 value) s (fun t => { t with regs := [], ports := [], out := [], log := {}, rate := [] } = s.silent
        ∧ (pg ≠ .hif x → ∀ o, o < 0x1000 → (pg = .clk → o ≠ 0x064) → t.word pg o = s.word pg o))) ∧
    (Reaches s r pg →
      (∀ off, pg.kind ≠ .window → off % 4 = 0 → pg.kind.word off = [] →
        Completes (.registerRead r pg off 4) s (fun t => t = s.emit (.readData r 0))) ∧
      (∀ value, pg.kind ≠ .window → s.mayWrite r pg 0x014 = true →
        Completes (.evtMaskWrite r pg value) s (fun t => t.wordAt pg (s.copyFor r pg) 0x014 % 2 ^ 17 = value % 2 ^ 17)) ∧
      (∀ value, pg.kind ≠ .window → s.mayWrite r pg 0x010 = true → s.setNow pg (s.copyFor r pg) 0x010 = 0 →
        Completes (.evtStsWrite r pg value) s (fun t => ∀ i, i < 32 →
          bit (t.wordAt pg (s.copyFor r pg) 0x010) i =
            (bit (s.wordAt pg (s.copyFor r pg) 0x010) i && !((decide (1 ≤ i ∧ i ≤ 14) || i == 16) && bit value i)))) ∧
      (∀ value, pg.kind ≠ .window → s.mayWrite r pg 0x008 = true → s.writesLock r pg = true →
        (pg.id ∈ s.wlDone → Completes (.pageCtlLock r pg value) s (fun t => t.lockOf pg = s.lockOf pg ∧ t.wlDone = s.wlDone)) ∧
        (pg.id ∉ s.wlDone → Completes (.pageCtlLock r pg value) s (fun t => t.lockOf pg = bit value 1 ∧ pg.id ∈ t.wlDone))) ∧
      (∀ x fn ide off value, r = .host x fn ide → pg.kind ≠ .window → s.lockOf pg = true → 0x40 ≤ off → off < 0x1000 → off % 4 = 0 → (pg = .clk → off ≠ 0x064) →
        s.mayWrite r pg off = true → s.heldVf pg off = none → pg.kind.word off ≠ [] → (∀ f ∈ pg.kind.word off, f.acc = .rw) →
        Completes (.registerWrite r pg off 4 value) s (fun t => t.word pg off = s.word pg off ∧
          (s.rateOpen (0xD002 * 2 ^ 40 + (Page.hif x).id * 2 ^ 20 + fn) msTicks = true → bit (t.word (.hif x) 0x010) 13 = true))) ∧
      (∀ x value, pg = .hif x → s.mayWrite r pg 0x04C = true → s.lockBinds r pg = false →
        Completes (.registerWrite r pg 0x04C 4 value) s (fun t => t.word pg 0x04C = value % 2 ^ 32 ∧ OnlyPage pg s t
          ∧ ∀ o, o % 4 = 0 → o ≠ 0x04C → o < 0x1000 → t.word pg o = s.word pg o)))

/-- In every state with canonical tables, for a requester that reaches the mirror window of a context: a read of 4 bytes
answers the fabric page's word at the same offset where that is one of the context's four, and zero elsewhere; a write
of 4 bytes with the lock not binding sets the RW fields of such a word and leaves the other bits, and elsewhere
changes nothing at all. -/
def Obligations.MirrorWindowsShowTheirOwnWords : Prop :=
  ∀ (s : State) (r : Requester) (c off value : Nat), s.tablesCanonical → Reaches s r (.mirror c) → off % 4 = 0 → off < 0x1000 →
    Completes (.registerRead r (.mirror c) off 4) s (fun t =>
      t = s.emit (.readData r (if 0x400 + 16 * c ≤ off ∧ off < 0x400 + 16 * c + 16 then s.word .fabric off else 0))) ∧
    (s.lockBinds r .fabric = false → s.mayWrite r (.mirror c) off = true →
      (0x400 + 16 * c ≤ off → off < 0x400 + 16 * c + 16 →
        Completes (.registerWrite r (.mirror c) off 4 value) s (fun t =>
          (∀ i, i < 32 → bit (t.word .fabric off) i =
            if (PageKind.fabric.word off).any (fun f => decide (f.lo ≤ i ∧ i ≤ f.hi)) then bit value i else bit (s.word .fabric off) i)
          ∧ OnlyPage .fabric s t ∧ ∀ o, o % 4 = 0 → o ≠ off → o < 0x1000 → t.word .fabric o = s.word .fabric o)) ∧
      (¬ (0x400 + 16 * c ≤ off ∧ off < 0x400 + 16 * c + 16) →
        Completes (.registerWrite r (.mirror c) off 4 value) s (fun t => t = s)))

/-- In every state with canonical tables: PORT_RESET by a link-down, a hot or a fundamental reset leaves the port's link
down, its functions, streams and TDIs reset, and every partition of the layout that it owns resetting, with 0xD004
raised. PF0_FLR resets PF0's SR-IOV control and leaves streams and TDIs. PERST_N_RISING lets training begin once image
3 runs and no reset is in force. PCIE_LINK_TRAINED brings the link up with its speed and width, and raises 0xD005
below 64.0 GT/s x16. PTM_REQUEST sends one answer and changes nothing else. A CONFIGURATION_REQUEST before the link is
up is answered with a retry status; afterwards a legal NumVFs is taken while VFs are disabled, and a read is answered,
with the device identifiers and the class code of the functions. AER_ERROR counts, and an uncorrectable one raises
0xD008. -/
def Obligations.PortsTrainResetAndAnswer : Prop :=
  ∀ (s : State) (x : Nat), s.tablesCanonical → x < 2 →
    (∀ cause, s.pwr.ok = true → s.clk.inReset = false →
      ((cause = 3 ∧ (s.port x).perst = false) ∨ ((cause = 1 ∨ cause = 2) ∧ (s.port x).linkUp = true)) →
      Completes (.portReset x cause) s (fun t =>
        (t.port x).linkUp = false ∧ (t.port x).ide = [] ∧ (t.port x).tdis = [] ∧ (t.port x).numVfs = 0 ∧ (t.port x).vfEn = false
          ∧ (t.port x).perst = decide (cause = 3) ∧ bit (t.word (.hif x) 0x010) 13 = true
          ∧ ∀ p, p < 4 → p < s.layout → s.portOfPart p = x → (t.part p).resetting = true)) ∧
    ((s.port x).linkUp = true →
      Completes (.pf0Flr x) s (fun t =>
        (t.port x).numVfs = 0 ∧ (t.port x).vfEn = false ∧ (t.port x).ide = (s.port x).ide ∧ (t.port x).tdis = (s.port x).tdis
          ∧ t.parts = s.parts)) ∧
    (s.pwr.ok = true → (s.port x).perst = true →
      Completes (.perstNRising x) s (fun t =>
        t.port x = { s.port x with perst := false, training := s.image3Runs && !s.clk.inReset } ∧ { t with ports := s.ports } = s)) ∧
    (∀ speed width, s.clk.inReset = false → (s.port x).training = true → speed ∈ [4, 5, 6] → width ∈ [4, 8, 16] →
      Completes (.pcieLinkTrained x speed width) s (fun t =>
        (t.port x).linkUp = true ∧ (t.port x).training = false ∧ t.fld (.hif x) Reg.HIF_LINK_STS 3 0 = speed
          ∧ t.fld (.hif x) Reg.HIF_LINK_STS 8 4 = width ∧ (¬ (speed = 6 ∧ width = 16) → bit (t.word (.hif x) 0x010) 13 = true))) ∧
    (s.clk.inReset = false → (s.port x).linkUp = true →
      Completes (.ptmRequest x) s (fun t => ∃ r, t = { s with out := s.out ++ [.ptm x r] })) ∧
    (∀ fn off value, fn ≤ 32 → s.pwr.ok = true → (s.port x).perst = false → (fn = 0 ∨ s.vfUp x fn = true) →
      ((s.port x).linkUp = false →
        Completes (.configurationRequest x fn off value) s (fun t => t = { s with out := s.out ++ [.retryStatus x] })) ∧
      (∀ v, value = some v → (s.port x).linkUp = true → fn = 0 → off = 3 → v ≤ 32 → (s.port x).vfEn = false →
        Completes (.configurationRequest x fn off value) s (fun t =>
          t.port x = { s.port x with numVfs := v } ∧ { t with ports := s.ports } = s)) ∧
      (value = none → (s.port x).linkUp = true →
        Completes (.configurationRequest x fn off value) s (fun t => ∃ v, t = { s with out := s.out ++ [.config x fn off v] } ∧
          (off = 3 → fn = 0 → v = (s.port x).numVfs) ∧ (off = 7 → v = if fn = 0 then 0x1536 else 0x1537) ∧ (off = 8 → v = 0x120000)))) ∧
    (∀ bad status, s.clk.inReset = false →
      Completes (.aerError x bad status) s (fun t =>
        t.word (.hif x) (hifCounter (if bad then 1 else 0)) = min (s.word (.hif x) (hifCounter (if bad then 1 else 0)) + 1) 0xFFFFFFFF
          ∧ (bad = true → bit (t.word (.hif x) 0x010) 13 = true)))

/-- In every state with canonical tables: an admitted DOMAIN_SWITCH_REQUEST that differs from the current source starts
the switch where no switch is under way and, for parking, the die is idle; where the die is not idle it is refused
with 0xB002. The boundary, at a multiple of 40 cycles and 20 after the write, and the first edge, 33 periods of the
new source after that, complete it. TIMEBASE_TICK adds 5 ns, the rate and the slew step, and stays at 0 in a Module
reset. An admitted TMB_SET_GO has the set due in 64 cycles; TIME_SET takes the time of the registers, makes it valid,
ends the slew and raises 0xB004; TMB_SLEW_WRITE replaces what is left. A read of TMB_NS_LO answers the time and
latches its upper part, which the next read of TMB_NS_HI answers and empties. PPS_EDGE and REF10M_EDGE raise a due
output and let a pulse that ends fall. -/
def Obligations.DomainsSwitchAndTheTimebaseRuns : Prop :=
  ∀ s : State, s.tablesCanonical →
    (∀ i, i < 4 → SMap.wf {} s.clk.doms = true →
      (∀ r value, Admits s r .clk (Reg.CLK_DOM + 4 * i) true → bit value 0 ≠ (s.dom i).cur → (s.dom i).phase = .none →
        (bit value 0 = false ∨ s.dieIdle (i % 2) = true →
          Completes (.domainSwitchRequest r i value) s (fun t =>
            t.dom i = { s.dom i with target := bit value 0, phase := .stopping, since := s.ticks + 20 } ∧ ∀ k, k ≠ i → t.dom k = s.dom k)) ∧
        (bit value 0 = true → s.dieIdle (i % 2) = false →
          Completes (.domainSwitchRequest r i value) s (fun t => t.clk = s.clk ∧ bit (t.word .clk 0x010) 11 = true))) ∧
      (s.clk.phase = .running →
        ((s.dom i).phase = .stopping → (s.dom i).since ≤ s.ticks → s.ticks % 40 = 0 →
          Completes (.domainSwitchBoundary i) s (fun t => t.dom i = { s.dom i with phase := .restarting, since := s.ticks } ∧ { t with clk := s.clk } = s)) ∧
        ((s.dom i).phase = .restarting → (s.dom i).since + restartTicks i (s.dom i).target ≤ s.ticks →
          Completes (.domainSwitched i) s (fun t =>
            (t.dom i).cur = (s.dom i).target ∧ (t.dom i).phase = .none
              ∧ (s.clk.inReset = false → bit (t.word .clk 0x010) 11 = true))))) ∧
    (s.pwr.ok = true → s.clk.phase = .running → s.tmb.setIn ≠ some 0 →
      Completes .timebaseTick s (fun t => t.ticks = s.ticks + 1 ∧
        (s.clk.inReset = true → t.tmb = s.tmb) ∧
        (s.clk.inReset = false →
          t.tmb.units = (s.tmb.units + (5 * 2 ^ 40 + signed 32 (s.word .tmb Reg.TMB_RATE)
            + slewStep s.tmb.left (s.fld .tmb Reg.TMB_SLEW_CTL 15 0) * 2 ^ 16).toNat) % 2 ^ 104
          ∧ t.tmb.left = s.tmb.left - slewStep s.tmb.left (s.fld .tmb Reg.TMB_SLEW_CTL 15 0)
          ∧ t.tmb.setIn = s.tmb.setIn.map (· - 1)))) ∧
    (∀ r value, Admits s r .tmb Reg.TMB_SET_CTL true → bit value 16 = true →
      Completes (.tmbSetGo r value) s (fun t => t.tmb = { s.tmb with setIn := some 64 } ∧ t.fld .tmb Reg.TMB_SET_CTL 16 16 = 1)) ∧
    (s.clk.inReset = false → s.tmb.setIn = some 0 →
      Completes .timeSet s (fun t =>
        t.tmb.ns = s.words .tmb Reg.TMB_SET_LO 2 ∧ t.tmb.valid = true ∧ t.tmb.left = 0 ∧ t.tmb.setIn = none
          ∧ t.fld .tmb Reg.TMB_SET_CTL 16 16 = 0 ∧ bit (t.word .tmb 0x010) 11 = true)) ∧
    (∀ r value, Admits s r .tmb Reg.TMB_SLEW true →
      Completes (.tmbSlewWrite r value) s (fun t => t.tmb = { s.tmb with left := signed 32 value * 256 })) ∧
    (∀ r k, Reaches s r .tmb → latchOf r = some k → SMap.wf none s.tmb.latchHi = true → SMap.wf none s.tmb.latchFrac = true →
      Completes (.tmbNsLoRead r 4) s (fun t => t.out = s.out ++ [.readData r (s.tmb.ns % 2 ^ 32)]
        ∧ SMap.get none t.tmb.latchHi k = some (s.tmb.ns / 2 ^ 32) ∧ SMap.get none t.tmb.latchFrac k = some s.tmb.frac16) ∧
      Completes (.tmbNsLoRead r 8) s (fun t => t.out = s.out ++ [.readData r s.tmb.ns]) ∧
      Completes (.tmbLatchedRead r false) s (fun t =>
        t.out = s.out ++ [.readData r ((SMap.get none s.tmb.latchHi k).getD (s.tmb.ns / 2 ^ 32))]
          ∧ SMap.get none t.tmb.latchHi k = none) ∧
      Completes (.tmbLatchedRead r true) s (fun t =>
        t.out = s.out ++ [.readData r ((SMap.get none s.tmb.latchFrac k).getD s.tmb.frac16)]
          ∧ SMap.get none t.tmb.latchFrac k = none)) ∧
    (s.clk.inReset = false →
      (s.ppsOn = true → s.tmb.ppsDue = true → Completes .ppsEdge s (fun t =>
        t.tmb = { s.tmb with ppsDue := false, ppsHigh := s.fld .tmb Reg.TMB_OUT_CTL 12 4 * msTicks + 1 })) ∧
      (s.ppsOn = true → s.tmb.ppsDue = false → s.tmb.ppsHigh = 1 →
        Completes .ppsEdge s (fun t => t = { s with tmb := { s.tmb with ppsHigh := 0 } })) ∧
      (s.refOn = true → s.tmb.refDue = true → Completes .ref10mEdge s (fun t =>
        t = { s with tmb := { s.tmb with refDue := false, refHigh := 11 } })) ∧
      (s.refOn = true → s.tmb.refDue = false → s.tmb.refHigh = 1 →
        Completes .ref10mEdge s (fun t => t = { s with tmb := { s.tmb with refHigh := 0 } })))

/-- In every state with canonical tables: while the loops run and their periods have passed, THROTTLE_WINDOW, every 8
cycles, puts the largest of the four levels into effect and leaves them; CURRENT_SAMPLE above a limit raises the level
of the current limiter by 8, above the mean limit by 1, to at most 63, and otherwise lowers it only every hundredth
calm sample; CAP_LOOP moves its level by 1 up, down or not, as the mean power stands to the cap, and counts a conflict
where another level exceeds it; EXT_THROTTLE follows the pin. THERMAL_SAMPLE with a third reading in a row at a trip
level takes the power away, marked as a trip, once a meter that is ready, and whose log is not full, has its
power-fail entry of cause 2; without one, a reading at its threshold raises the thermal level by 1.
INPUT_FAULT_SHUTDOWN takes the power away and keeps the meter; INPUT_RANGE in a marginal band raises 0xB105 within its
limit; POWER_STAGE_RESTART switches the stage on again unless a trip holds it off. -/
def Obligations.ThrottleLevelsFollowTheirLoops : Prop :=
  ∀ s : State, s.tablesCanonical →
    (s.throttles = true →
      (s.ticks % 8 = 0 → Completes .throttleWindow s (fun t =>
        t.fld .pwr Reg.PWR_STS 5 0 = max (max s.tauCur s.tauTh) (max s.tauCap s.tauExt) ∧ t.tauCur = s.tauCur
          ∧ t.tauTh = s.tauTh ∧ t.tauCap = s.tauCap ∧ OnlyPage .pwr s t)) ∧
      (∀ watts ma, s.periodOpen 0 200 = true → Completes (.currentSample watts ma) s (fun t =>
        (4800 < watts ∨ 145500 < ma → t.tauCur = min 63 (s.tauCur + 8)) ∧
        (watts ≤ 4800 → ma ≤ 145500 → 4000000 < ((watts :: s.pwr.samples).take 1000).sum → t.tauCur = min 63 (s.tauCur + 1)) ∧
        (watts ≤ 4800 → ma ≤ 145500 → ((watts :: s.pwr.samples).take 1000).sum ≤ 4000000 →
          t.tauCur = if s.pwr.quiet = 99 then s.tauCur - 1 else s.tauCur) ∧
        t.tauTh = s.tauTh ∧ t.tauCap = s.tauCap)) ∧
      (∀ watts, s.periodOpen 2 msTicks = true → Completes (.capLoop watts) s (fun t =>
        t.tauCap = (if s.fld .pwr Reg.PWR_CAP 12 0 < watts then min 63 (s.tauCap + 1)
                    else if 100 * watts < 98 * s.fld .pwr Reg.PWR_CAP 12 0 then s.tauCap - 1 else s.tauCap)
          ∧ t.tauCur = s.tauCur ∧ t.tauTh = s.tauTh
          ∧ t.word .pwr (pwrCounter 3) = (if s.tauCap < s.tauCur ∨ s.tauCap < s.tauTh
              then min (s.word .pwr (pwrCounter 3) + 1) 0xFFFFFFFF else s.word .pwr (pwrCounter 3)))) ∧
      (∀ low, Completes (.extThrottle low) s (fun t =>
        t.fld .pwr Reg.PWR_STS 24 24 = (if low then 1 else 0) ∧ t.clk.throttleN = !low))) ∧
    (∀ temps : List Nat, temps.length = 76 → s.pwr.ok = true → s.clk.phase = .running → s.periodOpen 1 20000 = true →
      ((∃ i, i < 76 ∧ 2 ≤ SMap.get 0 s.pwr.hot i ∧ (if i < 64 then 115 else 105) ≤ temps.getD i 0) →
        Completes (.thermalSample temps) s (fun t => t.pwr.ok = false ∧ t.pwr.stage = false ∧ t.pwr.tripped = true ∧
          (s.met.ready = false → t.met = s.met) ∧
          (s.met.ready = true → s.met.blocked = false → t.meterType s.met.seq = 7
            ∧ leNat (slice (SMap.get [] t.met.log s.met.seq) 5 1) = 2))) ∧
      ((∀ i, i < 76 → temps.getD i 0 < (if i < 64 then 115 else 105)) → s.clk.inReset = false →
        (∃ i, i < 76 ∧ (if i < 64 then s.fld .pwr Reg.PWR_THERM 6 0 else s.fld .pwr Reg.PWR_THERM 14 8) ≤ temps.getD i 0) →
        Completes (.thermalSample temps) s (fun t => t.tauTh = min 63 (s.tauTh + 1) ∧ t.tauCur = s.tauCur ∧ t.pwr.ok = true))) ∧
    (∀ cause mv, s.pwr.ok = true → (cause = 1 ∨ (cause = 2 ∧ mv < 32000) ∨ (cause = 3 ∧ 40000 < mv)) →
      Completes (.inputFaultShutdown cause mv) s (fun t =>
        t.pwr.ok = false ∧ t.pwr.stage = false ∧ t.pwr.tripped = false ∧ t.met = s.met ∧ t.clk.inReset = true
          ∧ ∀ c, (t.ctx c).state = .free)) ∧
    (∀ high mv, s.clk.inReset = false →
      (if high then 39000 < mv ∧ mv ≤ 40000 else 32000 ≤ mv ∧ mv < 33000) →
      Completes (.inputRange high mv) s (fun t =>
        s.rateOpen (0xB105 * 2 ^ 40 + Page.pwr.id * 2 ^ 20) secTicks = true → bit (t.word .pwr 0x010) 11 = true)) ∧
    (s.pwr.stage = false → s.pwr.tripped = false →
      Completes .powerStageRestart s (fun t => t = { s with pwr := { s.pwr with stage := true } }))

/-- In every state: while the meter runs, a METER_SAMPLE 20 µs after the last adds to each channel the product of its
calibrated codes with 20 microseconds, to within one unit of 2^-24 microjoule, and leaves accounts and log; a
METER_ALLOCATE 1 ms after the last under a legal layout raises the partitions' accounts together by exactly the
input's rise, and each partition's rise goes to its idle account where no context was resident and otherwise to its
contexts together, and takes the totals as the new marks. With the meter ready, METER_INTERVAL at the end of an
interval starts the next one and, where the log takes entries, leaves an entry of type 1; METER_POWER_FAIL leaves one
of type 7 with cause 1. METER_READY, once and with the meter's key delivered, restores the totals of the last entry
that holds them, marks an unclean power-down where the last entry is not of type 7, leaves an entry of type 8 and
marks METER_READY's class on the page. -/
def Obligations.MeterCountsAttributesAndRecords : Prop :=
  ∀ s : State, SMap.wf 0 s.met.chan = true → SMap.wf 0 s.met.acct = true → SMap.wf [] s.met.log = true →
    (∀ codes, codes.length = 10 → s.meterRuns = true → s.periodOpen 3 4000 = true →
      Completes (.meterSample codes) s (fun t =>
        t.met.samples = s.met.samples + 1 ∧ t.met.acct = s.met.acct ∧ t.met.log = s.met.log ∧
        ∀ k, k < 5 → ∃ d : Int, SMap.get 0 t.met.chan k = SMap.get 0 s.met.chan k + d ∧
          (d * 2 ^ 36 - s.met.convert k true (codes.getD (2 * k) 0) * s.met.convert k false (codes.getD (2 * k + 1) 0) * 20).natAbs < 2 ^ 36)) ∧
    (∀ resident, resident.length = 32 → s.meterRuns = true → s.periodOpen 4 msTicks = true → s.layoutLegal →
      Completes (.meterAllocate resident) s (fun t =>
        t.met.intervalMs = s.met.intervalMs + 1 ∧ t.met.log = s.met.log ∧ t.met.chan = s.met.chan ∧
        (∀ k, k < 5 → SMap.get 0 t.met.mark k = s.met.chanUj k) ∧
        ((List.range s.layout).map (acctRise s t)).sum = s.met.chanUj 0 - SMap.get 0 s.met.mark 0 ∧
        ∀ p, p < s.layout →
          ((∀ i, i < 8 → resident.getD (8 * p + i) 0 = 0) → acctRise s t (4 + p) = acctRise s t p ∧
            ∀ i, i < 8 → acctRise s t (8 + 8 * p + i) = 0) ∧
          ((∃ i, i < 8 ∧ resident.getD (8 * p + i) 0 ≠ 0) → acctRise s t (4 + p) = 0 ∧
            ((List.range 8).map (fun i => acctRise s t (8 + 8 * p + i))).sum = acctRise s t p))) ∧
    (s.meterRuns = true → s.met.ready = true → s.met.interval * 60000 ≤ s.met.intervalMs →
      Completes .meterInterval s (fun t =>
        t.met.intervalMs = 0 ∧ t.met.outSecs = 0 ∧ t.met.acct = s.met.acct ∧ t.met.chan = s.met.chan ∧
        (s.met.blocked = false → t.meterType s.met.seq = 1 ∧ s.met.seq < t.met.seq) ∧
        (s.met.blocked = true → t.met.log = s.met.log ∧ t.met.logFull = true))) ∧
    (s.met.ready = true →
      Completes .meterPowerFail s (fun t =>
        t.met.acct = s.met.acct ∧ t.met.chan = s.met.chan ∧
        (s.met.blocked = false → t.meterType s.met.seq = 7 ∧ leNat (slice (SMap.get [] t.met.log s.met.seq) 5 1) = 1) ∧
        (s.met.blocked = true → t.met.log = s.met.log))) ∧
    (∀ gap, s.meterRuns = true → s.met.ready = false → s.met.key ≠ [] →
      Completes (.meterReady gap) s (fun t =>
        t.met.ready = true ∧ bit (t.word .lch 0x010) 12 = true ∧
        (t.met.unclean = true ↔ ∃ e, s.met.lastEntry = some e ∧ entryType e.2 ≠ 7) ∧
        (∀ e, s.met.lastTotals = some e → ∀ i, i < 5 → SMap.get 0 t.met.base i = signed 64 (leNat (slice e (24 + 8 * i) 8))) ∧
        (s.met.blocked = false → t.meterType s.met.seq = 8)))

/-- In every state whose meter runs and is ready: a well-formed READ, SEAL_READ (signed over its bytes) or LOG sends its
answer and changes nothing else; of another length, or LOG with a count outside 1 to 64, it is refused, with 0xC008's
class on the page. ACK moves the acknowledgement forward, to a number already written, only with a good block. PARAM
with a good block and the next counter, while the log takes entries, writes an entry of type 4, then takes the block
and the counter; otherwise parameters, counter and log stay. Firmware is taken piece by piece, each at the next
offset, and its end, with a good block and the next counter, writes the copy that does not run; otherwise the copies
stay. -/
def Obligations.ReaderMessagesAreAnsweredOrRefused : Prop :=
  ∀ s : State, s.meterReads = true → SMap.wf [] s.met.log = true → SMap.wf [] s.met.images = true →
    (∀ m : List Byte,
      (leNat (slice m 0 4) = 1 →
        (m.length = 4 → Completes (.meterRead m) s (fun t => t = s.emit (.meter s.meterPage))) ∧
        (m.length ≠ 4 → Completes (.meterRead m) s (fun t => bit (t.word .lch 0x010) 12 = true ∧ t.met = s.met))) ∧
      (leNat (slice m 0 4) = 0 ∨ 6 < leNat (slice m 0 4) →
        Completes (.meterRead m) s (fun t => bit (t.word .lch 0x010) 12 = true ∧ t.met = s.met)) ∧
      (leNat (slice m 0 4) = 2 →
        (m.length = 36 → Completes (.sealRead m) s (fun t => ∃ bs r : List Byte,
          bs = s.meterPage ++ slice m 4 32 ++ s.met.sealDigest ++ leBytes 8 s.met.evcnt ∧
          t = { s with freeCtr := s.freeCtr + 16, out := s.out ++ [.meter (bs ++ slh128f.sign s.meterSeed r
            (slice (ascii "karfort sealread") 0 16 ++ sha384 bs))] })) ∧
        (m.length ≠ 36 → Completes (.sealRead m) s (fun t => bit (t.word .lch 0x010) 12 = true ∧ t.met = s.met))) ∧
      (leNat (slice m 0 4) = 3 →
        (m.length = 12 → 1 ≤ leNat (slice m 8 4) → leNat (slice m 8 4) ≤ 64 →
          Completes (.meterLog m) s (fun t => t = s.emit (.meter (s.logBytes (leNat (slice m 4 4)) (leNat (slice m 8 4)))))) ∧
        (m.length ≠ 12 ∨ leNat (slice m 8 4) = 0 ∨ 64 < leNat (slice m 8 4) →
          Completes (.meterLog m) s (fun t => bit (t.word .lch 0x010) 12 = true ∧ t.met = s.met))) ∧
      (leNat (slice m 0 4) = 4 → ∀ n, n = leNat (slice m 4 4) →
        Completes (.meterAck m) s (fun t =>
          t.met.log = s.met.log ∧ t.met.params = s.met.params ∧ t.met.evcnt = s.met.evcnt ∧
          (m.length = 8 + blockLen → s.meterBlock Config.ackLabel (m.take 8) (m.drop 8) = true → n < s.met.seq →
            t.met.acked = max s.met.acked n) ∧
          (m.length ≠ 8 + blockLen ∨ s.meterBlock Config.ackLabel (m.take 8) (m.drop 8) = false ∨ s.met.seq ≤ n →
            t.met = s.met ∧ bit (t.word .lch 0x010) 12 = true))) ∧
      (leNat (slice m 0 4) = 5 →
        Completes (.meterParam m) s (fun t =>
          bit (t.word .lch 0x010) 12 = true ∧ t.met.acct = s.met.acct ∧ t.met.images = s.met.images ∧
          (s.paramGood m → t.met.params = slice m 4 256 ∧ t.met.evcnt = (s.met.evcnt + 1) % 2 ^ 64 ∧ t.meterType s.met.seq = 4) ∧
          (¬ s.paramGood m → t.met.params = s.met.params ∧ t.met.evcnt = s.met.evcnt ∧ t.met.log = s.met.log)))) ∧
    (∀ len, 8 + blockLen ≤ len → len ≤ meterImageMax + 8 + blockLen → s.met.logFull = false →
      Completes (.meterFwBegin len) s (fun t => t = { s with met := { s.met with xfer := some (len, []) } })) ∧
    (∀ len, len < 8 + blockLen ∨ meterImageMax + 8 + blockLen < len ∨ s.met.logFull = true →
      Completes (.meterFwBegin len) s (fun t => t.met = s.met ∧ bit (t.word .lch 0x010) 12 = true)) ∧
    (∀ len got off bytes, s.met.xfer = some (len, got) →
      (off = got.length → off + bytes.length ≤ len →
        Completes (.meterFwData off bytes) s (fun t => t = { s with met := { s.met with xfer := some (len, got ++ bytes) } })) ∧
      (off ≠ got.length ∨ len < off + bytes.length →
        Completes (.meterFwData off bytes) s (fun t => t.met = s.met ∧ bit (t.word .lch 0x010) 12 = true))) ∧
    (s.met.xfer = none →
      (∀ off bytes, Completes (.meterFwData off bytes) s (fun t => t.met = s.met ∧ bit (t.word .lch 0x010) 12 = true)) ∧
      Completes .meterFwEnd s (fun t => t.met = s.met ∧ bit (t.word .lch 0x010) 12 = true)) ∧
    (∀ len got, s.met.xfer = some (len, got) → 8 + blockLen ≤ len →
      Completes .meterFwEnd s (fun t => t.met.xfer = none ∧ t.met.params = s.met.params ∧ t.met.evcnt = s.met.evcnt ∧
        (s.meterFwGood len got → t.met.images = SMap.set [] s.met.images (1 - s.met.running) (got.take (len - 8 - blockLen))
          ∧ t.met.staged = true) ∧
        (¬ s.meterFwGood len got → t.met.images = s.met.images ∧ bit (t.word .lch 0x010) 12 = true)))

/-- In every state with canonical tables in which the management controller runs: SENSOR_POLL, 100 ms after the last,
takes every sensor's reading and changes nothing else; a PLDM reading of a listed sensor is the last one polled. When
Thallus serves it, a legal PLDM update begins a transfer, each piece of the length asked for joins it, the last piece
ends it with its copy staged or rejected, an activation of a staged image 2 takes the controller down, and a cancel
ends the transfer. A control request sets the endpoint identifier if it is Set Endpoint ID. As grandmaster the port
sends three messages, announcing class 248 unless the timebase is valid and locked; a frame that is not PTP is dropped
and counted. A sample above 1,000 ns sets the timebase 64 cycles ahead; a smaller one becomes the slew and, within the
register's range, adjusts the rate, and 16 in a row within 10 ns lock the timebase; a source without a sample for 8
periods unlocks it and keeps the rate. Message layouts, and aiming the set 64 cycles ahead, are the model's choices
(log entries 43 and 44). -/
def Obligations.ManagementServesSensorsUpdatesAndTime : Prop :=
  ∀ s : State, s.tablesCanonical → s.mcRuns = true → SMap.wf 0 s.mgt.readings = true →
    (∀ readings : List Nat, s.periodOpen 5 (100 * msTicks) = true →
      Completes (.sensorPoll readings) s (fun t => { t with mgt := s.mgt, rate := s.rate } = s ∧
      (∀ i, i < 76 → SMap.get 0 t.mgt.readings (1 + i) = readings.getD i 0) ∧
      (∀ i, i < 7 → SMap.get 0 t.mgt.readings (80 + i) = readings.getD (76 + i) 0) ∧
      (∀ i, i < 4 → SMap.get 0 t.mgt.readings (90 + i) = s.fld .pwr Reg.PWR_STS (6 * i + 5) (6 * i)) ∧
      (∀ l, l < 16 → SMap.get 0 t.mgt.readings (100 + l) = (s.link l).status % 8) ∧
      ∀ x, x < 2 → SMap.get 0 t.mgt.readings (120 + x) = s.fld (.hif x) Reg.HIF_LINK_STS 8 0)) ∧
    (∀ n, Completes (.pldmGetSensorReading n) s (fun t =>
      (n ∈ sensorIds → ∃ r, t.out = s.out ++ [.mctp r] ∧ r.length = 11 ∧ leNat (slice r 0 1) = 0
        ∧ leNat (slice r 7 4) = SMap.get 0 s.mgt.readings n % 2 ^ 32) ∧
      (n ∉ sensorIds → t = s.emit (.mctp [0x80#8])))) ∧
    ((∀ i len s0, AtThallus s (.pldm 0x10 i len []) s0 → 1 ≤ i → i ≤ 4 → len ≤ imageSize i → s.thl.xfer = none →
        Completes (.pldmRequestUpdate i len) s (fun t =>
          t.thl.xfer = some { image := i, path := none, len := len } ∧ t.out.getLast? = some (.mctp [0#8]))) ∧
      (∀ i len s0, AtThallus s (.pldm 0x10 i len []) s0 → i = 0 ∨ 4 < i ∨ imageSize i < len ∨ s.thl.xfer ≠ none →
        Completes (.pldmRequestUpdate i len) s (fun t => t.thl = s0.thl ∧ t.out.getLast? = some (.mctp [1#8]))) ∧
      (∀ (x : Xfer) (data : List Byte) (s0 : State), AtThallus s (.pldm 0x15 0 0 data) s0 → s.thl.xfer = some x → x.path = none → x.got.length < x.len →
        data.length = min 1024 (x.len - x.got.length) →
        Completes (.pldmRequestFirmwareData data) s (fun t =>
          (x.got.length + data.length < x.len → t.thl.xfer = some { x with got := x.got ++ data }) ∧
          (x.got.length + data.length = x.len → t.thl.xfer = none ∧
            ((t.img x.image (s.idleCopy x.image)).state = 2 ∧ (t.img x.image (s.idleCopy x.image)).bytes = x.got ++ data
              ∨ (t.img x.image (s.idleCopy x.image)).state = 4)))) ∧
      (∀ i self s0, AtThallus s (.pldm 0x1A i (if self then 1 else 0) []) s0 → 1 ≤ i → i ≤ 4 → (i ≠ 2 ∨ self = false) →
        Completes (.pldmActivateFirmware i self) s (fun t => t = s0.emit (.mctp [0#8]))) ∧
      (∀ s0, AtThallus s (.pldm 0x1A 2 1 []) s0 → (s.stagedCopy 2).isSome = true → s.noFwUpdate = false →
        Completes (.pldmActivateFirmware 2 true) s (fun t => t.mcRuns = false ∧ t.thl.live = true ∧ 2 ∈ t.thl.awaiting))) ∧
    (∀ (x : Xfer) (s0 : State), AtThallus s (.pldm 0x1D 0 0 []) s0 → s.thl.xfer = some x → x.path = none →
      Completes .pldmCancelUpdate s (fun t => t.thl.xfer = none ∧ t.out.getLast? = some (.mctp [0#8]))) ∧
    (∀ m : List Byte, 2 ≤ m.length → bit (leNat (slice m 0 1)) 7 = true →
      Completes (.mctpControlMessage m) s (fun t => (∃ r, t.out = s.out ++ [.mctp r]) ∧
        ∀ e, e = leNat (slice m 3 1) →
          t.mgt = (if leNat (slice m 1 1) = 1 ∧ 4 ≤ m.length ∧ e ≠ 0 ∧ e ≠ 0xFF then { s.mgt with eid := e } else s.mgt))) ∧
    (s.fld .mgt Reg.MGT_STS 1 1 = 1 →
      (s.fld .mgt Reg.MGT_TIME_CTL 6 6 = 1 → s.fld .mgt Reg.MGT_TIME_CTL 1 0 ≠ 2 →
        Completes (.ptpMessage none) s (fun t => ∃ a b c, t.out = s.out ++ [.ethernet a, .ethernet b, .ethernet c] ∧
          leNat (slice a 48 1) = if s.tmb.valid = true ∧ s.fld .mgt Reg.MGT_STS 2 2 = 1 then s.fld .mgt Reg.MGT_TIME_CTL 23 16 else 248)) ∧
      (∀ f, s.ptpOf f = none → Completes (.ptpMessage (some f)) s (fun t =>
        t = { s with mgt := { s.mgt with dropped := min (s.mgt.dropped + 1) 0xFFFFFFFF } }))) ∧
    (∀ up, (s.fld .mgt Reg.MGT_STS 1 1 = 1 ↔ up = false) →
      Completes (.ethLink up) s (fun t => (t.fld .mgt Reg.MGT_STS 1 1 = 1 ↔ up = true) ∧ bit (t.word .mgt 0x010) 14 = true)) ∧
    (∀ period theta T, s.timeSample period = some (theta, T) → 0 < T →
      Completes (.timeSampleSteer period) s (fun t =>
        t.word .mgt Reg.MGT_TIME_OFS = satOfs theta ∧
        (steerFar < theta.natAbs → t.mgt.good = 0 ∧ t.tmb.setIn = some 64 ∧
          t.words .tmb Reg.TMB_SET_LO 2 = ((s.nowFine : Int) + 320 * 65536 + theta).toNat / 65536 % 2 ^ 64) ∧
        (theta.natAbs ≤ steerFar → t.tmb = { s.tmb with left := theta * 256 } ∧
          t.mgt.good = (if theta.natAbs ≤ steerNear then s.mgt.good + 1 else 0) ∧
          (t.mgt.good = 16 → t.fld .mgt Reg.MGT_STS 2 2 = 1) ∧
          (t.mgt.good ≠ 16 → t.fld .mgt Reg.MGT_STS 2 2 = s.fld .mgt Reg.MGT_STS 2 2) ∧
          ∀ r, r = signed 32 (s.word .tmb Reg.TMB_RATE) + (theta * (5 * 2 ^ 24)).tdiv (8 * T) →
            -(2 ^ 31) ≤ r → r < 2 ^ 31 → signed 32 (t.word .tmb Reg.TMB_RATE) = r))) ∧
    (s.fld .mgt Reg.MGT_TIME_CTL 1 0 = 1 ∨ s.fld .mgt Reg.MGT_TIME_CTL 1 0 = 2 →
      5 * s.mgt.sampleAt + 8 * s.mgt.period ≤ 5 * s.ticks →
      Completes .timeSourceLost s (fun t => t.mgt.good = 0 ∧ t.fld .mgt Reg.MGT_STS 2 2 = 0
        ∧ t.word .tmb Reg.TMB_RATE = s.word .tmb Reg.TMB_RATE ∧ t.tmb = s.tmb
        ∧ (s.fld .mgt Reg.MGT_STS 2 2 = 1 → t.fld .mgt Reg.MGT_STS 3 3 = 1 ∧ bit (t.word .mgt 0x010) 14 = true)))

/-- In every state with canonical tables: an item that leaves the intake queue is an entry that takes the next sequence
number and, where it is an alarm, goes to the bus owner as well, or a run of lost events that consumes its numbers and
leaves 0xE002 with the first number and the count; the ring keeps 2,048 entries. A page that is due takes up to eight
pending entries to the flash, and MGT_LOG_PERSIST shows the last of them. LOG_START numbers on from the flash in a new
boot, and its entry carries its own number. A write of the mode 0 to 1 of a context with a good ring begins recording,
with the START record unless that does not fit, and without one marks 0xE104; 1 to 0 ends it; 0 to 2 begins replay
where the ring begins with a START of the context's class and the trailer stands or is waived, and otherwise marks
0xE104 and changes no mode; 2 to 0 ends it. -/
def Obligations.LogAndCaptureStreamsAreKept : Prop :=
  ∀ s : State, s.tablesCanonical →
    (s.logRuns = true →
      (∀ e rest, s.log.intake = .entry e :: rest →
        Completes .logDequeue s (fun t =>
          t.log.intake = rest ∧ t.log.seq = (s.log.seq + 1) % 2 ^ 32 ∧ t.log.ring.length ≤ 2048 ∧ t.regs = s.regs
            ∧ t.log.ring.getLast? = some (s.log.seq, { e with boot := s.log.boot % 2 ^ 32 })
            ∧ t.out = s.out ++ (if e.alarm = true
                then [.mctp (platformEvent (({ e with boot := s.log.boot % 2 ^ 32 } : LogEntry).bytes s.log.seq))] else []))) ∧
      (∀ n rest, s.log.intake = .gap n :: rest →
        Completes .logDequeue s (fun t =>
          t.log.intake = rest ∧ t.log.seq = (s.log.seq + n + 1) % 2 ^ 32 ∧
          ∃ e, t.log.ring.getLast? = some ((s.log.seq + n) % 2 ^ 32, e) ∧ e.code = 0xE002 ∧ e.arg1 = s.log.seq % 2 ^ 32
            ∧ e.arg2 = n % 2 ^ 32 ∧ bit e.flags 4 = true))) ∧
    (s.clk.inReset = false → s.log.started = true → s.pageDue = true → SMap.wf [] s.log.flash = true →
      Completes .logPageProgram s (fun t =>
        t.log.unsaved = s.log.unsaved.drop 8 ∧ SMap.get [] t.log.flash s.log.page = (s.log.unsaved.take 8).map Prod.snd
          ∧ t.log.page = (s.log.page + 1) % 16384 ∧ t.log.ring = s.log.ring
          ∧ (∀ e, ((s.log.unsaved.take 8).map Prod.snd).getLast? = some e → t.word .mgt regLogPersist = e.1 % 2 ^ 32))) ∧
    (s.clk.inReset = false → s.fld .mgt Reg.MGT_STS 0 0 = 1 → s.log.started = false →
      Completes .logStart s (fun t => t.log.started = true ∧ t.log.intake = s.log.intake ∧
        ∃ n e, t.log.ring.getLast? = some (n, e) ∧ e.code = 0xE001 ∧ e.arg2 = n ∧ t.log.seq = (n + 1) % 2 ^ 32
          ∧ ((∀ x ∈ s.log.kept, x.1 + 1 < 2 ^ 32 ∧ x.2.boot + 1 < 2 ^ 32) → ∀ x ∈ s.log.kept, x.1 < n ∧ x.2.boot < e.boot))) ∧
    (∀ c, c < 32 → s.clk.inReset = false → s.lockOf (.ctx c) = false →
      (s.capMode c = 0 →
        (s.ringOk c = true → Completes (.captureStart c) s (fun t => t.capMode c = 1 ∧
          (t.capFull c = false → (t.ctx c).capture.seq = 1 ∧ 0 < t.capPos c) ∧
          (t.capFull c = true → bit (t.word (.ctx c) 0x010) 14 = true))) ∧
        (s.ringOk c = false →
          Completes (.captureStart c) s (fun t => t.capMode c = 0 ∧ bit (t.word (.ctx c) 0x010) 14 = true ∧ t.ctxs = s.ctxs) ∧
          Completes (.replayStart c) s (fun t => t.capMode c = 0 ∧ bit (t.word (.ctx c) 0x010) 14 = true ∧ t.ctxs = s.ctxs)) ∧
        (s.ringOk c = true → ∀ rs, rs = s.capRecords c → ∀ good : Prop,
          (good ↔ ∃ r, rs.head? = some r ∧ r.type = 1 ∧ slice r.bytes 17 2 = s.capClass c
            ∧ (s.fld (.ctx c) Reg.CTX_CAP_CTL 3 3 = 1 ∨ s.trailerOk rs = true)) →
          Completes (.replayStart c) s (fun t =>
            (good → t.capMode c = 2 ∧ (t.ctx c).capture = { used := [0] }) ∧
            (¬ good → t.capMode c = 0 ∧ bit (t.word (.ctx c) 0x010) 14 = true ∧ t.ctxs = s.ctxs)))) ∧
      (s.capMode c = 1 → Completes (.captureStop c) s (fun t => t.capMode c = 0 ∧
        (s.capFull c = true → { t with regs := s.regs } = s) ∧
        (s.capFull c = false → t.capFull c = false → (t.ctx c).capture.seq = (s.ctx c).capture.seq + 1))) ∧
      (s.capMode c = 2 → Completes (.replayStop c) s (fun t => t.capMode c = 0 ∧ (t.ctx c).capture = {}
        ∧ MemoriesSame s t ∧ t.out = s.out)))

/-- For every state and command: with the command at the front of its queue, a step answers what the command's effect on
the state with the queue's rest answers; on an empty queue the module idles (the model's choice, log entry 36). -/
def Obligations.StepPerformsTheFrontCommand : Prop :=
  ∀ s : State, (∀ c cs, s.pending = c :: cs → step s = exec c { s with pending := cs }) ∧ (s.pending = [] → step s = .next s)

/-- The state after reset has its tables and memories in canonical form and a legal layout, no command waiting, every
register word at the reset value of its fields, every context and region FREE, every link down, no fabric role and
node 0xFFFF, the timebase at 0 and not valid, no pinna running, and a Module reset in force. -/
def Obligations.ResetIsCanonicalAndAtRest : Prop :=
  let s := State.reset
  (s.tablesCanonical ∧ s.innerCanonical ∧ s.memoriesCanonical ∧ s.layoutLegal) ∧
    (∀ pg cp off, s.wordAt pg cp off = pg.resetWord off % 2 ^ 32) ∧
    (∀ c, (s.ctx c).state = .free) ∧ (∀ r, (s.region r).state = .free) ∧ (∀ l, (s.link l).phase = .down) ∧
    s.role = 0 ∧ s.node = 0xFFFF ∧ s.tmb.ns = 0 ∧ s.tmb.valid = false ∧ (∀ n, s.pinnaRuns n = false) ∧
    s.clk.inReset = true ∧ s.pending = [] ∧ s.log.intake = [] ∧ s.out = []

/-- If the tables of the state, the tables inside its pinnae, stacks and links, and its addressed memories are in
canonical form, and a step answers a next state, they are in canonical form in that state. -/
def Obligations.EveryStepKeepsTablesAndMemoriesCanonical : Prop :=
  KeptByEveryStep (fun s => s.tablesCanonical ∧ s.innerCanonical ∧ s.memoriesCanonical)

/-- If the layout is one of 1, 2 and 4 and every partition belongs to port 0 or 1, and a step answers a next state, the
same holds there; and in every state, the queue after a step is the queue before it without its front, whichever
command was performed. -/
def Obligations.EveryStepKeepsLayoutAndTakesOneCommand : Prop :=
  KeptByEveryStep State.layoutLegal ∧ ∀ s t, step s = .next t → t.pending = s.pending.tail
end

