-- ==== Sys2Proof/Laws/Map.lean ====
section
/-!
SUPPORT. The laws of sparse tables and byte memories: a read after a write, and that every operation keeps the canonical
form.
-/
namespace Sys2Proof.Machine

variable {α : Type} [DecidableEq α] {d : α}

theorem SMap.wfFrom_mono {m : SMap α} {b c : Nat} (h : c ≤ b) (hm : SMap.wfFrom d b m = true) :
    SMap.wfFrom d c m = true := by
  cases m with
  | nil => rfl
  | cons x t =>
    obtain ⟨j, w⟩ := x
    simp only [SMap.wfFrom, Bool.and_eq_true, decide_eq_true_eq] at hm ⊢
    exact ⟨⟨Nat.le_trans h hm.1.1, hm.1.2⟩, hm.2⟩

/-- What holds of the default and of every entry holds of every value read. -/
theorem SMap.get_sat {m : SMap α} {P : α → Prop} (hd : P d) (h : ∀ e ∈ m, P e.2) (k : Nat) : P (SMap.get d m k) := by
  induction m with
  | nil => exact hd
  | cons e m ih =>
    unfold SMap.get
    split
    · exact h e (by simp)
    · split
      · exact hd
      · exact ih fun e he => h e (by simp [he])

/-- A key below the first one is not listed. -/
theorem SMap.get_below {m : SMap α} {b k : Nat} (hm : SMap.wfFrom d b m = true) (h : k < b) : SMap.get d m k = d := by
  cases m with
  | nil => rfl
  | cons x t =>
    obtain ⟨j, w⟩ := x
    simp only [SMap.wfFrom, Bool.and_eq_true, decide_eq_true_eq] at hm
    have : k < j := Nat.lt_of_lt_of_le h hm.1.1
    simp [SMap.get, Nat.ne_of_lt this, this]

theorem SMap.get_set_from {m : SMap α} {b : Nat} (hm : SMap.wfFrom d b m = true) (k j : Nat) (v : α) :
    SMap.get d (SMap.set d m k v) j = if j = k then v else SMap.get d m j := by
  induction m generalizing b with
  | nil => by_cases hv : v = d <;> by_cases hj : j = k <;> simp_all [SMap.set, SMap.get]
  | cons x t ih =>
    obtain ⟨i, w⟩ := x
    simp only [SMap.wfFrom, Bool.and_eq_true, decide_eq_true_eq] at hm
    simp only [SMap.set]
    split
    · rename_i hki
      by_cases hv : v = d
      · by_cases hj : j = k
        · subst hj; simp [hv, SMap.get, Nat.ne_of_lt hki, hki]
        · simp [hv, hj]
      · by_cases hj : j = k
        · simp [hv, hj, SMap.get]
        · by_cases hl : j < k
          · have : j < i := Nat.lt_trans hl hki
            simp [hv, hj, SMap.get, hl, Nat.ne_of_lt this, this]
          · simp [hv, hj, SMap.get, hl]
    · split
      · rename_i h1 h2
        subst h2
        by_cases hv : v = d
        · by_cases hj : j = k
          · subst hj; simp [hv, SMap.get_below hm.2 (Nat.lt_succ_self j)]
          · by_cases hl : j < k
            · simp [hv, hj, SMap.get, hl, SMap.get_below hm.2 (Nat.lt_succ_of_lt hl)]
            · simp [hv, hj, SMap.get, hl]
        · by_cases hj : j = k <;> simp [hv, hj, SMap.get]
      · rename_i h1 h2
        simp only [SMap.get, ih hm.2]
        by_cases hji : j = i
        · subst hji; simp [Ne.symm h2]
        · by_cases hl : j < i
          · have : j ≠ k := by omega
            simp [hji, hl, this]
          · simp [hji, hl]

/-- A read after a write. -/
theorem SMap.get_set {m : SMap α} (hm : SMap.wf d m = true) (k j : Nat) (v : α) :
    SMap.get d (SMap.set d m k v) j = if j = k then v else SMap.get d m j := SMap.get_set_from hm k j v

theorem SMap.get_set_same {m : SMap α} (hm : SMap.wf d m = true) (k : Nat) (v : α) :
    SMap.get d (SMap.set d m k v) k = v := by simp [SMap.get_set hm]

theorem SMap.get_set_other {m : SMap α} (hm : SMap.wf d m = true) {k j : Nat} (h : j ≠ k) (v : α) :
    SMap.get d (SMap.set d m k v) j = SMap.get d m j := by simp [SMap.get_set hm, h]

theorem SMap.wfFrom_set {m : SMap α} {b k : Nat} (hm : SMap.wfFrom d b m = true) (hk : b ≤ k) (v : α) :
    SMap.wfFrom d b (SMap.set d m k v) = true := by
  induction m generalizing b with
  | nil => by_cases hv : v = d <;> simp [SMap.set, hv, SMap.wfFrom, hk]
  | cons x t ih =>
    obtain ⟨i, w⟩ := x
    have h0 := hm
    simp only [SMap.wfFrom, Bool.and_eq_true, decide_eq_true_eq] at hm
    simp only [SMap.set]
    split
    · rename_i hki
      by_cases hv : v = d
      · simp [hv, h0]
      · simp only [hv, if_false, SMap.wfFrom, Bool.and_eq_true, decide_eq_true_eq]
        exact ⟨⟨hk, hv⟩, ⟨Nat.succ_le_of_lt hki, hm.1.2⟩, hm.2⟩
    · split
      · rename_i h1 h2
        subst h2
        by_cases hv : v = d
        · simp only [hv, if_true]; exact SMap.wfFrom_mono (Nat.le_trans hk (Nat.le_succ k)) hm.2
        · simp only [hv, if_false, SMap.wfFrom, Bool.and_eq_true, decide_eq_true_eq]
          exact ⟨⟨hk, hv⟩, hm.2⟩
      · simp only [SMap.wfFrom, Bool.and_eq_true, decide_eq_true_eq]
        exact ⟨hm.1, ih hm.2 (by omega)⟩

/-- A write keeps the canonical form. -/
theorem SMap.wf_set {m : SMap α} (hm : SMap.wf d m = true) (k : Nat) (v : α) : SMap.wf d (SMap.set d m k v) = true :=
  SMap.wfFrom_set hm (Nat.zero_le k) v

theorem SMap.wf_modify {m : SMap α} (hm : SMap.wf d m = true) (k : Nat) (f : α → α) :
    SMap.wf d (SMap.modify d m k f) = true := SMap.wf_set hm k _

theorem SMap.wfFrom_filter {m : SMap α} {b : Nat} (hm : SMap.wfFrom d b m = true) (p : Nat × α → Bool) :
    SMap.wfFrom d b (List.filter p m) = true := by
  induction m generalizing b with
  | nil => rfl
  | cons x t ih =>
    obtain ⟨i, w⟩ := x
    simp only [SMap.wfFrom, Bool.and_eq_true, decide_eq_true_eq] at hm
    by_cases hp : p (i, w) = true
    · simp only [List.filter_cons, hp, if_true, SMap.wfFrom, Bool.and_eq_true, decide_eq_true_eq]
      exact ⟨hm.1, ih hm.2⟩
    · simp only [List.filter_cons, hp]
      exact SMap.wfFrom_mono (by omega) (ih hm.2)

/-- Entries taken out keep the canonical form. -/
theorem SMap.wf_filter {m : SMap α} (hm : SMap.wf d m = true) (p : Nat × α → Bool) :
    SMap.wf d (List.filter p m) = true := SMap.wfFrom_filter hm p

/-- Writing back what is read changes nothing. -/
theorem SMap.set_get_from {m : SMap α} {b : Nat} (hm : SMap.wfFrom d b m = true) (k : Nat) :
    SMap.set d m k (SMap.get d m k) = m := by
  induction m generalizing b with
  | nil => simp [SMap.get, SMap.set]
  | cons x t ih =>
    obtain ⟨i, w⟩ := x
    simp only [SMap.wfFrom, Bool.and_eq_true, decide_eq_true_eq] at hm
    by_cases h : k = i
    · subst h; simp [SMap.get, SMap.set, hm.1.2]
    · by_cases hl : k < i
      · simp [SMap.get, SMap.set, h, hl]
      · simp [SMap.get, SMap.set, h, hl, ih hm.2]

theorem SMap.set_get {m : SMap α} (hm : SMap.wf d m = true) (k : Nat) : SMap.set d m k (SMap.get d m k) = m :=
  SMap.set_get_from hm k

/-! Byte memories. -/

theorem Mem.wf_putByte {m : Mem} (hm : m.wf = true) (a : Nat) (b : Byte) : (m.putByte a b).wf = true :=
  SMap.wf_set hm a b

theorem Mem.byte_putByte {m : Mem} (hm : m.wf = true) (a j : Nat) (b : Byte) :
    (m.putByte a b).byte j = if j = a then b else m.byte j := SMap.get_set hm a j b

/-- A write of bytes keeps the canonical form. -/
theorem Mem.wf_write {m : Mem} (hm : m.wf = true) (a : Nat) (bs : List Byte) : (m.write a bs).wf = true := by
  induction bs generalizing m a with
  | nil => exact hm
  | cons b t ih => exact ih (Mem.wf_putByte hm a b) (a + 1)

theorem Mem.wf_writeLe {m : Mem} (hm : m.wf = true) (a n v : Nat) : (m.writeLe a n v).wf = true := Mem.wf_write hm a _

/-- Clearing a run keeps the canonical form. -/
theorem Mem.wf_clear {m : Mem} (hm : m.wf = true) (lo n : Nat) : (m.clear lo n).wf = true := SMap.wf_filter hm _

/-- A write leaves every byte outside its run alone. -/
theorem Mem.byte_write_outside {m : Mem} (hm : m.wf = true) (a : Nat) (bs : List Byte) (j : Nat)
    (h : j < a ∨ a + bs.length ≤ j) : (m.write a bs).byte j = m.byte j := by
  induction bs generalizing m a with
  | nil => rfl
  | cons b t ih =>
    simp only [List.length_cons] at h
    have h1 : j < a + 1 ∨ a + 1 + t.length ≤ j := by omega
    rw [Mem.write, ih (Mem.wf_putByte hm a b) (a + 1) h1, Mem.byte_putByte hm]
    have : j ≠ a := by omega
    simp [this]

/-- A write puts each of its bytes where it says. -/
theorem Mem.byte_write_inside {m : Mem} (hm : m.wf = true) (a : Nat) (bs : List Byte) (i : Nat) (h : i < bs.length) :
    (m.write a bs).byte (a + i) = bs[i] := by
  induction bs generalizing m a i with
  | nil => simp at h
  | cons b t ih =>
    cases i with
    | zero =>
      rw [Mem.write, Mem.byte_write_outside (Mem.wf_putByte hm a b) (a + 1) t (a + 0) (by omega), Mem.byte_putByte hm]
      simp
    | succ k =>
      have hk : k < t.length := by simpa using h
      have := ih (Mem.wf_putByte hm a b) (a + 1) k hk
      rw [Mem.write, show a + (k + 1) = a + 1 + k by omega, this]
      simp

end Sys2Proof.Machine
end

