-- ==== Sys2Proof/Laws/State.lean ====
section
/-!
SUPPORT. What each update of the state leaves alone: one lemma for each field and each way of reading a unit; and reads
after updates.
-/
namespace Sys2Proof.Machine

/-! `setWordAt` changes `regs` alone. -/

@[simp] theorem State.setWordAt_pending (s : State) (pg : Page) (cp off v : Nat) : (s.setWordAt pg cp off v).pending = s.pending := rfl
@[simp] theorem State.setWordAt_ticks (s : State) (pg : Page) (cp off v : Nat) : (s.setWordAt pg cp off v).ticks = s.ticks := rfl
@[simp] theorem State.setWordAt_wlDone (s : State) (pg : Page) (cp off v : Nat) : (s.setWordAt pg cp off v).wlDone = s.wlDone := rfl
@[simp] theorem State.setWordAt_rhzNow (s : State) (pg : Page) (cp off v : Nat) : (s.setWordAt pg cp off v).rhzNow = s.rhzNow := rfl
@[simp] theorem State.setWordAt_pinnae (s : State) (pg : Page) (cp off v : Nat) : (s.setWordAt pg cp off v).pinnae = s.pinnae := rfl
@[simp] theorem State.setWordAt_fronds (s : State) (pg : Page) (cp off v : Nat) : (s.setWordAt pg cp off v).fronds = s.fronds := rfl
@[simp] theorem State.setWordAt_ctxs (s : State) (pg : Page) (cp off v : Nat) : (s.setWordAt pg cp off v).ctxs = s.ctxs := rfl
@[simp] theorem State.setWordAt_parts (s : State) (pg : Page) (cp off v : Nat) : (s.setWordAt pg cp off v).parts = s.parts := rfl
@[simp] theorem State.setWordAt_stackTab (s : State) (pg : Page) (cp off v : Nat) : (s.setWordAt pg cp off v).stackTab = s.stackTab := rfl
@[simp] theorem State.setWordAt_regions (s : State) (pg : Page) (cp off v : Nat) : (s.setWordAt pg cp off v).regions = s.regions := rfl
@[simp] theorem State.setWordAt_treeNet (s : State) (pg : Page) (cp off v : Nat) : (s.setWordAt pg cp off v).treeNet = s.treeNet := rfl
@[simp] theorem State.setWordAt_links (s : State) (pg : Page) (cp off v : Nat) : (s.setWordAt pg cp off v).links = s.links := rfl
@[simp] theorem State.setWordAt_nextWrite (s : State) (pg : Page) (cp off v : Nat) : (s.setWordAt pg cp off v).nextWrite = s.nextWrite := rfl
@[simp] theorem State.setWordAt_layout (s : State) (pg : Page) (cp off v : Nat) : (s.setWordAt pg cp off v).layout = s.layout := rfl
@[simp] theorem State.setWordAt_portOf (s : State) (pg : Page) (cp off v : Nat) : (s.setWordAt pg cp off v).portOf = s.portOf := rfl
@[simp] theorem State.setWordAt_clk (s : State) (pg : Page) (cp off v : Nat) : (s.setWordAt pg cp off v).clk = s.clk := rfl
@[simp] theorem State.setWordAt_thl (s : State) (pg : Page) (cp off v : Nat) : (s.setWordAt pg cp off v).thl = s.thl := rfl
@[simp] theorem State.setWordAt_tmb (s : State) (pg : Page) (cp off v : Nat) : (s.setWordAt pg cp off v).tmb = s.tmb := rfl
@[simp] theorem State.setWordAt_pwr (s : State) (pg : Page) (cp off v : Nat) : (s.setWordAt pg cp off v).pwr = s.pwr := rfl
@[simp] theorem State.setWordAt_met (s : State) (pg : Page) (cp off v : Nat) : (s.setWordAt pg cp off v).met = s.met := rfl
@[simp] theorem State.setWordAt_mgt (s : State) (pg : Page) (cp off v : Nat) : (s.setWordAt pg cp off v).mgt = s.mgt := rfl
@[simp] theorem State.setWordAt_ports (s : State) (pg : Page) (cp off v : Nat) : (s.setWordAt pg cp off v).ports = s.ports := rfl
@[simp] theorem State.setWordAt_log (s : State) (pg : Page) (cp off v : Nat) : (s.setWordAt pg cp off v).log = s.log := rfl
@[simp] theorem State.setWordAt_out (s : State) (pg : Page) (cp off v : Nat) : (s.setWordAt pg cp off v).out = s.out := rfl
@[simp] theorem State.setWordAt_freeCtr (s : State) (pg : Page) (cp off v : Nat) : (s.setWordAt pg cp off v).freeCtr = s.freeCtr := rfl
@[simp] theorem State.setWordAt_nextJob (s : State) (pg : Page) (cp off v : Nat) : (s.setWordAt pg cp off v).nextJob = s.nextJob := rfl
@[simp] theorem State.setWordAt_haltDev (s : State) (pg : Page) (cp off v : Nat) : (s.setWordAt pg cp off v).haltDev = s.haltDev := rfl
@[simp] theorem State.setWordAt_haltPart (s : State) (pg : Page) (cp off v : Nat) : (s.setWordAt pg cp off v).haltPart = s.haltPart := rfl
@[simp] theorem State.setWordAt_estHeld (s : State) (pg : Page) (cp off v : Nat) : (s.setWordAt pg cp off v).estHeld = s.estHeld := rfl
@[simp] theorem State.setWordAt_estWait (s : State) (pg : Page) (cp off v : Nat) : (s.setWordAt pg cp off v).estWait = s.estWait := rfl
@[simp] theorem State.setWordAt_rate (s : State) (pg : Page) (cp off v : Nat) : (s.setWordAt pg cp off v).rate = s.rate := rfl
@[simp] theorem State.setWordAt_pinna (s : State) (pg : Page) (cp off v : Nat) (i : Nat) : (s.setWordAt pg cp off v).pinna i = s.pinna i := rfl
@[simp] theorem State.setWordAt_frond (s : State) (pg : Page) (cp off v : Nat) (i : Nat) : (s.setWordAt pg cp off v).frond i = s.frond i := rfl
@[simp] theorem State.setWordAt_ctx (s : State) (pg : Page) (cp off v : Nat) (i : Nat) : (s.setWordAt pg cp off v).ctx i = s.ctx i := rfl
@[simp] theorem State.setWordAt_part (s : State) (pg : Page) (cp off v : Nat) (i : Nat) : (s.setWordAt pg cp off v).part i = s.part i := rfl
@[simp] theorem State.setWordAt_stack (s : State) (pg : Page) (cp off v : Nat) (i : Nat) : (s.setWordAt pg cp off v).stack i = s.stack i := rfl
@[simp] theorem State.setWordAt_link (s : State) (pg : Page) (cp off v : Nat) (i : Nat) : (s.setWordAt pg cp off v).link i = s.link i := rfl
@[simp] theorem State.setWordAt_region (s : State) (pg : Page) (cp off v : Nat) (i : Nat) : (s.setWordAt pg cp off v).region i = s.region i := rfl
@[simp] theorem State.setWordAt_port (s : State) (pg : Page) (cp off v : Nat) (i : Nat) : (s.setWordAt pg cp off v).port i = s.port i := rfl

/-! `setWord` changes `regs` alone. -/

@[simp] theorem State.setWord_pending (s : State) (pg : Page) (off v : Nat) : (s.setWord pg off v).pending = s.pending := rfl
@[simp] theorem State.setWord_ticks (s : State) (pg : Page) (off v : Nat) : (s.setWord pg off v).ticks = s.ticks := rfl
@[simp] theorem State.setWord_wlDone (s : State) (pg : Page) (off v : Nat) : (s.setWord pg off v).wlDone = s.wlDone := rfl
@[simp] theorem State.setWord_rhzNow (s : State) (pg : Page) (off v : Nat) : (s.setWord pg off v).rhzNow = s.rhzNow := rfl
@[simp] theorem State.setWord_pinnae (s : State) (pg : Page) (off v : Nat) : (s.setWord pg off v).pinnae = s.pinnae := rfl
@[simp] theorem State.setWord_fronds (s : State) (pg : Page) (off v : Nat) : (s.setWord pg off v).fronds = s.fronds := rfl
@[simp] theorem State.setWord_ctxs (s : State) (pg : Page) (off v : Nat) : (s.setWord pg off v).ctxs = s.ctxs := rfl
@[simp] theorem State.setWord_parts (s : State) (pg : Page) (off v : Nat) : (s.setWord pg off v).parts = s.parts := rfl
@[simp] theorem State.setWord_stackTab (s : State) (pg : Page) (off v : Nat) : (s.setWord pg off v).stackTab = s.stackTab := rfl
@[simp] theorem State.setWord_regions (s : State) (pg : Page) (off v : Nat) : (s.setWord pg off v).regions = s.regions := rfl
@[simp] theorem State.setWord_treeNet (s : State) (pg : Page) (off v : Nat) : (s.setWord pg off v).treeNet = s.treeNet := rfl
@[simp] theorem State.setWord_links (s : State) (pg : Page) (off v : Nat) : (s.setWord pg off v).links = s.links := rfl
@[simp] theorem State.setWord_nextWrite (s : State) (pg : Page) (off v : Nat) : (s.setWord pg off v).nextWrite = s.nextWrite := rfl
@[simp] theorem State.setWord_layout (s : State) (pg : Page) (off v : Nat) : (s.setWord pg off v).layout = s.layout := rfl
@[simp] theorem State.setWord_portOf (s : State) (pg : Page) (off v : Nat) : (s.setWord pg off v).portOf = s.portOf := rfl
@[simp] theorem State.setWord_clk (s : State) (pg : Page) (off v : Nat) : (s.setWord pg off v).clk = s.clk := rfl
@[simp] theorem State.setWord_thl (s : State) (pg : Page) (off v : Nat) : (s.setWord pg off v).thl = s.thl := rfl
@[simp] theorem State.setWord_tmb (s : State) (pg : Page) (off v : Nat) : (s.setWord pg off v).tmb = s.tmb := rfl
@[simp] theorem State.setWord_pwr (s : State) (pg : Page) (off v : Nat) : (s.setWord pg off v).pwr = s.pwr := rfl
@[simp] theorem State.setWord_met (s : State) (pg : Page) (off v : Nat) : (s.setWord pg off v).met = s.met := rfl
@[simp] theorem State.setWord_mgt (s : State) (pg : Page) (off v : Nat) : (s.setWord pg off v).mgt = s.mgt := rfl
@[simp] theorem State.setWord_ports (s : State) (pg : Page) (off v : Nat) : (s.setWord pg off v).ports = s.ports := rfl
@[simp] theorem State.setWord_log (s : State) (pg : Page) (off v : Nat) : (s.setWord pg off v).log = s.log := rfl
@[simp] theorem State.setWord_out (s : State) (pg : Page) (off v : Nat) : (s.setWord pg off v).out = s.out := rfl
@[simp] theorem State.setWord_freeCtr (s : State) (pg : Page) (off v : Nat) : (s.setWord pg off v).freeCtr = s.freeCtr := rfl
@[simp] theorem State.setWord_nextJob (s : State) (pg : Page) (off v : Nat) : (s.setWord pg off v).nextJob = s.nextJob := rfl
@[simp] theorem State.setWord_haltDev (s : State) (pg : Page) (off v : Nat) : (s.setWord pg off v).haltDev = s.haltDev := rfl
@[simp] theorem State.setWord_haltPart (s : State) (pg : Page) (off v : Nat) : (s.setWord pg off v).haltPart = s.haltPart := rfl
@[simp] theorem State.setWord_estHeld (s : State) (pg : Page) (off v : Nat) : (s.setWord pg off v).estHeld = s.estHeld := rfl
@[simp] theorem State.setWord_estWait (s : State) (pg : Page) (off v : Nat) : (s.setWord pg off v).estWait = s.estWait := rfl
@[simp] theorem State.setWord_rate (s : State) (pg : Page) (off v : Nat) : (s.setWord pg off v).rate = s.rate := rfl
@[simp] theorem State.setWord_pinna (s : State) (pg : Page) (off v : Nat) (i : Nat) : (s.setWord pg off v).pinna i = s.pinna i := rfl
@[simp] theorem State.setWord_frond (s : State) (pg : Page) (off v : Nat) (i : Nat) : (s.setWord pg off v).frond i = s.frond i := rfl
@[simp] theorem State.setWord_ctx (s : State) (pg : Page) (off v : Nat) (i : Nat) : (s.setWord pg off v).ctx i = s.ctx i := rfl
@[simp] theorem State.setWord_part (s : State) (pg : Page) (off v : Nat) (i : Nat) : (s.setWord pg off v).part i = s.part i := rfl
@[simp] theorem State.setWord_stack (s : State) (pg : Page) (off v : Nat) (i : Nat) : (s.setWord pg off v).stack i = s.stack i := rfl
@[simp] theorem State.setWord_link (s : State) (pg : Page) (off v : Nat) (i : Nat) : (s.setWord pg off v).link i = s.link i := rfl
@[simp] theorem State.setWord_region (s : State) (pg : Page) (off v : Nat) (i : Nat) : (s.setWord pg off v).region i = s.region i := rfl
@[simp] theorem State.setWord_port (s : State) (pg : Page) (off v : Nat) (i : Nat) : (s.setWord pg off v).port i = s.port i := rfl

/-! `emit` changes `out` alone. -/

@[simp] theorem State.emit_pending (s : State) (o : Out) : (s.emit o).pending = s.pending := rfl
@[simp] theorem State.emit_ticks (s : State) (o : Out) : (s.emit o).ticks = s.ticks := rfl
@[simp] theorem State.emit_regs (s : State) (o : Out) : (s.emit o).regs = s.regs := rfl
@[simp] theorem State.emit_wlDone (s : State) (o : Out) : (s.emit o).wlDone = s.wlDone := rfl
@[simp] theorem State.emit_rhzNow (s : State) (o : Out) : (s.emit o).rhzNow = s.rhzNow := rfl
@[simp] theorem State.emit_pinnae (s : State) (o : Out) : (s.emit o).pinnae = s.pinnae := rfl
@[simp] theorem State.emit_fronds (s : State) (o : Out) : (s.emit o).fronds = s.fronds := rfl
@[simp] theorem State.emit_ctxs (s : State) (o : Out) : (s.emit o).ctxs = s.ctxs := rfl
@[simp] theorem State.emit_parts (s : State) (o : Out) : (s.emit o).parts = s.parts := rfl
@[simp] theorem State.emit_stackTab (s : State) (o : Out) : (s.emit o).stackTab = s.stackTab := rfl
@[simp] theorem State.emit_regions (s : State) (o : Out) : (s.emit o).regions = s.regions := rfl
@[simp] theorem State.emit_treeNet (s : State) (o : Out) : (s.emit o).treeNet = s.treeNet := rfl
@[simp] theorem State.emit_links (s : State) (o : Out) : (s.emit o).links = s.links := rfl
@[simp] theorem State.emit_nextWrite (s : State) (o : Out) : (s.emit o).nextWrite = s.nextWrite := rfl
@[simp] theorem State.emit_layout (s : State) (o : Out) : (s.emit o).layout = s.layout := rfl
@[simp] theorem State.emit_portOf (s : State) (o : Out) : (s.emit o).portOf = s.portOf := rfl
@[simp] theorem State.emit_clk (s : State) (o : Out) : (s.emit o).clk = s.clk := rfl
@[simp] theorem State.emit_thl (s : State) (o : Out) : (s.emit o).thl = s.thl := rfl
@[simp] theorem State.emit_tmb (s : State) (o : Out) : (s.emit o).tmb = s.tmb := rfl
@[simp] theorem State.emit_pwr (s : State) (o : Out) : (s.emit o).pwr = s.pwr := rfl
@[simp] theorem State.emit_met (s : State) (o : Out) : (s.emit o).met = s.met := rfl
@[simp] theorem State.emit_mgt (s : State) (o : Out) : (s.emit o).mgt = s.mgt := rfl
@[simp] theorem State.emit_ports (s : State) (o : Out) : (s.emit o).ports = s.ports := rfl
@[simp] theorem State.emit_log (s : State) (o : Out) : (s.emit o).log = s.log := rfl
@[simp] theorem State.emit_freeCtr (s : State) (o : Out) : (s.emit o).freeCtr = s.freeCtr := rfl
@[simp] theorem State.emit_nextJob (s : State) (o : Out) : (s.emit o).nextJob = s.nextJob := rfl
@[simp] theorem State.emit_haltDev (s : State) (o : Out) : (s.emit o).haltDev = s.haltDev := rfl
@[simp] theorem State.emit_haltPart (s : State) (o : Out) : (s.emit o).haltPart = s.haltPart := rfl
@[simp] theorem State.emit_estHeld (s : State) (o : Out) : (s.emit o).estHeld = s.estHeld := rfl
@[simp] theorem State.emit_estWait (s : State) (o : Out) : (s.emit o).estWait = s.estWait := rfl
@[simp] theorem State.emit_rate (s : State) (o : Out) : (s.emit o).rate = s.rate := rfl
@[simp] theorem State.emit_pinna (s : State) (o : Out) (i : Nat) : (s.emit o).pinna i = s.pinna i := rfl
@[simp] theorem State.emit_frond (s : State) (o : Out) (i : Nat) : (s.emit o).frond i = s.frond i := rfl
@[simp] theorem State.emit_ctx (s : State) (o : Out) (i : Nat) : (s.emit o).ctx i = s.ctx i := rfl
@[simp] theorem State.emit_part (s : State) (o : Out) (i : Nat) : (s.emit o).part i = s.part i := rfl
@[simp] theorem State.emit_stack (s : State) (o : Out) (i : Nat) : (s.emit o).stack i = s.stack i := rfl
@[simp] theorem State.emit_link (s : State) (o : Out) (i : Nat) : (s.emit o).link i = s.link i := rfl
@[simp] theorem State.emit_region (s : State) (o : Out) (i : Nat) : (s.emit o).region i = s.region i := rfl
@[simp] theorem State.emit_port (s : State) (o : Out) (i : Nat) : (s.emit o).port i = s.port i := rfl
@[simp] theorem State.emit_wordAt (s : State) (o : Out) (q : Page) (c i : Nat) : (s.emit o).wordAt q c i = s.wordAt q c i := rfl
@[simp] theorem State.emit_word (s : State) (o : Out) (q : Page) (i : Nat) : (s.emit o).word q i = s.word q i := rfl

/-! `tookFree` changes `freeCtr` alone. -/

@[simp] theorem State.tookFree_pending (s : State) (n : Nat) : (s.tookFree n).pending = s.pending := rfl
@[simp] theorem State.tookFree_ticks (s : State) (n : Nat) : (s.tookFree n).ticks = s.ticks := rfl
@[simp] theorem State.tookFree_regs (s : State) (n : Nat) : (s.tookFree n).regs = s.regs := rfl
@[simp] theorem State.tookFree_wlDone (s : State) (n : Nat) : (s.tookFree n).wlDone = s.wlDone := rfl
@[simp] theorem State.tookFree_rhzNow (s : State) (n : Nat) : (s.tookFree n).rhzNow = s.rhzNow := rfl
@[simp] theorem State.tookFree_pinnae (s : State) (n : Nat) : (s.tookFree n).pinnae = s.pinnae := rfl
@[simp] theorem State.tookFree_fronds (s : State) (n : Nat) : (s.tookFree n).fronds = s.fronds := rfl
@[simp] theorem State.tookFree_ctxs (s : State) (n : Nat) : (s.tookFree n).ctxs = s.ctxs := rfl
@[simp] theorem State.tookFree_parts (s : State) (n : Nat) : (s.tookFree n).parts = s.parts := rfl
@[simp] theorem State.tookFree_stackTab (s : State) (n : Nat) : (s.tookFree n).stackTab = s.stackTab := rfl
@[simp] theorem State.tookFree_regions (s : State) (n : Nat) : (s.tookFree n).regions = s.regions := rfl
@[simp] theorem State.tookFree_treeNet (s : State) (n : Nat) : (s.tookFree n).treeNet = s.treeNet := rfl
@[simp] theorem State.tookFree_links (s : State) (n : Nat) : (s.tookFree n).links = s.links := rfl
@[simp] theorem State.tookFree_nextWrite (s : State) (n : Nat) : (s.tookFree n).nextWrite = s.nextWrite := rfl
@[simp] theorem State.tookFree_layout (s : State) (n : Nat) : (s.tookFree n).layout = s.layout := rfl
@[simp] theorem State.tookFree_portOf (s : State) (n : Nat) : (s.tookFree n).portOf = s.portOf := rfl
@[simp] theorem State.tookFree_clk (s : State) (n : Nat) : (s.tookFree n).clk = s.clk := rfl
@[simp] theorem State.tookFree_thl (s : State) (n : Nat) : (s.tookFree n).thl = s.thl := rfl
@[simp] theorem State.tookFree_tmb (s : State) (n : Nat) : (s.tookFree n).tmb = s.tmb := rfl
@[simp] theorem State.tookFree_pwr (s : State) (n : Nat) : (s.tookFree n).pwr = s.pwr := rfl
@[simp] theorem State.tookFree_met (s : State) (n : Nat) : (s.tookFree n).met = s.met := rfl
@[simp] theorem State.tookFree_mgt (s : State) (n : Nat) : (s.tookFree n).mgt = s.mgt := rfl
@[simp] theorem State.tookFree_ports (s : State) (n : Nat) : (s.tookFree n).ports = s.ports := rfl
@[simp] theorem State.tookFree_log (s : State) (n : Nat) : (s.tookFree n).log = s.log := rfl
@[simp] theorem State.tookFree_out (s : State) (n : Nat) : (s.tookFree n).out = s.out := rfl
@[simp] theorem State.tookFree_nextJob (s : State) (n : Nat) : (s.tookFree n).nextJob = s.nextJob := rfl
@[simp] theorem State.tookFree_haltDev (s : State) (n : Nat) : (s.tookFree n).haltDev = s.haltDev := rfl
@[simp] theorem State.tookFree_haltPart (s : State) (n : Nat) : (s.tookFree n).haltPart = s.haltPart := rfl
@[simp] theorem State.tookFree_estHeld (s : State) (n : Nat) : (s.tookFree n).estHeld = s.estHeld := rfl
@[simp] theorem State.tookFree_estWait (s : State) (n : Nat) : (s.tookFree n).estWait = s.estWait := rfl
@[simp] theorem State.tookFree_rate (s : State) (n : Nat) : (s.tookFree n).rate = s.rate := rfl
@[simp] theorem State.tookFree_pinna (s : State) (n : Nat) (i : Nat) : (s.tookFree n).pinna i = s.pinna i := rfl
@[simp] theorem State.tookFree_frond (s : State) (n : Nat) (i : Nat) : (s.tookFree n).frond i = s.frond i := rfl
@[simp] theorem State.tookFree_ctx (s : State) (n : Nat) (i : Nat) : (s.tookFree n).ctx i = s.ctx i := rfl
@[simp] theorem State.tookFree_part (s : State) (n : Nat) (i : Nat) : (s.tookFree n).part i = s.part i := rfl
@[simp] theorem State.tookFree_stack (s : State) (n : Nat) (i : Nat) : (s.tookFree n).stack i = s.stack i := rfl
@[simp] theorem State.tookFree_link (s : State) (n : Nat) (i : Nat) : (s.tookFree n).link i = s.link i := rfl
@[simp] theorem State.tookFree_region (s : State) (n : Nat) (i : Nat) : (s.tookFree n).region i = s.region i := rfl
@[simp] theorem State.tookFree_port (s : State) (n : Nat) (i : Nat) : (s.tookFree n).port i = s.port i := rfl
@[simp] theorem State.tookFree_wordAt (s : State) (n : Nat) (q : Page) (c i : Nat) : (s.tookFree n).wordAt q c i = s.wordAt q c i := rfl
@[simp] theorem State.tookFree_word (s : State) (n : Nat) (q : Page) (i : Nat) : (s.tookFree n).word q i = s.word q i := rfl

/-! `setPort` changes `ports` alone. -/

@[simp] theorem State.setPort_pending (s : State) (x : Nat) (y : Port) : (s.setPort x y).pending = s.pending := rfl
@[simp] theorem State.setPort_ticks (s : State) (x : Nat) (y : Port) : (s.setPort x y).ticks = s.ticks := rfl
@[simp] theorem State.setPort_regs (s : State) (x : Nat) (y : Port) : (s.setPort x y).regs = s.regs := rfl
@[simp] theorem State.setPort_wlDone (s : State) (x : Nat) (y : Port) : (s.setPort x y).wlDone = s.wlDone := rfl
@[simp] theorem State.setPort_rhzNow (s : State) (x : Nat) (y : Port) : (s.setPort x y).rhzNow = s.rhzNow := rfl
@[simp] theorem State.setPort_pinnae (s : State) (x : Nat) (y : Port) : (s.setPort x y).pinnae = s.pinnae := rfl
@[simp] theorem State.setPort_fronds (s : State) (x : Nat) (y : Port) : (s.setPort x y).fronds = s.fronds := rfl
@[simp] theorem State.setPort_ctxs (s : State) (x : Nat) (y : Port) : (s.setPort x y).ctxs = s.ctxs := rfl
@[simp] theorem State.setPort_parts (s : State) (x : Nat) (y : Port) : (s.setPort x y).parts = s.parts := rfl
@[simp] theorem State.setPort_stackTab (s : State) (x : Nat) (y : Port) : (s.setPort x y).stackTab = s.stackTab := rfl
@[simp] theorem State.setPort_regions (s : State) (x : Nat) (y : Port) : (s.setPort x y).regions = s.regions := rfl
@[simp] theorem State.setPort_treeNet (s : State) (x : Nat) (y : Port) : (s.setPort x y).treeNet = s.treeNet := rfl
@[simp] theorem State.setPort_links (s : State) (x : Nat) (y : Port) : (s.setPort x y).links = s.links := rfl
@[simp] theorem State.setPort_nextWrite (s : State) (x : Nat) (y : Port) : (s.setPort x y).nextWrite = s.nextWrite := rfl
@[simp] theorem State.setPort_layout (s : State) (x : Nat) (y : Port) : (s.setPort x y).layout = s.layout := rfl
@[simp] theorem State.setPort_portOf (s : State) (x : Nat) (y : Port) : (s.setPort x y).portOf = s.portOf := rfl
@[simp] theorem State.setPort_clk (s : State) (x : Nat) (y : Port) : (s.setPort x y).clk = s.clk := rfl
@[simp] theorem State.setPort_thl (s : State) (x : Nat) (y : Port) : (s.setPort x y).thl = s.thl := rfl
@[simp] theorem State.setPort_tmb (s : State) (x : Nat) (y : Port) : (s.setPort x y).tmb = s.tmb := rfl
@[simp] theorem State.setPort_pwr (s : State) (x : Nat) (y : Port) : (s.setPort x y).pwr = s.pwr := rfl
@[simp] theorem State.setPort_met (s : State) (x : Nat) (y : Port) : (s.setPort x y).met = s.met := rfl
@[simp] theorem State.setPort_mgt (s : State) (x : Nat) (y : Port) : (s.setPort x y).mgt = s.mgt := rfl
@[simp] theorem State.setPort_log (s : State) (x : Nat) (y : Port) : (s.setPort x y).log = s.log := rfl
@[simp] theorem State.setPort_out (s : State) (x : Nat) (y : Port) : (s.setPort x y).out = s.out := rfl
@[simp] theorem State.setPort_freeCtr (s : State) (x : Nat) (y : Port) : (s.setPort x y).freeCtr = s.freeCtr := rfl
@[simp] theorem State.setPort_nextJob (s : State) (x : Nat) (y : Port) : (s.setPort x y).nextJob = s.nextJob := rfl
@[simp] theorem State.setPort_haltDev (s : State) (x : Nat) (y : Port) : (s.setPort x y).haltDev = s.haltDev := rfl
@[simp] theorem State.setPort_haltPart (s : State) (x : Nat) (y : Port) : (s.setPort x y).haltPart = s.haltPart := rfl
@[simp] theorem State.setPort_estHeld (s : State) (x : Nat) (y : Port) : (s.setPort x y).estHeld = s.estHeld := rfl
@[simp] theorem State.setPort_estWait (s : State) (x : Nat) (y : Port) : (s.setPort x y).estWait = s.estWait := rfl
@[simp] theorem State.setPort_rate (s : State) (x : Nat) (y : Port) : (s.setPort x y).rate = s.rate := rfl
@[simp] theorem State.setPort_pinna (s : State) (x : Nat) (y : Port) (i : Nat) : (s.setPort x y).pinna i = s.pinna i := rfl
@[simp] theorem State.setPort_frond (s : State) (x : Nat) (y : Port) (i : Nat) : (s.setPort x y).frond i = s.frond i := rfl
@[simp] theorem State.setPort_ctx (s : State) (x : Nat) (y : Port) (i : Nat) : (s.setPort x y).ctx i = s.ctx i := rfl
@[simp] theorem State.setPort_part (s : State) (x : Nat) (y : Port) (i : Nat) : (s.setPort x y).part i = s.part i := rfl
@[simp] theorem State.setPort_stack (s : State) (x : Nat) (y : Port) (i : Nat) : (s.setPort x y).stack i = s.stack i := rfl
@[simp] theorem State.setPort_link (s : State) (x : Nat) (y : Port) (i : Nat) : (s.setPort x y).link i = s.link i := rfl
@[simp] theorem State.setPort_region (s : State) (x : Nat) (y : Port) (i : Nat) : (s.setPort x y).region i = s.region i := rfl
@[simp] theorem State.setPort_wordAt (s : State) (x : Nat) (y : Port) (q : Page) (c i : Nat) : (s.setPort x y).wordAt q c i = s.wordAt q c i := rfl
@[simp] theorem State.setPort_word (s : State) (x : Nat) (y : Port) (q : Page) (i : Nat) : (s.setPort x y).word q i = s.word q i := rfl

/-! `setPinna` changes `pinnae` alone. -/

@[simp] theorem State.setPinna_pending (s : State) (n : Nat) (y : Pinna) : (s.setPinna n y).pending = s.pending := rfl
@[simp] theorem State.setPinna_ticks (s : State) (n : Nat) (y : Pinna) : (s.setPinna n y).ticks = s.ticks := rfl
@[simp] theorem State.setPinna_regs (s : State) (n : Nat) (y : Pinna) : (s.setPinna n y).regs = s.regs := rfl
@[simp] theorem State.setPinna_wlDone (s : State) (n : Nat) (y : Pinna) : (s.setPinna n y).wlDone = s.wlDone := rfl
@[simp] theorem State.setPinna_rhzNow (s : State) (n : Nat) (y : Pinna) : (s.setPinna n y).rhzNow = s.rhzNow := rfl
@[simp] theorem State.setPinna_fronds (s : State) (n : Nat) (y : Pinna) : (s.setPinna n y).fronds = s.fronds := rfl
@[simp] theorem State.setPinna_ctxs (s : State) (n : Nat) (y : Pinna) : (s.setPinna n y).ctxs = s.ctxs := rfl
@[simp] theorem State.setPinna_parts (s : State) (n : Nat) (y : Pinna) : (s.setPinna n y).parts = s.parts := rfl
@[simp] theorem State.setPinna_stackTab (s : State) (n : Nat) (y : Pinna) : (s.setPinna n y).stackTab = s.stackTab := rfl
@[simp] theorem State.setPinna_regions (s : State) (n : Nat) (y : Pinna) : (s.setPinna n y).regions = s.regions := rfl
@[simp] theorem State.setPinna_treeNet (s : State) (n : Nat) (y : Pinna) : (s.setPinna n y).treeNet = s.treeNet := rfl
@[simp] theorem State.setPinna_links (s : State) (n : Nat) (y : Pinna) : (s.setPinna n y).links = s.links := rfl
@[simp] theorem State.setPinna_nextWrite (s : State) (n : Nat) (y : Pinna) : (s.setPinna n y).nextWrite = s.nextWrite := rfl
@[simp] theorem State.setPinna_layout (s : State) (n : Nat) (y : Pinna) : (s.setPinna n y).layout = s.layout := rfl
@[simp] theorem State.setPinna_portOf (s : State) (n : Nat) (y : Pinna) : (s.setPinna n y).portOf = s.portOf := rfl
@[simp] theorem State.setPinna_clk (s : State) (n : Nat) (y : Pinna) : (s.setPinna n y).clk = s.clk := rfl
@[simp] theorem State.setPinna_thl (s : State) (n : Nat) (y : Pinna) : (s.setPinna n y).thl = s.thl := rfl
@[simp] theorem State.setPinna_tmb (s : State) (n : Nat) (y : Pinna) : (s.setPinna n y).tmb = s.tmb := rfl
@[simp] theorem State.setPinna_pwr (s : State) (n : Nat) (y : Pinna) : (s.setPinna n y).pwr = s.pwr := rfl
@[simp] theorem State.setPinna_met (s : State) (n : Nat) (y : Pinna) : (s.setPinna n y).met = s.met := rfl
@[simp] theorem State.setPinna_mgt (s : State) (n : Nat) (y : Pinna) : (s.setPinna n y).mgt = s.mgt := rfl
@[simp] theorem State.setPinna_ports (s : State) (n : Nat) (y : Pinna) : (s.setPinna n y).ports = s.ports := rfl
@[simp] theorem State.setPinna_log (s : State) (n : Nat) (y : Pinna) : (s.setPinna n y).log = s.log := rfl
@[simp] theorem State.setPinna_out (s : State) (n : Nat) (y : Pinna) : (s.setPinna n y).out = s.out := rfl
@[simp] theorem State.setPinna_freeCtr (s : State) (n : Nat) (y : Pinna) : (s.setPinna n y).freeCtr = s.freeCtr := rfl
@[simp] theorem State.setPinna_nextJob (s : State) (n : Nat) (y : Pinna) : (s.setPinna n y).nextJob = s.nextJob := rfl
@[simp] theorem State.setPinna_haltDev (s : State) (n : Nat) (y : Pinna) : (s.setPinna n y).haltDev = s.haltDev := rfl
@[simp] theorem State.setPinna_haltPart (s : State) (n : Nat) (y : Pinna) : (s.setPinna n y).haltPart = s.haltPart := rfl
@[simp] theorem State.setPinna_estHeld (s : State) (n : Nat) (y : Pinna) : (s.setPinna n y).estHeld = s.estHeld := rfl
@[simp] theorem State.setPinna_estWait (s : State) (n : Nat) (y : Pinna) : (s.setPinna n y).estWait = s.estWait := rfl
@[simp] theorem State.setPinna_rate (s : State) (n : Nat) (y : Pinna) : (s.setPinna n y).rate = s.rate := rfl
@[simp] theorem State.setPinna_frond (s : State) (n : Nat) (y : Pinna) (i : Nat) : (s.setPinna n y).frond i = s.frond i := rfl
@[simp] theorem State.setPinna_ctx (s : State) (n : Nat) (y : Pinna) (i : Nat) : (s.setPinna n y).ctx i = s.ctx i := rfl
@[simp] theorem State.setPinna_part (s : State) (n : Nat) (y : Pinna) (i : Nat) : (s.setPinna n y).part i = s.part i := rfl
@[simp] theorem State.setPinna_stack (s : State) (n : Nat) (y : Pinna) (i : Nat) : (s.setPinna n y).stack i = s.stack i := rfl
@[simp] theorem State.setPinna_link (s : State) (n : Nat) (y : Pinna) (i : Nat) : (s.setPinna n y).link i = s.link i := rfl
@[simp] theorem State.setPinna_region (s : State) (n : Nat) (y : Pinna) (i : Nat) : (s.setPinna n y).region i = s.region i := rfl
@[simp] theorem State.setPinna_port (s : State) (n : Nat) (y : Pinna) (i : Nat) : (s.setPinna n y).port i = s.port i := rfl
@[simp] theorem State.setPinna_wordAt (s : State) (n : Nat) (y : Pinna) (q : Page) (c i : Nat) : (s.setPinna n y).wordAt q c i = s.wordAt q c i := rfl
@[simp] theorem State.setPinna_word (s : State) (n : Nat) (y : Pinna) (q : Page) (i : Nat) : (s.setPinna n y).word q i = s.word q i := rfl

/-! `setFrond` changes `fronds` alone. -/

@[simp] theorem State.setFrond_pending (s : State) (n : Nat) (y : Frond) : (s.setFrond n y).pending = s.pending := rfl
@[simp] theorem State.setFrond_ticks (s : State) (n : Nat) (y : Frond) : (s.setFrond n y).ticks = s.ticks := rfl
@[simp] theorem State.setFrond_regs (s : State) (n : Nat) (y : Frond) : (s.setFrond n y).regs = s.regs := rfl
@[simp] theorem State.setFrond_wlDone (s : State) (n : Nat) (y : Frond) : (s.setFrond n y).wlDone = s.wlDone := rfl
@[simp] theorem State.setFrond_rhzNow (s : State) (n : Nat) (y : Frond) : (s.setFrond n y).rhzNow = s.rhzNow := rfl
@[simp] theorem State.setFrond_pinnae (s : State) (n : Nat) (y : Frond) : (s.setFrond n y).pinnae = s.pinnae := rfl
@[simp] theorem State.setFrond_ctxs (s : State) (n : Nat) (y : Frond) : (s.setFrond n y).ctxs = s.ctxs := rfl
@[simp] theorem State.setFrond_parts (s : State) (n : Nat) (y : Frond) : (s.setFrond n y).parts = s.parts := rfl
@[simp] theorem State.setFrond_stackTab (s : State) (n : Nat) (y : Frond) : (s.setFrond n y).stackTab = s.stackTab := rfl
@[simp] theorem State.setFrond_regions (s : State) (n : Nat) (y : Frond) : (s.setFrond n y).regions = s.regions := rfl
@[simp] theorem State.setFrond_treeNet (s : State) (n : Nat) (y : Frond) : (s.setFrond n y).treeNet = s.treeNet := rfl
@[simp] theorem State.setFrond_links (s : State) (n : Nat) (y : Frond) : (s.setFrond n y).links = s.links := rfl
@[simp] theorem State.setFrond_nextWrite (s : State) (n : Nat) (y : Frond) : (s.setFrond n y).nextWrite = s.nextWrite := rfl
@[simp] theorem State.setFrond_layout (s : State) (n : Nat) (y : Frond) : (s.setFrond n y).layout = s.layout := rfl
@[simp] theorem State.setFrond_portOf (s : State) (n : Nat) (y : Frond) : (s.setFrond n y).portOf = s.portOf := rfl
@[simp] theorem State.setFrond_clk (s : State) (n : Nat) (y : Frond) : (s.setFrond n y).clk = s.clk := rfl
@[simp] theorem State.setFrond_thl (s : State) (n : Nat) (y : Frond) : (s.setFrond n y).thl = s.thl := rfl
@[simp] theorem State.setFrond_tmb (s : State) (n : Nat) (y : Frond) : (s.setFrond n y).tmb = s.tmb := rfl
@[simp] theorem State.setFrond_pwr (s : State) (n : Nat) (y : Frond) : (s.setFrond n y).pwr = s.pwr := rfl
@[simp] theorem State.setFrond_met (s : State) (n : Nat) (y : Frond) : (s.setFrond n y).met = s.met := rfl
@[simp] theorem State.setFrond_mgt (s : State) (n : Nat) (y : Frond) : (s.setFrond n y).mgt = s.mgt := rfl
@[simp] theorem State.setFrond_ports (s : State) (n : Nat) (y : Frond) : (s.setFrond n y).ports = s.ports := rfl
@[simp] theorem State.setFrond_log (s : State) (n : Nat) (y : Frond) : (s.setFrond n y).log = s.log := rfl
@[simp] theorem State.setFrond_out (s : State) (n : Nat) (y : Frond) : (s.setFrond n y).out = s.out := rfl
@[simp] theorem State.setFrond_freeCtr (s : State) (n : Nat) (y : Frond) : (s.setFrond n y).freeCtr = s.freeCtr := rfl
@[simp] theorem State.setFrond_nextJob (s : State) (n : Nat) (y : Frond) : (s.setFrond n y).nextJob = s.nextJob := rfl
@[simp] theorem State.setFrond_haltDev (s : State) (n : Nat) (y : Frond) : (s.setFrond n y).haltDev = s.haltDev := rfl
@[simp] theorem State.setFrond_haltPart (s : State) (n : Nat) (y : Frond) : (s.setFrond n y).haltPart = s.haltPart := rfl
@[simp] theorem State.setFrond_estHeld (s : State) (n : Nat) (y : Frond) : (s.setFrond n y).estHeld = s.estHeld := rfl
@[simp] theorem State.setFrond_estWait (s : State) (n : Nat) (y : Frond) : (s.setFrond n y).estWait = s.estWait := rfl
@[simp] theorem State.setFrond_rate (s : State) (n : Nat) (y : Frond) : (s.setFrond n y).rate = s.rate := rfl
@[simp] theorem State.setFrond_pinna (s : State) (n : Nat) (y : Frond) (i : Nat) : (s.setFrond n y).pinna i = s.pinna i := rfl
@[simp] theorem State.setFrond_ctx (s : State) (n : Nat) (y : Frond) (i : Nat) : (s.setFrond n y).ctx i = s.ctx i := rfl
@[simp] theorem State.setFrond_part (s : State) (n : Nat) (y : Frond) (i : Nat) : (s.setFrond n y).part i = s.part i := rfl
@[simp] theorem State.setFrond_stack (s : State) (n : Nat) (y : Frond) (i : Nat) : (s.setFrond n y).stack i = s.stack i := rfl
@[simp] theorem State.setFrond_link (s : State) (n : Nat) (y : Frond) (i : Nat) : (s.setFrond n y).link i = s.link i := rfl
@[simp] theorem State.setFrond_region (s : State) (n : Nat) (y : Frond) (i : Nat) : (s.setFrond n y).region i = s.region i := rfl
@[simp] theorem State.setFrond_port (s : State) (n : Nat) (y : Frond) (i : Nat) : (s.setFrond n y).port i = s.port i := rfl
@[simp] theorem State.setFrond_wordAt (s : State) (n : Nat) (y : Frond) (q : Page) (c i : Nat) : (s.setFrond n y).wordAt q c i = s.wordAt q c i := rfl
@[simp] theorem State.setFrond_word (s : State) (n : Nat) (y : Frond) (q : Page) (i : Nat) : (s.setFrond n y).word q i = s.word q i := rfl

/-! `setCtx` changes `ctxs` alone. -/

@[simp] theorem State.setCtx_pending (s : State) (n : Nat) (y : Context) : (s.setCtx n y).pending = s.pending := rfl
@[simp] theorem State.setCtx_ticks (s : State) (n : Nat) (y : Context) : (s.setCtx n y).ticks = s.ticks := rfl
@[simp] theorem State.setCtx_regs (s : State) (n : Nat) (y : Context) : (s.setCtx n y).regs = s.regs := rfl
@[simp] theorem State.setCtx_wlDone (s : State) (n : Nat) (y : Context) : (s.setCtx n y).wlDone = s.wlDone := rfl
@[simp] theorem State.setCtx_rhzNow (s : State) (n : Nat) (y : Context) : (s.setCtx n y).rhzNow = s.rhzNow := rfl
@[simp] theorem State.setCtx_pinnae (s : State) (n : Nat) (y : Context) : (s.setCtx n y).pinnae = s.pinnae := rfl
@[simp] theorem State.setCtx_fronds (s : State) (n : Nat) (y : Context) : (s.setCtx n y).fronds = s.fronds := rfl
@[simp] theorem State.setCtx_parts (s : State) (n : Nat) (y : Context) : (s.setCtx n y).parts = s.parts := rfl
@[simp] theorem State.setCtx_stackTab (s : State) (n : Nat) (y : Context) : (s.setCtx n y).stackTab = s.stackTab := rfl
@[simp] theorem State.setCtx_regions (s : State) (n : Nat) (y : Context) : (s.setCtx n y).regions = s.regions := rfl
@[simp] theorem State.setCtx_treeNet (s : State) (n : Nat) (y : Context) : (s.setCtx n y).treeNet = s.treeNet := rfl
@[simp] theorem State.setCtx_links (s : State) (n : Nat) (y : Context) : (s.setCtx n y).links = s.links := rfl
@[simp] theorem State.setCtx_nextWrite (s : State) (n : Nat) (y : Context) : (s.setCtx n y).nextWrite = s.nextWrite := rfl
@[simp] theorem State.setCtx_layout (s : State) (n : Nat) (y : Context) : (s.setCtx n y).layout = s.layout := rfl
@[simp] theorem State.setCtx_portOf (s : State) (n : Nat) (y : Context) : (s.setCtx n y).portOf = s.portOf := rfl
@[simp] theorem State.setCtx_clk (s : State) (n : Nat) (y : Context) : (s.setCtx n y).clk = s.clk := rfl
@[simp] theorem State.setCtx_thl (s : State) (n : Nat) (y : Context) : (s.setCtx n y).thl = s.thl := rfl
@[simp] theorem State.setCtx_tmb (s : State) (n : Nat) (y : Context) : (s.setCtx n y).tmb = s.tmb := rfl
@[simp] theorem State.setCtx_pwr (s : State) (n : Nat) (y : Context) : (s.setCtx n y).pwr = s.pwr := rfl
@[simp] theorem State.setCtx_met (s : State) (n : Nat) (y : Context) : (s.setCtx n y).met = s.met := rfl
@[simp] theorem State.setCtx_mgt (s : State) (n : Nat) (y : Context) : (s.setCtx n y).mgt = s.mgt := rfl
@[simp] theorem State.setCtx_ports (s : State) (n : Nat) (y : Context) : (s.setCtx n y).ports = s.ports := rfl
@[simp] theorem State.setCtx_log (s : State) (n : Nat) (y : Context) : (s.setCtx n y).log = s.log := rfl
@[simp] theorem State.setCtx_out (s : State) (n : Nat) (y : Context) : (s.setCtx n y).out = s.out := rfl
@[simp] theorem State.setCtx_freeCtr (s : State) (n : Nat) (y : Context) : (s.setCtx n y).freeCtr = s.freeCtr := rfl
@[simp] theorem State.setCtx_nextJob (s : State) (n : Nat) (y : Context) : (s.setCtx n y).nextJob = s.nextJob := rfl
@[simp] theorem State.setCtx_haltDev (s : State) (n : Nat) (y : Context) : (s.setCtx n y).haltDev = s.haltDev := rfl
@[simp] theorem State.setCtx_haltPart (s : State) (n : Nat) (y : Context) : (s.setCtx n y).haltPart = s.haltPart := rfl
@[simp] theorem State.setCtx_estHeld (s : State) (n : Nat) (y : Context) : (s.setCtx n y).estHeld = s.estHeld := rfl
@[simp] theorem State.setCtx_estWait (s : State) (n : Nat) (y : Context) : (s.setCtx n y).estWait = s.estWait := rfl
@[simp] theorem State.setCtx_rate (s : State) (n : Nat) (y : Context) : (s.setCtx n y).rate = s.rate := rfl
@[simp] theorem State.setCtx_pinna (s : State) (n : Nat) (y : Context) (i : Nat) : (s.setCtx n y).pinna i = s.pinna i := rfl
@[simp] theorem State.setCtx_frond (s : State) (n : Nat) (y : Context) (i : Nat) : (s.setCtx n y).frond i = s.frond i := rfl
@[simp] theorem State.setCtx_part (s : State) (n : Nat) (y : Context) (i : Nat) : (s.setCtx n y).part i = s.part i := rfl
@[simp] theorem State.setCtx_stack (s : State) (n : Nat) (y : Context) (i : Nat) : (s.setCtx n y).stack i = s.stack i := rfl
@[simp] theorem State.setCtx_link (s : State) (n : Nat) (y : Context) (i : Nat) : (s.setCtx n y).link i = s.link i := rfl
@[simp] theorem State.setCtx_region (s : State) (n : Nat) (y : Context) (i : Nat) : (s.setCtx n y).region i = s.region i := rfl
@[simp] theorem State.setCtx_port (s : State) (n : Nat) (y : Context) (i : Nat) : (s.setCtx n y).port i = s.port i := rfl
@[simp] theorem State.setCtx_wordAt (s : State) (n : Nat) (y : Context) (q : Page) (c i : Nat) : (s.setCtx n y).wordAt q c i = s.wordAt q c i := rfl
@[simp] theorem State.setCtx_word (s : State) (n : Nat) (y : Context) (q : Page) (i : Nat) : (s.setCtx n y).word q i = s.word q i := rfl

/-! `setPart` changes `parts` alone. -/

@[simp] theorem State.setPart_pending (s : State) (n : Nat) (y : Partition) : (s.setPart n y).pending = s.pending := rfl
@[simp] theorem State.setPart_ticks (s : State) (n : Nat) (y : Partition) : (s.setPart n y).ticks = s.ticks := rfl
@[simp] theorem State.setPart_regs (s : State) (n : Nat) (y : Partition) : (s.setPart n y).regs = s.regs := rfl
@[simp] theorem State.setPart_wlDone (s : State) (n : Nat) (y : Partition) : (s.setPart n y).wlDone = s.wlDone := rfl
@[simp] theorem State.setPart_rhzNow (s : State) (n : Nat) (y : Partition) : (s.setPart n y).rhzNow = s.rhzNow := rfl
@[simp] theorem State.setPart_pinnae (s : State) (n : Nat) (y : Partition) : (s.setPart n y).pinnae = s.pinnae := rfl
@[simp] theorem State.setPart_fronds (s : State) (n : Nat) (y : Partition) : (s.setPart n y).fronds = s.fronds := rfl
@[simp] theorem State.setPart_ctxs (s : State) (n : Nat) (y : Partition) : (s.setPart n y).ctxs = s.ctxs := rfl
@[simp] theorem State.setPart_stackTab (s : State) (n : Nat) (y : Partition) : (s.setPart n y).stackTab = s.stackTab := rfl
@[simp] theorem State.setPart_regions (s : State) (n : Nat) (y : Partition) : (s.setPart n y).regions = s.regions := rfl
@[simp] theorem State.setPart_treeNet (s : State) (n : Nat) (y : Partition) : (s.setPart n y).treeNet = s.treeNet := rfl
@[simp] theorem State.setPart_links (s : State) (n : Nat) (y : Partition) : (s.setPart n y).links = s.links := rfl
@[simp] theorem State.setPart_nextWrite (s : State) (n : Nat) (y : Partition) : (s.setPart n y).nextWrite = s.nextWrite := rfl
@[simp] theorem State.setPart_layout (s : State) (n : Nat) (y : Partition) : (s.setPart n y).layout = s.layout := rfl
@[simp] theorem State.setPart_portOf (s : State) (n : Nat) (y : Partition) : (s.setPart n y).portOf = s.portOf := rfl
@[simp] theorem State.setPart_clk (s : State) (n : Nat) (y : Partition) : (s.setPart n y).clk = s.clk := rfl
@[simp] theorem State.setPart_thl (s : State) (n : Nat) (y : Partition) : (s.setPart n y).thl = s.thl := rfl
@[simp] theorem State.setPart_tmb (s : State) (n : Nat) (y : Partition) : (s.setPart n y).tmb = s.tmb := rfl
@[simp] theorem State.setPart_pwr (s : State) (n : Nat) (y : Partition) : (s.setPart n y).pwr = s.pwr := rfl
@[simp] theorem State.setPart_met (s : State) (n : Nat) (y : Partition) : (s.setPart n y).met = s.met := rfl
@[simp] theorem State.setPart_mgt (s : State) (n : Nat) (y : Partition) : (s.setPart n y).mgt = s.mgt := rfl
@[simp] theorem State.setPart_ports (s : State) (n : Nat) (y : Partition) : (s.setPart n y).ports = s.ports := rfl
@[simp] theorem State.setPart_log (s : State) (n : Nat) (y : Partition) : (s.setPart n y).log = s.log := rfl
@[simp] theorem State.setPart_out (s : State) (n : Nat) (y : Partition) : (s.setPart n y).out = s.out := rfl
@[simp] theorem State.setPart_freeCtr (s : State) (n : Nat) (y : Partition) : (s.setPart n y).freeCtr = s.freeCtr := rfl
@[simp] theorem State.setPart_nextJob (s : State) (n : Nat) (y : Partition) : (s.setPart n y).nextJob = s.nextJob := rfl
@[simp] theorem State.setPart_haltDev (s : State) (n : Nat) (y : Partition) : (s.setPart n y).haltDev = s.haltDev := rfl
@[simp] theorem State.setPart_haltPart (s : State) (n : Nat) (y : Partition) : (s.setPart n y).haltPart = s.haltPart := rfl
@[simp] theorem State.setPart_estHeld (s : State) (n : Nat) (y : Partition) : (s.setPart n y).estHeld = s.estHeld := rfl
@[simp] theorem State.setPart_estWait (s : State) (n : Nat) (y : Partition) : (s.setPart n y).estWait = s.estWait := rfl
@[simp] theorem State.setPart_rate (s : State) (n : Nat) (y : Partition) : (s.setPart n y).rate = s.rate := rfl
@[simp] theorem State.setPart_pinna (s : State) (n : Nat) (y : Partition) (i : Nat) : (s.setPart n y).pinna i = s.pinna i := rfl
@[simp] theorem State.setPart_frond (s : State) (n : Nat) (y : Partition) (i : Nat) : (s.setPart n y).frond i = s.frond i := rfl
@[simp] theorem State.setPart_ctx (s : State) (n : Nat) (y : Partition) (i : Nat) : (s.setPart n y).ctx i = s.ctx i := rfl
@[simp] theorem State.setPart_stack (s : State) (n : Nat) (y : Partition) (i : Nat) : (s.setPart n y).stack i = s.stack i := rfl
@[simp] theorem State.setPart_link (s : State) (n : Nat) (y : Partition) (i : Nat) : (s.setPart n y).link i = s.link i := rfl
@[simp] theorem State.setPart_region (s : State) (n : Nat) (y : Partition) (i : Nat) : (s.setPart n y).region i = s.region i := rfl
@[simp] theorem State.setPart_port (s : State) (n : Nat) (y : Partition) (i : Nat) : (s.setPart n y).port i = s.port i := rfl
@[simp] theorem State.setPart_wordAt (s : State) (n : Nat) (y : Partition) (q : Page) (c i : Nat) : (s.setPart n y).wordAt q c i = s.wordAt q c i := rfl
@[simp] theorem State.setPart_word (s : State) (n : Nat) (y : Partition) (q : Page) (i : Nat) : (s.setPart n y).word q i = s.word q i := rfl

/-! `setStack` changes `stackTab` alone. -/

@[simp] theorem State.setStack_pending (s : State) (n : Nat) (y : Stack) : (s.setStack n y).pending = s.pending := rfl
@[simp] theorem State.setStack_ticks (s : State) (n : Nat) (y : Stack) : (s.setStack n y).ticks = s.ticks := rfl
@[simp] theorem State.setStack_regs (s : State) (n : Nat) (y : Stack) : (s.setStack n y).regs = s.regs := rfl
@[simp] theorem State.setStack_wlDone (s : State) (n : Nat) (y : Stack) : (s.setStack n y).wlDone = s.wlDone := rfl
@[simp] theorem State.setStack_rhzNow (s : State) (n : Nat) (y : Stack) : (s.setStack n y).rhzNow = s.rhzNow := rfl
@[simp] theorem State.setStack_pinnae (s : State) (n : Nat) (y : Stack) : (s.setStack n y).pinnae = s.pinnae := rfl
@[simp] theorem State.setStack_fronds (s : State) (n : Nat) (y : Stack) : (s.setStack n y).fronds = s.fronds := rfl
@[simp] theorem State.setStack_ctxs (s : State) (n : Nat) (y : Stack) : (s.setStack n y).ctxs = s.ctxs := rfl
@[simp] theorem State.setStack_parts (s : State) (n : Nat) (y : Stack) : (s.setStack n y).parts = s.parts := rfl
@[simp] theorem State.setStack_regions (s : State) (n : Nat) (y : Stack) : (s.setStack n y).regions = s.regions := rfl
@[simp] theorem State.setStack_treeNet (s : State) (n : Nat) (y : Stack) : (s.setStack n y).treeNet = s.treeNet := rfl
@[simp] theorem State.setStack_links (s : State) (n : Nat) (y : Stack) : (s.setStack n y).links = s.links := rfl
@[simp] theorem State.setStack_nextWrite (s : State) (n : Nat) (y : Stack) : (s.setStack n y).nextWrite = s.nextWrite := rfl
@[simp] theorem State.setStack_layout (s : State) (n : Nat) (y : Stack) : (s.setStack n y).layout = s.layout := rfl
@[simp] theorem State.setStack_portOf (s : State) (n : Nat) (y : Stack) : (s.setStack n y).portOf = s.portOf := rfl
@[simp] theorem State.setStack_clk (s : State) (n : Nat) (y : Stack) : (s.setStack n y).clk = s.clk := rfl
@[simp] theorem State.setStack_thl (s : State) (n : Nat) (y : Stack) : (s.setStack n y).thl = s.thl := rfl
@[simp] theorem State.setStack_tmb (s : State) (n : Nat) (y : Stack) : (s.setStack n y).tmb = s.tmb := rfl
@[simp] theorem State.setStack_pwr (s : State) (n : Nat) (y : Stack) : (s.setStack n y).pwr = s.pwr := rfl
@[simp] theorem State.setStack_met (s : State) (n : Nat) (y : Stack) : (s.setStack n y).met = s.met := rfl
@[simp] theorem State.setStack_mgt (s : State) (n : Nat) (y : Stack) : (s.setStack n y).mgt = s.mgt := rfl
@[simp] theorem State.setStack_ports (s : State) (n : Nat) (y : Stack) : (s.setStack n y).ports = s.ports := rfl
@[simp] theorem State.setStack_log (s : State) (n : Nat) (y : Stack) : (s.setStack n y).log = s.log := rfl
@[simp] theorem State.setStack_out (s : State) (n : Nat) (y : Stack) : (s.setStack n y).out = s.out := rfl
@[simp] theorem State.setStack_freeCtr (s : State) (n : Nat) (y : Stack) : (s.setStack n y).freeCtr = s.freeCtr := rfl
@[simp] theorem State.setStack_nextJob (s : State) (n : Nat) (y : Stack) : (s.setStack n y).nextJob = s.nextJob := rfl
@[simp] theorem State.setStack_haltDev (s : State) (n : Nat) (y : Stack) : (s.setStack n y).haltDev = s.haltDev := rfl
@[simp] theorem State.setStack_haltPart (s : State) (n : Nat) (y : Stack) : (s.setStack n y).haltPart = s.haltPart := rfl
@[simp] theorem State.setStack_estHeld (s : State) (n : Nat) (y : Stack) : (s.setStack n y).estHeld = s.estHeld := rfl
@[simp] theorem State.setStack_estWait (s : State) (n : Nat) (y : Stack) : (s.setStack n y).estWait = s.estWait := rfl
@[simp] theorem State.setStack_rate (s : State) (n : Nat) (y : Stack) : (s.setStack n y).rate = s.rate := rfl
@[simp] theorem State.setStack_pinna (s : State) (n : Nat) (y : Stack) (i : Nat) : (s.setStack n y).pinna i = s.pinna i := rfl
@[simp] theorem State.setStack_frond (s : State) (n : Nat) (y : Stack) (i : Nat) : (s.setStack n y).frond i = s.frond i := rfl
@[simp] theorem State.setStack_ctx (s : State) (n : Nat) (y : Stack) (i : Nat) : (s.setStack n y).ctx i = s.ctx i := rfl
@[simp] theorem State.setStack_part (s : State) (n : Nat) (y : Stack) (i : Nat) : (s.setStack n y).part i = s.part i := rfl
@[simp] theorem State.setStack_link (s : State) (n : Nat) (y : Stack) (i : Nat) : (s.setStack n y).link i = s.link i := rfl
@[simp] theorem State.setStack_region (s : State) (n : Nat) (y : Stack) (i : Nat) : (s.setStack n y).region i = s.region i := rfl
@[simp] theorem State.setStack_port (s : State) (n : Nat) (y : Stack) (i : Nat) : (s.setStack n y).port i = s.port i := rfl
@[simp] theorem State.setStack_wordAt (s : State) (n : Nat) (y : Stack) (q : Page) (c i : Nat) : (s.setStack n y).wordAt q c i = s.wordAt q c i := rfl
@[simp] theorem State.setStack_word (s : State) (n : Nat) (y : Stack) (q : Page) (i : Nat) : (s.setStack n y).word q i = s.word q i := rfl

/-! `setLink` changes `links` alone. -/

@[simp] theorem State.setLink_pending (s : State) (n : Nat) (y : Link) : (s.setLink n y).pending = s.pending := rfl
@[simp] theorem State.setLink_ticks (s : State) (n : Nat) (y : Link) : (s.setLink n y).ticks = s.ticks := rfl
@[simp] theorem State.setLink_regs (s : State) (n : Nat) (y : Link) : (s.setLink n y).regs = s.regs := rfl
@[simp] theorem State.setLink_wlDone (s : State) (n : Nat) (y : Link) : (s.setLink n y).wlDone = s.wlDone := rfl
@[simp] theorem State.setLink_rhzNow (s : State) (n : Nat) (y : Link) : (s.setLink n y).rhzNow = s.rhzNow := rfl
@[simp] theorem State.setLink_pinnae (s : State) (n : Nat) (y : Link) : (s.setLink n y).pinnae = s.pinnae := rfl
@[simp] theorem State.setLink_fronds (s : State) (n : Nat) (y : Link) : (s.setLink n y).fronds = s.fronds := rfl
@[simp] theorem State.setLink_ctxs (s : State) (n : Nat) (y : Link) : (s.setLink n y).ctxs = s.ctxs := rfl
@[simp] theorem State.setLink_parts (s : State) (n : Nat) (y : Link) : (s.setLink n y).parts = s.parts := rfl
@[simp] theorem State.setLink_stackTab (s : State) (n : Nat) (y : Link) : (s.setLink n y).stackTab = s.stackTab := rfl
@[simp] theorem State.setLink_regions (s : State) (n : Nat) (y : Link) : (s.setLink n y).regions = s.regions := rfl
@[simp] theorem State.setLink_treeNet (s : State) (n : Nat) (y : Link) : (s.setLink n y).treeNet = s.treeNet := rfl
@[simp] theorem State.setLink_nextWrite (s : State) (n : Nat) (y : Link) : (s.setLink n y).nextWrite = s.nextWrite := rfl
@[simp] theorem State.setLink_layout (s : State) (n : Nat) (y : Link) : (s.setLink n y).layout = s.layout := rfl
@[simp] theorem State.setLink_portOf (s : State) (n : Nat) (y : Link) : (s.setLink n y).portOf = s.portOf := rfl
@[simp] theorem State.setLink_clk (s : State) (n : Nat) (y : Link) : (s.setLink n y).clk = s.clk := rfl
@[simp] theorem State.setLink_thl (s : State) (n : Nat) (y : Link) : (s.setLink n y).thl = s.thl := rfl
@[simp] theorem State.setLink_tmb (s : State) (n : Nat) (y : Link) : (s.setLink n y).tmb = s.tmb := rfl
@[simp] theorem State.setLink_pwr (s : State) (n : Nat) (y : Link) : (s.setLink n y).pwr = s.pwr := rfl
@[simp] theorem State.setLink_met (s : State) (n : Nat) (y : Link) : (s.setLink n y).met = s.met := rfl
@[simp] theorem State.setLink_mgt (s : State) (n : Nat) (y : Link) : (s.setLink n y).mgt = s.mgt := rfl
@[simp] theorem State.setLink_ports (s : State) (n : Nat) (y : Link) : (s.setLink n y).ports = s.ports := rfl
@[simp] theorem State.setLink_log (s : State) (n : Nat) (y : Link) : (s.setLink n y).log = s.log := rfl
@[simp] theorem State.setLink_out (s : State) (n : Nat) (y : Link) : (s.setLink n y).out = s.out := rfl
@[simp] theorem State.setLink_freeCtr (s : State) (n : Nat) (y : Link) : (s.setLink n y).freeCtr = s.freeCtr := rfl
@[simp] theorem State.setLink_nextJob (s : State) (n : Nat) (y : Link) : (s.setLink n y).nextJob = s.nextJob := rfl
@[simp] theorem State.setLink_haltDev (s : State) (n : Nat) (y : Link) : (s.setLink n y).haltDev = s.haltDev := rfl
@[simp] theorem State.setLink_haltPart (s : State) (n : Nat) (y : Link) : (s.setLink n y).haltPart = s.haltPart := rfl
@[simp] theorem State.setLink_estHeld (s : State) (n : Nat) (y : Link) : (s.setLink n y).estHeld = s.estHeld := rfl
@[simp] theorem State.setLink_estWait (s : State) (n : Nat) (y : Link) : (s.setLink n y).estWait = s.estWait := rfl
@[simp] theorem State.setLink_rate (s : State) (n : Nat) (y : Link) : (s.setLink n y).rate = s.rate := rfl
@[simp] theorem State.setLink_pinna (s : State) (n : Nat) (y : Link) (i : Nat) : (s.setLink n y).pinna i = s.pinna i := rfl
@[simp] theorem State.setLink_frond (s : State) (n : Nat) (y : Link) (i : Nat) : (s.setLink n y).frond i = s.frond i := rfl
@[simp] theorem State.setLink_ctx (s : State) (n : Nat) (y : Link) (i : Nat) : (s.setLink n y).ctx i = s.ctx i := rfl
@[simp] theorem State.setLink_part (s : State) (n : Nat) (y : Link) (i : Nat) : (s.setLink n y).part i = s.part i := rfl
@[simp] theorem State.setLink_stack (s : State) (n : Nat) (y : Link) (i : Nat) : (s.setLink n y).stack i = s.stack i := rfl
@[simp] theorem State.setLink_region (s : State) (n : Nat) (y : Link) (i : Nat) : (s.setLink n y).region i = s.region i := rfl
@[simp] theorem State.setLink_port (s : State) (n : Nat) (y : Link) (i : Nat) : (s.setLink n y).port i = s.port i := rfl
@[simp] theorem State.setLink_wordAt (s : State) (n : Nat) (y : Link) (q : Page) (c i : Nat) : (s.setLink n y).wordAt q c i = s.wordAt q c i := rfl
@[simp] theorem State.setLink_word (s : State) (n : Nat) (y : Link) (q : Page) (i : Nat) : (s.setLink n y).word q i = s.word q i := rfl

/-! `setRegion` changes `regions` alone. -/

@[simp] theorem State.setRegion_pending (s : State) (n : Nat) (y : Region) : (s.setRegion n y).pending = s.pending := rfl
@[simp] theorem State.setRegion_ticks (s : State) (n : Nat) (y : Region) : (s.setRegion n y).ticks = s.ticks := rfl
@[simp] theorem State.setRegion_regs (s : State) (n : Nat) (y : Region) : (s.setRegion n y).regs = s.regs := rfl
@[simp] theorem State.setRegion_wlDone (s : State) (n : Nat) (y : Region) : (s.setRegion n y).wlDone = s.wlDone := rfl
@[simp] theorem State.setRegion_rhzNow (s : State) (n : Nat) (y : Region) : (s.setRegion n y).rhzNow = s.rhzNow := rfl
@[simp] theorem State.setRegion_pinnae (s : State) (n : Nat) (y : Region) : (s.setRegion n y).pinnae = s.pinnae := rfl
@[simp] theorem State.setRegion_fronds (s : State) (n : Nat) (y : Region) : (s.setRegion n y).fronds = s.fronds := rfl
@[simp] theorem State.setRegion_ctxs (s : State) (n : Nat) (y : Region) : (s.setRegion n y).ctxs = s.ctxs := rfl
@[simp] theorem State.setRegion_parts (s : State) (n : Nat) (y : Region) : (s.setRegion n y).parts = s.parts := rfl
@[simp] theorem State.setRegion_stackTab (s : State) (n : Nat) (y : Region) : (s.setRegion n y).stackTab = s.stackTab := rfl
@[simp] theorem State.setRegion_treeNet (s : State) (n : Nat) (y : Region) : (s.setRegion n y).treeNet = s.treeNet := rfl
@[simp] theorem State.setRegion_links (s : State) (n : Nat) (y : Region) : (s.setRegion n y).links = s.links := rfl
@[simp] theorem State.setRegion_nextWrite (s : State) (n : Nat) (y : Region) : (s.setRegion n y).nextWrite = s.nextWrite := rfl
@[simp] theorem State.setRegion_layout (s : State) (n : Nat) (y : Region) : (s.setRegion n y).layout = s.layout := rfl
@[simp] theorem State.setRegion_portOf (s : State) (n : Nat) (y : Region) : (s.setRegion n y).portOf = s.portOf := rfl
@[simp] theorem State.setRegion_clk (s : State) (n : Nat) (y : Region) : (s.setRegion n y).clk = s.clk := rfl
@[simp] theorem State.setRegion_thl (s : State) (n : Nat) (y : Region) : (s.setRegion n y).thl = s.thl := rfl
@[simp] theorem State.setRegion_tmb (s : State) (n : Nat) (y : Region) : (s.setRegion n y).tmb = s.tmb := rfl
@[simp] theorem State.setRegion_pwr (s : State) (n : Nat) (y : Region) : (s.setRegion n y).pwr = s.pwr := rfl
@[simp] theorem State.setRegion_met (s : State) (n : Nat) (y : Region) : (s.setRegion n y).met = s.met := rfl
@[simp] theorem State.setRegion_mgt (s : State) (n : Nat) (y : Region) : (s.setRegion n y).mgt = s.mgt := rfl
@[simp] theorem State.setRegion_ports (s : State) (n : Nat) (y : Region) : (s.setRegion n y).ports = s.ports := rfl
@[simp] theorem State.setRegion_log (s : State) (n : Nat) (y : Region) : (s.setRegion n y).log = s.log := rfl
@[simp] theorem State.setRegion_out (s : State) (n : Nat) (y : Region) : (s.setRegion n y).out = s.out := rfl
@[simp] theorem State.setRegion_freeCtr (s : State) (n : Nat) (y : Region) : (s.setRegion n y).freeCtr = s.freeCtr := rfl
@[simp] theorem State.setRegion_nextJob (s : State) (n : Nat) (y : Region) : (s.setRegion n y).nextJob = s.nextJob := rfl
@[simp] theorem State.setRegion_haltDev (s : State) (n : Nat) (y : Region) : (s.setRegion n y).haltDev = s.haltDev := rfl
@[simp] theorem State.setRegion_haltPart (s : State) (n : Nat) (y : Region) : (s.setRegion n y).haltPart = s.haltPart := rfl
@[simp] theorem State.setRegion_estHeld (s : State) (n : Nat) (y : Region) : (s.setRegion n y).estHeld = s.estHeld := rfl
@[simp] theorem State.setRegion_estWait (s : State) (n : Nat) (y : Region) : (s.setRegion n y).estWait = s.estWait := rfl
@[simp] theorem State.setRegion_rate (s : State) (n : Nat) (y : Region) : (s.setRegion n y).rate = s.rate := rfl
@[simp] theorem State.setRegion_pinna (s : State) (n : Nat) (y : Region) (i : Nat) : (s.setRegion n y).pinna i = s.pinna i := rfl
@[simp] theorem State.setRegion_frond (s : State) (n : Nat) (y : Region) (i : Nat) : (s.setRegion n y).frond i = s.frond i := rfl
@[simp] theorem State.setRegion_ctx (s : State) (n : Nat) (y : Region) (i : Nat) : (s.setRegion n y).ctx i = s.ctx i := rfl
@[simp] theorem State.setRegion_part (s : State) (n : Nat) (y : Region) (i : Nat) : (s.setRegion n y).part i = s.part i := rfl
@[simp] theorem State.setRegion_stack (s : State) (n : Nat) (y : Region) (i : Nat) : (s.setRegion n y).stack i = s.stack i := rfl
@[simp] theorem State.setRegion_link (s : State) (n : Nat) (y : Region) (i : Nat) : (s.setRegion n y).link i = s.link i := rfl
@[simp] theorem State.setRegion_port (s : State) (n : Nat) (y : Region) (i : Nat) : (s.setRegion n y).port i = s.port i := rfl
@[simp] theorem State.setRegion_wordAt (s : State) (n : Nat) (y : Region) (q : Page) (c i : Nat) : (s.setRegion n y).wordAt q c i = s.wordAt q c i := rfl
@[simp] theorem State.setRegion_word (s : State) (n : Nat) (y : Region) (q : Page) (i : Nat) : (s.setRegion n y).word q i = s.word q i := rfl

/-! `rateNote` changes `rate` alone. -/

@[simp] theorem State.rateNote_pending (s : State) (key : Nat) : (s.rateNote key).pending = s.pending := rfl
@[simp] theorem State.rateNote_ticks (s : State) (key : Nat) : (s.rateNote key).ticks = s.ticks := rfl
@[simp] theorem State.rateNote_regs (s : State) (key : Nat) : (s.rateNote key).regs = s.regs := rfl
@[simp] theorem State.rateNote_wlDone (s : State) (key : Nat) : (s.rateNote key).wlDone = s.wlDone := rfl
@[simp] theorem State.rateNote_rhzNow (s : State) (key : Nat) : (s.rateNote key).rhzNow = s.rhzNow := rfl
@[simp] theorem State.rateNote_pinnae (s : State) (key : Nat) : (s.rateNote key).pinnae = s.pinnae := rfl
@[simp] theorem State.rateNote_fronds (s : State) (key : Nat) : (s.rateNote key).fronds = s.fronds := rfl
@[simp] theorem State.rateNote_ctxs (s : State) (key : Nat) : (s.rateNote key).ctxs = s.ctxs := rfl
@[simp] theorem State.rateNote_parts (s : State) (key : Nat) : (s.rateNote key).parts = s.parts := rfl
@[simp] theorem State.rateNote_stackTab (s : State) (key : Nat) : (s.rateNote key).stackTab = s.stackTab := rfl
@[simp] theorem State.rateNote_regions (s : State) (key : Nat) : (s.rateNote key).regions = s.regions := rfl
@[simp] theorem State.rateNote_treeNet (s : State) (key : Nat) : (s.rateNote key).treeNet = s.treeNet := rfl
@[simp] theorem State.rateNote_links (s : State) (key : Nat) : (s.rateNote key).links = s.links := rfl
@[simp] theorem State.rateNote_nextWrite (s : State) (key : Nat) : (s.rateNote key).nextWrite = s.nextWrite := rfl
@[simp] theorem State.rateNote_layout (s : State) (key : Nat) : (s.rateNote key).layout = s.layout := rfl
@[simp] theorem State.rateNote_portOf (s : State) (key : Nat) : (s.rateNote key).portOf = s.portOf := rfl
@[simp] theorem State.rateNote_clk (s : State) (key : Nat) : (s.rateNote key).clk = s.clk := rfl
@[simp] theorem State.rateNote_thl (s : State) (key : Nat) : (s.rateNote key).thl = s.thl := rfl
@[simp] theorem State.rateNote_tmb (s : State) (key : Nat) : (s.rateNote key).tmb = s.tmb := rfl
@[simp] theorem State.rateNote_pwr (s : State) (key : Nat) : (s.rateNote key).pwr = s.pwr := rfl
@[simp] theorem State.rateNote_met (s : State) (key : Nat) : (s.rateNote key).met = s.met := rfl
@[simp] theorem State.rateNote_mgt (s : State) (key : Nat) : (s.rateNote key).mgt = s.mgt := rfl
@[simp] theorem State.rateNote_ports (s : State) (key : Nat) : (s.rateNote key).ports = s.ports := rfl
@[simp] theorem State.rateNote_log (s : State) (key : Nat) : (s.rateNote key).log = s.log := rfl
@[simp] theorem State.rateNote_out (s : State) (key : Nat) : (s.rateNote key).out = s.out := rfl
@[simp] theorem State.rateNote_freeCtr (s : State) (key : Nat) : (s.rateNote key).freeCtr = s.freeCtr := rfl
@[simp] theorem State.rateNote_nextJob (s : State) (key : Nat) : (s.rateNote key).nextJob = s.nextJob := rfl
@[simp] theorem State.rateNote_haltDev (s : State) (key : Nat) : (s.rateNote key).haltDev = s.haltDev := rfl
@[simp] theorem State.rateNote_haltPart (s : State) (key : Nat) : (s.rateNote key).haltPart = s.haltPart := rfl
@[simp] theorem State.rateNote_estHeld (s : State) (key : Nat) : (s.rateNote key).estHeld = s.estHeld := rfl
@[simp] theorem State.rateNote_estWait (s : State) (key : Nat) : (s.rateNote key).estWait = s.estWait := rfl
@[simp] theorem State.rateNote_pinna (s : State) (key : Nat) (i : Nat) : (s.rateNote key).pinna i = s.pinna i := rfl
@[simp] theorem State.rateNote_frond (s : State) (key : Nat) (i : Nat) : (s.rateNote key).frond i = s.frond i := rfl
@[simp] theorem State.rateNote_ctx (s : State) (key : Nat) (i : Nat) : (s.rateNote key).ctx i = s.ctx i := rfl
@[simp] theorem State.rateNote_part (s : State) (key : Nat) (i : Nat) : (s.rateNote key).part i = s.part i := rfl
@[simp] theorem State.rateNote_stack (s : State) (key : Nat) (i : Nat) : (s.rateNote key).stack i = s.stack i := rfl
@[simp] theorem State.rateNote_link (s : State) (key : Nat) (i : Nat) : (s.rateNote key).link i = s.link i := rfl
@[simp] theorem State.rateNote_region (s : State) (key : Nat) (i : Nat) : (s.rateNote key).region i = s.region i := rfl
@[simp] theorem State.rateNote_port (s : State) (key : Nat) (i : Nat) : (s.rateNote key).port i = s.port i := rfl
@[simp] theorem State.rateNote_wordAt (s : State) (key : Nat) (q : Page) (c i : Nat) : (s.rateNote key).wordAt q c i = s.wordAt q c i := rfl
@[simp] theorem State.rateNote_word (s : State) (key : Nat) (q : Page) (i : Nat) : (s.rateNote key).word q i = s.word q i := rfl

/-! A unit read after it is set. -/

theorem State.pinna_setPinna (s : State) (h : SMap.wf {} s.pinnae = true) (n i : Nat) (y : Pinna) :
    (s.setPinna n y).pinna i = if i = n then y else s.pinna i := SMap.get_set h n i y

theorem State.frond_setFrond (s : State) (h : SMap.wf {} s.fronds = true) (n i : Nat) (y : Frond) :
    (s.setFrond n y).frond i = if i = n then y else s.frond i := SMap.get_set h n i y

theorem State.ctx_setCtx (s : State) (h : SMap.wf {} s.ctxs = true) (n i : Nat) (y : Context) :
    (s.setCtx n y).ctx i = if i = n then y else s.ctx i := SMap.get_set h n i y

theorem State.part_setPart (s : State) (h : SMap.wf {} s.parts = true) (n i : Nat) (y : Partition) :
    (s.setPart n y).part i = if i = n then y else s.part i := SMap.get_set h n i y

theorem State.stack_setStack (s : State) (h : SMap.wf {} s.stackTab = true) (n i : Nat) (y : Stack) :
    (s.setStack n y).stack i = if i = n then y else s.stack i := SMap.get_set h n i y

theorem State.link_setLink (s : State) (h : SMap.wf {} s.links = true) (n i : Nat) (y : Link) :
    (s.setLink n y).link i = if i = n then y else s.link i := SMap.get_set h n i y

theorem State.region_setRegion (s : State) (h : SMap.wf {} s.regions = true) (n i : Nat) (y : Region) :
    (s.setRegion n y).region i = if i = n then y else s.region i := SMap.get_set h n i y

theorem State.port_setPort (s : State) (h : SMap.wf {} s.ports = true) (n i : Nat) (y : Port) :
    (s.setPort n y).port i = if i = n then y else s.port i := SMap.get_set h n i y

/-! Register words. -/

/-- A word read after a word is set. -/
theorem State.wordAt_setWordAt (s : State) (h : SMap.wf 0#32 s.regs = true) (pg q : Page) (cp c off o v : Nat) :
    (s.setWordAt pg cp off v).wordAt q c o =
      if regKey q c o = regKey pg cp off then (BitVec.ofNat 32 v ^^^ BitVec.ofNat 32 (pg.resetWord off)
        ^^^ BitVec.ofNat 32 (q.resetWord o)).toNat else s.wordAt q c o := by
  simp only [State.wordAt, State.setWordAt, SMap.get_set h]
  split <;> rfl

theorem State.wordAt_setWordAt_same (s : State) (h : SMap.wf 0#32 s.regs = true) (pg : Page) (cp off v : Nat) :
    (s.setWordAt pg cp off v).wordAt pg cp off = v % 2 ^ 32 := by
  rw [State.wordAt_setWordAt s h, if_pos rfl, BitVec.xor_assoc, BitVec.xor_self, BitVec.xor_zero, BitVec.toNat_ofNat]

theorem State.wordAt_setWordAt_other (s : State) (h : SMap.wf 0#32 s.regs = true) (pg q : Page) (cp c off o v : Nat)
    (hk : regKey q c o ≠ regKey pg cp off) : (s.setWordAt pg cp off v).wordAt q c o = s.wordAt q c o := by
  rw [State.wordAt_setWordAt s h, if_neg hk]

theorem State.word_setWord_same (s : State) (h : SMap.wf 0#32 s.regs = true) (pg : Page) (off v : Nat) :
    (s.setWord pg off v).word pg off = v % 2 ^ 32 := State.wordAt_setWordAt_same s h pg 0 off v

theorem State.word_setWord_other (s : State) (h : SMap.wf 0#32 s.regs = true) (pg q : Page) (off o v : Nat)
    (hk : regKey q 0 o ≠ regKey pg 0 off) : (s.setWord pg off v).word q o = s.word q o :=
  State.wordAt_setWordAt_other s h pg q 0 0 off o v hk

/-- A register word is a number of 32 bits. -/
theorem State.wordAt_lt (s : State) (pg : Page) (cp off : Nat) : s.wordAt pg cp off < 2 ^ 32 := BitVec.isLt _

/-- Words of one page differ where their offsets do, below the end of the page. -/
theorem regKey_ne_off {pg : Page} {a b : Nat} (h : a / 4 ≠ b / 4) : regKey pg 0 a ≠ regKey pg 0 b := by
  unfold regKey; omega

/-- Words of different pages differ. -/
theorem regKey_ne_page {pg q : Page} {c d a b : Nat} (h : pg.id ≠ q.id) (hc : c < 2) (hd : d < 2) (ha : a < 4096) (hb : b < 4096) :
    regKey pg c a ≠ regKey q d b := by
  unfold regKey; omega

/-- A write of words changes registers alone. -/
theorem State.setWords_regs_only (s : State) (pg : Page) (off n v : Nat) :
    s.setWords pg off n v = { s with regs := (s.setWords pg off n v).regs } := by
  induction n generalizing s off v with
  | zero => rfl
  | succ n ih => rw [State.setWords, ih]; rfl

/-- A write of words keeps the canonical form. -/
theorem State.setWords_wf (s : State) (h : SMap.wf 0#32 s.regs = true) (pg : Page) (off n v : Nat) :
    SMap.wf 0#32 (s.setWords pg off n v).regs = true := by
  induction n generalizing s off v with
  | zero => exact h
  | succ n ih => exact ih _ (SMap.wf_set h _ _) _ _

theorem State.setFld_regs_only (s : State) (pg : Page) (off hi lo v : Nat) :
    s.setFld pg off hi lo v = { s with regs := (s.setFld pg off hi lo v).regs } := State.setWords_regs_only _ _ _ _ _

theorem State.setFld_wf (s : State) (h : SMap.wf 0#32 s.regs = true) (pg : Page) (off hi lo v : Nat) :
    SMap.wf 0#32 (s.setFld pg off hi lo v).regs = true := State.setWords_wf s h _ _ _ _

@[simp] theorem State.setWords_pending (s : State) (pg : Page) (off m v : Nat) : (s.setWords pg off m v).pending = s.pending := by rw [State.setWords_regs_only]
@[simp] theorem State.setWords_ticks (s : State) (pg : Page) (off m v : Nat) : (s.setWords pg off m v).ticks = s.ticks := by rw [State.setWords_regs_only]
@[simp] theorem State.setWords_wlDone (s : State) (pg : Page) (off m v : Nat) : (s.setWords pg off m v).wlDone = s.wlDone := by rw [State.setWords_regs_only]
@[simp] theorem State.setWords_pinnae (s : State) (pg : Page) (off m v : Nat) : (s.setWords pg off m v).pinnae = s.pinnae := by rw [State.setWords_regs_only]
@[simp] theorem State.setWords_fronds (s : State) (pg : Page) (off m v : Nat) : (s.setWords pg off m v).fronds = s.fronds := by rw [State.setWords_regs_only]
@[simp] theorem State.setWords_ctxs (s : State) (pg : Page) (off m v : Nat) : (s.setWords pg off m v).ctxs = s.ctxs := by rw [State.setWords_regs_only]
@[simp] theorem State.setWords_parts (s : State) (pg : Page) (off m v : Nat) : (s.setWords pg off m v).parts = s.parts := by rw [State.setWords_regs_only]
@[simp] theorem State.setWords_stackTab (s : State) (pg : Page) (off m v : Nat) : (s.setWords pg off m v).stackTab = s.stackTab := by rw [State.setWords_regs_only]
@[simp] theorem State.setWords_regions (s : State) (pg : Page) (off m v : Nat) : (s.setWords pg off m v).regions = s.regions := by rw [State.setWords_regs_only]
@[simp] theorem State.setWords_treeNet (s : State) (pg : Page) (off m v : Nat) : (s.setWords pg off m v).treeNet = s.treeNet := by rw [State.setWords_regs_only]
@[simp] theorem State.setWords_links (s : State) (pg : Page) (off m v : Nat) : (s.setWords pg off m v).links = s.links := by rw [State.setWords_regs_only]
@[simp] theorem State.setWords_nextWrite (s : State) (pg : Page) (off m v : Nat) : (s.setWords pg off m v).nextWrite = s.nextWrite := by rw [State.setWords_regs_only]
@[simp] theorem State.setWords_layout (s : State) (pg : Page) (off m v : Nat) : (s.setWords pg off m v).layout = s.layout := by rw [State.setWords_regs_only]
@[simp] theorem State.setWords_portOf (s : State) (pg : Page) (off m v : Nat) : (s.setWords pg off m v).portOf = s.portOf := by rw [State.setWords_regs_only]
@[simp] theorem State.setWords_clk (s : State) (pg : Page) (off m v : Nat) : (s.setWords pg off m v).clk = s.clk := by rw [State.setWords_regs_only]
@[simp] theorem State.setWords_thl (s : State) (pg : Page) (off m v : Nat) : (s.setWords pg off m v).thl = s.thl := by rw [State.setWords_regs_only]
@[simp] theorem State.setWords_tmb (s : State) (pg : Page) (off m v : Nat) : (s.setWords pg off m v).tmb = s.tmb := by rw [State.setWords_regs_only]
@[simp] theorem State.setWords_pwr (s : State) (pg : Page) (off m v : Nat) : (s.setWords pg off m v).pwr = s.pwr := by rw [State.setWords_regs_only]
@[simp] theorem State.setWords_met (s : State) (pg : Page) (off m v : Nat) : (s.setWords pg off m v).met = s.met := by rw [State.setWords_regs_only]
@[simp] theorem State.setWords_mgt (s : State) (pg : Page) (off m v : Nat) : (s.setWords pg off m v).mgt = s.mgt := by rw [State.setWords_regs_only]
@[simp] theorem State.setWords_ports (s : State) (pg : Page) (off m v : Nat) : (s.setWords pg off m v).ports = s.ports := by rw [State.setWords_regs_only]
@[simp] theorem State.setWords_log (s : State) (pg : Page) (off m v : Nat) : (s.setWords pg off m v).log = s.log := by rw [State.setWords_regs_only]
@[simp] theorem State.setWords_out (s : State) (pg : Page) (off m v : Nat) : (s.setWords pg off m v).out = s.out := by rw [State.setWords_regs_only]
@[simp] theorem State.setWords_freeCtr (s : State) (pg : Page) (off m v : Nat) : (s.setWords pg off m v).freeCtr = s.freeCtr := by rw [State.setWords_regs_only]
@[simp] theorem State.setWords_nextJob (s : State) (pg : Page) (off m v : Nat) : (s.setWords pg off m v).nextJob = s.nextJob := by rw [State.setWords_regs_only]
@[simp] theorem State.setWords_haltDev (s : State) (pg : Page) (off m v : Nat) : (s.setWords pg off m v).haltDev = s.haltDev := by rw [State.setWords_regs_only]
@[simp] theorem State.setWords_haltPart (s : State) (pg : Page) (off m v : Nat) : (s.setWords pg off m v).haltPart = s.haltPart := by rw [State.setWords_regs_only]
@[simp] theorem State.setWords_estHeld (s : State) (pg : Page) (off m v : Nat) : (s.setWords pg off m v).estHeld = s.estHeld := by rw [State.setWords_regs_only]
@[simp] theorem State.setWords_estWait (s : State) (pg : Page) (off m v : Nat) : (s.setWords pg off m v).estWait = s.estWait := by rw [State.setWords_regs_only]
@[simp] theorem State.setWords_rate (s : State) (pg : Page) (off m v : Nat) : (s.setWords pg off m v).rate = s.rate := by rw [State.setWords_regs_only]
@[simp] theorem State.setWords_pinna (s : State) (pg : Page) (off m v : Nat) (i : Nat) : (s.setWords pg off m v).pinna i = s.pinna i := by rw [State.setWords_regs_only]; rfl
@[simp] theorem State.setWords_frond (s : State) (pg : Page) (off m v : Nat) (i : Nat) : (s.setWords pg off m v).frond i = s.frond i := by rw [State.setWords_regs_only]; rfl
@[simp] theorem State.setWords_ctx (s : State) (pg : Page) (off m v : Nat) (i : Nat) : (s.setWords pg off m v).ctx i = s.ctx i := by rw [State.setWords_regs_only]; rfl
@[simp] theorem State.setWords_part (s : State) (pg : Page) (off m v : Nat) (i : Nat) : (s.setWords pg off m v).part i = s.part i := by rw [State.setWords_regs_only]; rfl
@[simp] theorem State.setWords_stack (s : State) (pg : Page) (off m v : Nat) (i : Nat) : (s.setWords pg off m v).stack i = s.stack i := by rw [State.setWords_regs_only]; rfl
@[simp] theorem State.setWords_link (s : State) (pg : Page) (off m v : Nat) (i : Nat) : (s.setWords pg off m v).link i = s.link i := by rw [State.setWords_regs_only]; rfl
@[simp] theorem State.setWords_region (s : State) (pg : Page) (off m v : Nat) (i : Nat) : (s.setWords pg off m v).region i = s.region i := by rw [State.setWords_regs_only]; rfl
@[simp] theorem State.setWords_port (s : State) (pg : Page) (off m v : Nat) (i : Nat) : (s.setWords pg off m v).port i = s.port i := by rw [State.setWords_regs_only]; rfl

@[simp] theorem State.setFld_pending (s : State) (pg : Page) (off hi lo v : Nat) : (s.setFld pg off hi lo v).pending = s.pending := by rw [State.setFld_regs_only]
@[simp] theorem State.setFld_ticks (s : State) (pg : Page) (off hi lo v : Nat) : (s.setFld pg off hi lo v).ticks = s.ticks := by rw [State.setFld_regs_only]
@[simp] theorem State.setFld_wlDone (s : State) (pg : Page) (off hi lo v : Nat) : (s.setFld pg off hi lo v).wlDone = s.wlDone := by rw [State.setFld_regs_only]
@[simp] theorem State.setFld_pinnae (s : State) (pg : Page) (off hi lo v : Nat) : (s.setFld pg off hi lo v).pinnae = s.pinnae := by rw [State.setFld_regs_only]
@[simp] theorem State.setFld_fronds (s : State) (pg : Page) (off hi lo v : Nat) : (s.setFld pg off hi lo v).fronds = s.fronds := by rw [State.setFld_regs_only]
@[simp] theorem State.setFld_ctxs (s : State) (pg : Page) (off hi lo v : Nat) : (s.setFld pg off hi lo v).ctxs = s.ctxs := by rw [State.setFld_regs_only]
@[simp] theorem State.setFld_parts (s : State) (pg : Page) (off hi lo v : Nat) : (s.setFld pg off hi lo v).parts = s.parts := by rw [State.setFld_regs_only]
@[simp] theorem State.setFld_stackTab (s : State) (pg : Page) (off hi lo v : Nat) : (s.setFld pg off hi lo v).stackTab = s.stackTab := by rw [State.setFld_regs_only]
@[simp] theorem State.setFld_regions (s : State) (pg : Page) (off hi lo v : Nat) : (s.setFld pg off hi lo v).regions = s.regions := by rw [State.setFld_regs_only]
@[simp] theorem State.setFld_treeNet (s : State) (pg : Page) (off hi lo v : Nat) : (s.setFld pg off hi lo v).treeNet = s.treeNet := by rw [State.setFld_regs_only]
@[simp] theorem State.setFld_links (s : State) (pg : Page) (off hi lo v : Nat) : (s.setFld pg off hi lo v).links = s.links := by rw [State.setFld_regs_only]
@[simp] theorem State.setFld_nextWrite (s : State) (pg : Page) (off hi lo v : Nat) : (s.setFld pg off hi lo v).nextWrite = s.nextWrite := by rw [State.setFld_regs_only]
@[simp] theorem State.setFld_layout (s : State) (pg : Page) (off hi lo v : Nat) : (s.setFld pg off hi lo v).layout = s.layout := by rw [State.setFld_regs_only]
@[simp] theorem State.setFld_portOf (s : State) (pg : Page) (off hi lo v : Nat) : (s.setFld pg off hi lo v).portOf = s.portOf := by rw [State.setFld_regs_only]
@[simp] theorem State.setFld_clk (s : State) (pg : Page) (off hi lo v : Nat) : (s.setFld pg off hi lo v).clk = s.clk := by rw [State.setFld_regs_only]
@[simp] theorem State.setFld_thl (s : State) (pg : Page) (off hi lo v : Nat) : (s.setFld pg off hi lo v).thl = s.thl := by rw [State.setFld_regs_only]
@[simp] theorem State.setFld_tmb (s : State) (pg : Page) (off hi lo v : Nat) : (s.setFld pg off hi lo v).tmb = s.tmb := by rw [State.setFld_regs_only]
@[simp] theorem State.setFld_pwr (s : State) (pg : Page) (off hi lo v : Nat) : (s.setFld pg off hi lo v).pwr = s.pwr := by rw [State.setFld_regs_only]
@[simp] theorem State.setFld_met (s : State) (pg : Page) (off hi lo v : Nat) : (s.setFld pg off hi lo v).met = s.met := by rw [State.setFld_regs_only]
@[simp] theorem State.setFld_mgt (s : State) (pg : Page) (off hi lo v : Nat) : (s.setFld pg off hi lo v).mgt = s.mgt := by rw [State.setFld_regs_only]
@[simp] theorem State.setFld_ports (s : State) (pg : Page) (off hi lo v : Nat) : (s.setFld pg off hi lo v).ports = s.ports := by rw [State.setFld_regs_only]
@[simp] theorem State.setFld_log (s : State) (pg : Page) (off hi lo v : Nat) : (s.setFld pg off hi lo v).log = s.log := by rw [State.setFld_regs_only]
@[simp] theorem State.setFld_out (s : State) (pg : Page) (off hi lo v : Nat) : (s.setFld pg off hi lo v).out = s.out := by rw [State.setFld_regs_only]
@[simp] theorem State.setFld_freeCtr (s : State) (pg : Page) (off hi lo v : Nat) : (s.setFld pg off hi lo v).freeCtr = s.freeCtr := by rw [State.setFld_regs_only]
@[simp] theorem State.setFld_nextJob (s : State) (pg : Page) (off hi lo v : Nat) : (s.setFld pg off hi lo v).nextJob = s.nextJob := by rw [State.setFld_regs_only]
@[simp] theorem State.setFld_haltDev (s : State) (pg : Page) (off hi lo v : Nat) : (s.setFld pg off hi lo v).haltDev = s.haltDev := by rw [State.setFld_regs_only]
@[simp] theorem State.setFld_haltPart (s : State) (pg : Page) (off hi lo v : Nat) : (s.setFld pg off hi lo v).haltPart = s.haltPart := by rw [State.setFld_regs_only]
@[simp] theorem State.setFld_estHeld (s : State) (pg : Page) (off hi lo v : Nat) : (s.setFld pg off hi lo v).estHeld = s.estHeld := by rw [State.setFld_regs_only]
@[simp] theorem State.setFld_estWait (s : State) (pg : Page) (off hi lo v : Nat) : (s.setFld pg off hi lo v).estWait = s.estWait := by rw [State.setFld_regs_only]
@[simp] theorem State.setFld_rate (s : State) (pg : Page) (off hi lo v : Nat) : (s.setFld pg off hi lo v).rate = s.rate := by rw [State.setFld_regs_only]
@[simp] theorem State.setFld_pinna (s : State) (pg : Page) (off hi lo v : Nat) (i : Nat) : (s.setFld pg off hi lo v).pinna i = s.pinna i := by rw [State.setFld_regs_only]; rfl
@[simp] theorem State.setFld_frond (s : State) (pg : Page) (off hi lo v : Nat) (i : Nat) : (s.setFld pg off hi lo v).frond i = s.frond i := by rw [State.setFld_regs_only]; rfl
@[simp] theorem State.setFld_ctx (s : State) (pg : Page) (off hi lo v : Nat) (i : Nat) : (s.setFld pg off hi lo v).ctx i = s.ctx i := by rw [State.setFld_regs_only]; rfl
@[simp] theorem State.setFld_part (s : State) (pg : Page) (off hi lo v : Nat) (i : Nat) : (s.setFld pg off hi lo v).part i = s.part i := by rw [State.setFld_regs_only]; rfl
@[simp] theorem State.setFld_stack (s : State) (pg : Page) (off hi lo v : Nat) (i : Nat) : (s.setFld pg off hi lo v).stack i = s.stack i := by rw [State.setFld_regs_only]; rfl
@[simp] theorem State.setFld_link (s : State) (pg : Page) (off hi lo v : Nat) (i : Nat) : (s.setFld pg off hi lo v).link i = s.link i := by rw [State.setFld_regs_only]; rfl
@[simp] theorem State.setFld_region (s : State) (pg : Page) (off hi lo v : Nat) (i : Nat) : (s.setFld pg off hi lo v).region i = s.region i := by rw [State.setFld_regs_only]; rfl
@[simp] theorem State.setFld_port (s : State) (pg : Page) (off hi lo v : Nat) (i : Nat) : (s.setFld pg off hi lo v).port i = s.port i := by rw [State.setFld_regs_only]; rfl

/-! The tables stay canonical. -/

theorem State.setWordAt_canonical {s : State} (h : s.tablesCanonical) (pg : Page) (cp off v : Nat) :
    (s.setWordAt pg cp off v).tablesCanonical := by
  obtain ⟨h0, h1, h2, h3, h4, h5, h6, h7, h8, h9, h10⟩ := h
  exact ⟨SMap.wf_set h0 _ _, h1, h2, h3, h4, h5, h6, h7, h8, h9, h10⟩

theorem State.setWord_canonical {s : State} (h : s.tablesCanonical) (pg : Page) (off v : Nat) :
    (s.setWord pg off v).tablesCanonical := by
  obtain ⟨h0, h1, h2, h3, h4, h5, h6, h7, h8, h9, h10⟩ := h
  exact ⟨SMap.wf_set h0 _ _, h1, h2, h3, h4, h5, h6, h7, h8, h9, h10⟩

theorem State.emit_canonical {s : State} (h : s.tablesCanonical) (o : Out) : (s.emit o).tablesCanonical := h

theorem State.tookFree_canonical {s : State} (h : s.tablesCanonical) (n : Nat) : (s.tookFree n).tablesCanonical := h

theorem State.setPort_canonical {s : State} (h : s.tablesCanonical) (x : Nat) (y : Port) :
    (s.setPort x y).tablesCanonical := by
  obtain ⟨h0, h1, h2, h3, h4, h5, h6, h7, h8, h9, h10⟩ := h
  exact ⟨h0, h1, h2, h3, h4, h5, h6, h7, h8, SMap.wf_set h9 _ _, h10⟩

theorem State.setPinna_canonical {s : State} (h : s.tablesCanonical) (n : Nat) (y : Pinna) :
    (s.setPinna n y).tablesCanonical := by
  obtain ⟨h0, h1, h2, h3, h4, h5, h6, h7, h8, h9, h10⟩ := h
  exact ⟨h0, SMap.wf_set h1 _ _, h2, h3, h4, h5, h6, h7, h8, h9, h10⟩

theorem State.setFrond_canonical {s : State} (h : s.tablesCanonical) (n : Nat) (y : Frond) :
    (s.setFrond n y).tablesCanonical := by
  obtain ⟨h0, h1, h2, h3, h4, h5, h6, h7, h8, h9, h10⟩ := h
  exact ⟨h0, h1, SMap.wf_set h2 _ _, h3, h4, h5, h6, h7, h8, h9, h10⟩

theorem State.setCtx_canonical {s : State} (h : s.tablesCanonical) (n : Nat) (y : Context) :
    (s.setCtx n y).tablesCanonical := by
  obtain ⟨h0, h1, h2, h3, h4, h5, h6, h7, h8, h9, h10⟩ := h
  exact ⟨h0, h1, h2, SMap.wf_set h3 _ _, h4, h5, h6, h7, h8, h9, h10⟩

theorem State.setPart_canonical {s : State} (h : s.tablesCanonical) (n : Nat) (y : Partition) :
    (s.setPart n y).tablesCanonical := by
  obtain ⟨h0, h1, h2, h3, h4, h5, h6, h7, h8, h9, h10⟩ := h
  exact ⟨h0, h1, h2, h3, SMap.wf_set h4 _ _, h5, h6, h7, h8, h9, h10⟩

theorem State.setStack_canonical {s : State} (h : s.tablesCanonical) (n : Nat) (y : Stack) :
    (s.setStack n y).tablesCanonical := by
  obtain ⟨h0, h1, h2, h3, h4, h5, h6, h7, h8, h9, h10⟩ := h
  exact ⟨h0, h1, h2, h3, h4, SMap.wf_set h5 _ _, h6, h7, h8, h9, h10⟩

theorem State.setLink_canonical {s : State} (h : s.tablesCanonical) (n : Nat) (y : Link) :
    (s.setLink n y).tablesCanonical := by
  obtain ⟨h0, h1, h2, h3, h4, h5, h6, h7, h8, h9, h10⟩ := h
  exact ⟨h0, h1, h2, h3, h4, h5, h6, SMap.wf_set h7 _ _, h8, h9, h10⟩

theorem State.setRegion_canonical {s : State} (h : s.tablesCanonical) (n : Nat) (y : Region) :
    (s.setRegion n y).tablesCanonical := by
  obtain ⟨h0, h1, h2, h3, h4, h5, h6, h7, h8, h9, h10⟩ := h
  exact ⟨h0, h1, h2, h3, h4, h5, SMap.wf_set h6 _ _, h7, h8, h9, h10⟩

theorem State.rateNote_canonical {s : State} (h : s.tablesCanonical) (key : Nat) : (s.rateNote key).tablesCanonical := h

theorem State.setWords_canonical {s : State} (h : s.tablesCanonical) (pg : Page) (off n v : Nat) :
    (s.setWords pg off n v).tablesCanonical := by
  rw [State.setWords_regs_only]
  exact ⟨State.setWords_wf s h.1 pg off n v, h.2⟩

theorem State.setFld_canonical {s : State} (h : s.tablesCanonical) (pg : Page) (off hi lo v : Nat) :
    (s.setFld pg off hi lo v).tablesCanonical := State.setWords_canonical h _ _ _ _

/-- No memory holds anything right after reset. -/
theorem State.reset_stack_mem_wf (k : Nat) : (State.reset.stack k).mem.wf = true :=
  SMap.get_sat (P := fun x : Stack => x.mem.wf = true) rfl (by decide) k
theorem State.reset_pinna_spad_wf (n : Nat) : (State.reset.pinna n).spad.wf = true := rfl
theorem State.reset_frond_mem_wf (f : Nat) : (State.reset.frond f).mem.wf = true := rfl

/-- A table rewritten by updates at keys, from an empty one or another, stays canonical. -/
theorem SMap.wf_foldl_set {α β : Type} [DecidableEq α] {d : α} (f : β → Nat × α) (l : List β) {m : SMap α}
    (hm : SMap.wf d m = true) : SMap.wf d (l.foldl (fun m b => SMap.set d m (f b).1 (f b).2) m) = true := by
  induction l generalizing m with
  | nil => exact hm
  | cons b t ih => exact ih (SMap.wf_set hm _ _)

end Sys2Proof.Machine
end

