-- ==== Sys2Proof/Laws/Events.lean ====
section
/-!
SUPPORT. What the report of an event can do (R394): it changes registers, ports, messages, the log and the event limits
alone, keeps the tables canonical, and marks the code's class on every header copy of the page.
-/
namespace Sys2Proof.Machine

/-- What the silent part of a state shows is the same where the silent parts are. -/
theorem State.of_silent {γ : Type} (f : State → γ) (hf : ∀ s : State, f s.silent = f s) {a b : State} (h : a.silent = b.silent) :
    f a = f b := by rw [← hf a, ← hf b, h]

theorem State.silent_ite {p : Prop} [Decidable p] {a b s : State} (ha : a.silent = s.silent) (hb : b.silent = s.silent) :
    (if p then a else b).silent = s.silent := by split <;> assumption

theorem State.canonical_ite {p : Prop} [Decidable p] {a b : State} (ha : a.tablesCanonical) (hb : b.tablesCanonical) :
    (if p then a else b).tablesCanonical := by split <;> assumption

theorem State.sendMsix_silent (s : State) (x fn v : Nat) : (s.sendMsix x fn v).silent = s.silent := by
  unfold State.sendMsix; dsimp only; split
  · rfl
  · split <;> rfl

theorem State.pageMessage_silent (s : State) (pg : Page) (cp x fn : Nat) :
    (s.pageMessage pg cp x fn).silent = s.silent := by
  unfold State.pageMessage; split
  · exact State.sendMsix_silent _ _ _ _
  · rfl

theorem State.markCopy_silent (s : State) (pg : Page) (code : Nat) (c : Nat × Nat × Nat) :
    (s.markCopy pg code c).silent = s.silent := by
  unfold State.markCopy
  dsimp only
  refine State.silent_ite ?_ ?_
  · rw [State.pageMessage_silent]; exact State.silent_ite rfl rfl
  · exact State.silent_ite rfl rfl

theorem State.markCopies_silent (s : State) (pg : Page) (code : Nat) (l : List (Nat × Nat × Nat)) :
    (l.foldl (fun s c => s.markCopy pg code c) s).silent = s.silent := by
  induction l generalizing s with
  | nil => rfl
  | cons c t ih => rw [List.foldl_cons, ih, State.markCopy_silent]

theorem State.setFld_silent (s : State) (pg : Page) (off hi lo v : Nat) : (s.setFld pg off hi lo v).silent = s.silent := by
  rw [State.setFld_regs_only]; rfl

theorem State.logEvent_silent (s : State) (pg : Page) (code a b : Nat) (m : Bool) :
    (s.logEvent pg code a b m).silent = s.silent := by
  unfold State.logEvent; dsimp only; exact State.silent_ite rfl rfl

theorem State.bump_silent (s : State) (pg : Page) (off n : Nat) : (s.bump pg off n).silent = s.silent := rfl

/-- A note of bits set changes the noted moments alone. -/
theorem State.noteSet_silent (s : State) (pg : Page) (cp off m : Nat) : (s.noteSet pg cp off m).silent = s.silent := rfl
@[simp] theorem State.noteSet_regs (s : State) (pg : Page) (cp off m : Nat) : (s.noteSet pg cp off m).regs = s.regs := rfl
@[simp] theorem State.noteSet_word (s : State) (pg q : Page) (cp off m i : Nat) :
    (s.noteSet pg cp off m).word q i = s.word q i := rfl

theorem State.countEvent_silent (s : State) (pg : Page) : (s.countEvent pg).silent = s.silent := by
  unfold State.countEvent
  dsimp only
  refine State.silent_ite ?_ (State.silent_ite ?_ ?_)
  · rw [State.setFld_silent]; rfl
  · rw [State.noteSet_silent, State.setFld_silent]; rfl
  · rw [State.bump_silent, State.noteSet_silent, State.setFld_silent]; rfl

/-- The report of an event leaves the machine's own state alone. -/
theorem State.raise_silent (s : State) (pg : Page) (code a b : Nat) : (s.raise pg code a b).silent = s.silent := by
  unfold State.raise
  dsimp only
  rw [State.logEvent_silent, State.countEvent_silent, State.markCopies_silent]

theorem State.raiseLimited_silent (s : State) (span who : Nat) (pg : Page) (code a b : Nat) :
    (s.raiseLimited span who pg code a b).silent = s.silent := by
  unfold State.raiseLimited; dsimp only; split
  · rw [State.raise_silent]; rfl
  · rfl

@[simp] theorem State.raise_pending (s : State) (pg : Page) (code a b : Nat) : (s.raise pg code a b).pending = s.pending :=
  State.of_silent State.pending (fun _ => rfl) (s.raise_silent pg code a b)
@[simp] theorem State.raise_ticks (s : State) (pg : Page) (code a b : Nat) : (s.raise pg code a b).ticks = s.ticks :=
  State.of_silent State.ticks (fun _ => rfl) (s.raise_silent pg code a b)
@[simp] theorem State.raise_wlDone (s : State) (pg : Page) (code a b : Nat) : (s.raise pg code a b).wlDone = s.wlDone :=
  State.of_silent State.wlDone (fun _ => rfl) (s.raise_silent pg code a b)
@[simp] theorem State.raise_pinnae (s : State) (pg : Page) (code a b : Nat) : (s.raise pg code a b).pinnae = s.pinnae :=
  State.of_silent State.pinnae (fun _ => rfl) (s.raise_silent pg code a b)
@[simp] theorem State.raise_fronds (s : State) (pg : Page) (code a b : Nat) : (s.raise pg code a b).fronds = s.fronds :=
  State.of_silent State.fronds (fun _ => rfl) (s.raise_silent pg code a b)
@[simp] theorem State.raise_ctxs (s : State) (pg : Page) (code a b : Nat) : (s.raise pg code a b).ctxs = s.ctxs :=
  State.of_silent State.ctxs (fun _ => rfl) (s.raise_silent pg code a b)
@[simp] theorem State.raise_parts (s : State) (pg : Page) (code a b : Nat) : (s.raise pg code a b).parts = s.parts :=
  State.of_silent State.parts (fun _ => rfl) (s.raise_silent pg code a b)
@[simp] theorem State.raise_stackTab (s : State) (pg : Page) (code a b : Nat) : (s.raise pg code a b).stackTab = s.stackTab :=
  State.of_silent State.stackTab (fun _ => rfl) (s.raise_silent pg code a b)
@[simp] theorem State.raise_regions (s : State) (pg : Page) (code a b : Nat) : (s.raise pg code a b).regions = s.regions :=
  State.of_silent State.regions (fun _ => rfl) (s.raise_silent pg code a b)
@[simp] theorem State.raise_treeNet (s : State) (pg : Page) (code a b : Nat) : (s.raise pg code a b).treeNet = s.treeNet :=
  State.of_silent State.treeNet (fun _ => rfl) (s.raise_silent pg code a b)
@[simp] theorem State.raise_links (s : State) (pg : Page) (code a b : Nat) : (s.raise pg code a b).links = s.links :=
  State.of_silent State.links (fun _ => rfl) (s.raise_silent pg code a b)
@[simp] theorem State.raise_nextWrite (s : State) (pg : Page) (code a b : Nat) : (s.raise pg code a b).nextWrite = s.nextWrite :=
  State.of_silent State.nextWrite (fun _ => rfl) (s.raise_silent pg code a b)
@[simp] theorem State.raise_layout (s : State) (pg : Page) (code a b : Nat) : (s.raise pg code a b).layout = s.layout :=
  State.of_silent State.layout (fun _ => rfl) (s.raise_silent pg code a b)
@[simp] theorem State.raise_portOf (s : State) (pg : Page) (code a b : Nat) : (s.raise pg code a b).portOf = s.portOf :=
  State.of_silent State.portOf (fun _ => rfl) (s.raise_silent pg code a b)
@[simp] theorem State.raise_clk (s : State) (pg : Page) (code a b : Nat) : (s.raise pg code a b).clk = s.clk :=
  State.of_silent State.clk (fun _ => rfl) (s.raise_silent pg code a b)
@[simp] theorem State.raise_thl (s : State) (pg : Page) (code a b : Nat) : (s.raise pg code a b).thl = s.thl :=
  State.of_silent State.thl (fun _ => rfl) (s.raise_silent pg code a b)
@[simp] theorem State.raise_tmb (s : State) (pg : Page) (code a b : Nat) : (s.raise pg code a b).tmb = s.tmb :=
  State.of_silent State.tmb (fun _ => rfl) (s.raise_silent pg code a b)
@[simp] theorem State.raise_pwr (s : State) (pg : Page) (code a b : Nat) : (s.raise pg code a b).pwr = s.pwr :=
  State.of_silent State.pwr (fun _ => rfl) (s.raise_silent pg code a b)
@[simp] theorem State.raise_met (s : State) (pg : Page) (code a b : Nat) : (s.raise pg code a b).met = s.met :=
  State.of_silent State.met (fun _ => rfl) (s.raise_silent pg code a b)
@[simp] theorem State.raise_mgt (s : State) (pg : Page) (code a b : Nat) : (s.raise pg code a b).mgt = s.mgt :=
  State.of_silent State.mgt (fun _ => rfl) (s.raise_silent pg code a b)
@[simp] theorem State.raise_freeCtr (s : State) (pg : Page) (code a b : Nat) : (s.raise pg code a b).freeCtr = s.freeCtr :=
  State.of_silent State.freeCtr (fun _ => rfl) (s.raise_silent pg code a b)
@[simp] theorem State.raise_nextJob (s : State) (pg : Page) (code a b : Nat) : (s.raise pg code a b).nextJob = s.nextJob :=
  State.of_silent State.nextJob (fun _ => rfl) (s.raise_silent pg code a b)
@[simp] theorem State.raise_haltDev (s : State) (pg : Page) (code a b : Nat) : (s.raise pg code a b).haltDev = s.haltDev :=
  State.of_silent State.haltDev (fun _ => rfl) (s.raise_silent pg code a b)
@[simp] theorem State.raise_haltPart (s : State) (pg : Page) (code a b : Nat) : (s.raise pg code a b).haltPart = s.haltPart :=
  State.of_silent State.haltPart (fun _ => rfl) (s.raise_silent pg code a b)
@[simp] theorem State.raise_estHeld (s : State) (pg : Page) (code a b : Nat) : (s.raise pg code a b).estHeld = s.estHeld :=
  State.of_silent State.estHeld (fun _ => rfl) (s.raise_silent pg code a b)
@[simp] theorem State.raise_estWait (s : State) (pg : Page) (code a b : Nat) : (s.raise pg code a b).estWait = s.estWait :=
  State.of_silent State.estWait (fun _ => rfl) (s.raise_silent pg code a b)
@[simp] theorem State.raise_pinna (s : State) (pg : Page) (code a b : Nat) (i : Nat) : (s.raise pg code a b).pinna i = s.pinna i :=
  State.of_silent (fun t : State => t.pinna i) (fun _ => rfl) (s.raise_silent pg code a b)
@[simp] theorem State.raise_frond (s : State) (pg : Page) (code a b : Nat) (i : Nat) : (s.raise pg code a b).frond i = s.frond i :=
  State.of_silent (fun t : State => t.frond i) (fun _ => rfl) (s.raise_silent pg code a b)
@[simp] theorem State.raise_ctx (s : State) (pg : Page) (code a b : Nat) (i : Nat) : (s.raise pg code a b).ctx i = s.ctx i :=
  State.of_silent (fun t : State => t.ctx i) (fun _ => rfl) (s.raise_silent pg code a b)
@[simp] theorem State.raise_part (s : State) (pg : Page) (code a b : Nat) (i : Nat) : (s.raise pg code a b).part i = s.part i :=
  State.of_silent (fun t : State => t.part i) (fun _ => rfl) (s.raise_silent pg code a b)
@[simp] theorem State.raise_stack (s : State) (pg : Page) (code a b : Nat) (i : Nat) : (s.raise pg code a b).stack i = s.stack i :=
  State.of_silent (fun t : State => t.stack i) (fun _ => rfl) (s.raise_silent pg code a b)
@[simp] theorem State.raise_link (s : State) (pg : Page) (code a b : Nat) (i : Nat) : (s.raise pg code a b).link i = s.link i :=
  State.of_silent (fun t : State => t.link i) (fun _ => rfl) (s.raise_silent pg code a b)
@[simp] theorem State.raise_region (s : State) (pg : Page) (code a b : Nat) (i : Nat) : (s.raise pg code a b).region i = s.region i :=
  State.of_silent (fun t : State => t.region i) (fun _ => rfl) (s.raise_silent pg code a b)

@[simp] theorem State.raiseLimited_pending (s : State) (span who : Nat) (pg : Page) (code a b : Nat) : (s.raiseLimited span who pg code a b).pending = s.pending :=
  State.of_silent State.pending (fun _ => rfl) (s.raiseLimited_silent span who pg code a b)
@[simp] theorem State.raiseLimited_ticks (s : State) (span who : Nat) (pg : Page) (code a b : Nat) : (s.raiseLimited span who pg code a b).ticks = s.ticks :=
  State.of_silent State.ticks (fun _ => rfl) (s.raiseLimited_silent span who pg code a b)
@[simp] theorem State.raiseLimited_wlDone (s : State) (span who : Nat) (pg : Page) (code a b : Nat) : (s.raiseLimited span who pg code a b).wlDone = s.wlDone :=
  State.of_silent State.wlDone (fun _ => rfl) (s.raiseLimited_silent span who pg code a b)
@[simp] theorem State.raiseLimited_pinnae (s : State) (span who : Nat) (pg : Page) (code a b : Nat) : (s.raiseLimited span who pg code a b).pinnae = s.pinnae :=
  State.of_silent State.pinnae (fun _ => rfl) (s.raiseLimited_silent span who pg code a b)
@[simp] theorem State.raiseLimited_fronds (s : State) (span who : Nat) (pg : Page) (code a b : Nat) : (s.raiseLimited span who pg code a b).fronds = s.fronds :=
  State.of_silent State.fronds (fun _ => rfl) (s.raiseLimited_silent span who pg code a b)
@[simp] theorem State.raiseLimited_ctxs (s : State) (span who : Nat) (pg : Page) (code a b : Nat) : (s.raiseLimited span who pg code a b).ctxs = s.ctxs :=
  State.of_silent State.ctxs (fun _ => rfl) (s.raiseLimited_silent span who pg code a b)
@[simp] theorem State.raiseLimited_parts (s : State) (span who : Nat) (pg : Page) (code a b : Nat) : (s.raiseLimited span who pg code a b).parts = s.parts :=
  State.of_silent State.parts (fun _ => rfl) (s.raiseLimited_silent span who pg code a b)
@[simp] theorem State.raiseLimited_stackTab (s : State) (span who : Nat) (pg : Page) (code a b : Nat) : (s.raiseLimited span who pg code a b).stackTab = s.stackTab :=
  State.of_silent State.stackTab (fun _ => rfl) (s.raiseLimited_silent span who pg code a b)
@[simp] theorem State.raiseLimited_regions (s : State) (span who : Nat) (pg : Page) (code a b : Nat) : (s.raiseLimited span who pg code a b).regions = s.regions :=
  State.of_silent State.regions (fun _ => rfl) (s.raiseLimited_silent span who pg code a b)
@[simp] theorem State.raiseLimited_treeNet (s : State) (span who : Nat) (pg : Page) (code a b : Nat) : (s.raiseLimited span who pg code a b).treeNet = s.treeNet :=
  State.of_silent State.treeNet (fun _ => rfl) (s.raiseLimited_silent span who pg code a b)
@[simp] theorem State.raiseLimited_links (s : State) (span who : Nat) (pg : Page) (code a b : Nat) : (s.raiseLimited span who pg code a b).links = s.links :=
  State.of_silent State.links (fun _ => rfl) (s.raiseLimited_silent span who pg code a b)
@[simp] theorem State.raiseLimited_nextWrite (s : State) (span who : Nat) (pg : Page) (code a b : Nat) : (s.raiseLimited span who pg code a b).nextWrite = s.nextWrite :=
  State.of_silent State.nextWrite (fun _ => rfl) (s.raiseLimited_silent span who pg code a b)
@[simp] theorem State.raiseLimited_layout (s : State) (span who : Nat) (pg : Page) (code a b : Nat) : (s.raiseLimited span who pg code a b).layout = s.layout :=
  State.of_silent State.layout (fun _ => rfl) (s.raiseLimited_silent span who pg code a b)
@[simp] theorem State.raiseLimited_portOf (s : State) (span who : Nat) (pg : Page) (code a b : Nat) : (s.raiseLimited span who pg code a b).portOf = s.portOf :=
  State.of_silent State.portOf (fun _ => rfl) (s.raiseLimited_silent span who pg code a b)
@[simp] theorem State.raiseLimited_clk (s : State) (span who : Nat) (pg : Page) (code a b : Nat) : (s.raiseLimited span who pg code a b).clk = s.clk :=
  State.of_silent State.clk (fun _ => rfl) (s.raiseLimited_silent span who pg code a b)
@[simp] theorem State.raiseLimited_thl (s : State) (span who : Nat) (pg : Page) (code a b : Nat) : (s.raiseLimited span who pg code a b).thl = s.thl :=
  State.of_silent State.thl (fun _ => rfl) (s.raiseLimited_silent span who pg code a b)
@[simp] theorem State.raiseLimited_tmb (s : State) (span who : Nat) (pg : Page) (code a b : Nat) : (s.raiseLimited span who pg code a b).tmb = s.tmb :=
  State.of_silent State.tmb (fun _ => rfl) (s.raiseLimited_silent span who pg code a b)
@[simp] theorem State.raiseLimited_pwr (s : State) (span who : Nat) (pg : Page) (code a b : Nat) : (s.raiseLimited span who pg code a b).pwr = s.pwr :=
  State.of_silent State.pwr (fun _ => rfl) (s.raiseLimited_silent span who pg code a b)
@[simp] theorem State.raiseLimited_met (s : State) (span who : Nat) (pg : Page) (code a b : Nat) : (s.raiseLimited span who pg code a b).met = s.met :=
  State.of_silent State.met (fun _ => rfl) (s.raiseLimited_silent span who pg code a b)
@[simp] theorem State.raiseLimited_mgt (s : State) (span who : Nat) (pg : Page) (code a b : Nat) : (s.raiseLimited span who pg code a b).mgt = s.mgt :=
  State.of_silent State.mgt (fun _ => rfl) (s.raiseLimited_silent span who pg code a b)
@[simp] theorem State.raiseLimited_freeCtr (s : State) (span who : Nat) (pg : Page) (code a b : Nat) : (s.raiseLimited span who pg code a b).freeCtr = s.freeCtr :=
  State.of_silent State.freeCtr (fun _ => rfl) (s.raiseLimited_silent span who pg code a b)
@[simp] theorem State.raiseLimited_nextJob (s : State) (span who : Nat) (pg : Page) (code a b : Nat) : (s.raiseLimited span who pg code a b).nextJob = s.nextJob :=
  State.of_silent State.nextJob (fun _ => rfl) (s.raiseLimited_silent span who pg code a b)
@[simp] theorem State.raiseLimited_haltDev (s : State) (span who : Nat) (pg : Page) (code a b : Nat) : (s.raiseLimited span who pg code a b).haltDev = s.haltDev :=
  State.of_silent State.haltDev (fun _ => rfl) (s.raiseLimited_silent span who pg code a b)
@[simp] theorem State.raiseLimited_haltPart (s : State) (span who : Nat) (pg : Page) (code a b : Nat) : (s.raiseLimited span who pg code a b).haltPart = s.haltPart :=
  State.of_silent State.haltPart (fun _ => rfl) (s.raiseLimited_silent span who pg code a b)
@[simp] theorem State.raiseLimited_estHeld (s : State) (span who : Nat) (pg : Page) (code a b : Nat) : (s.raiseLimited span who pg code a b).estHeld = s.estHeld :=
  State.of_silent State.estHeld (fun _ => rfl) (s.raiseLimited_silent span who pg code a b)
@[simp] theorem State.raiseLimited_estWait (s : State) (span who : Nat) (pg : Page) (code a b : Nat) : (s.raiseLimited span who pg code a b).estWait = s.estWait :=
  State.of_silent State.estWait (fun _ => rfl) (s.raiseLimited_silent span who pg code a b)
@[simp] theorem State.raiseLimited_pinna (s : State) (span who : Nat) (pg : Page) (code a b : Nat) (i : Nat) : (s.raiseLimited span who pg code a b).pinna i = s.pinna i :=
  State.of_silent (fun t : State => t.pinna i) (fun _ => rfl) (s.raiseLimited_silent span who pg code a b)
@[simp] theorem State.raiseLimited_frond (s : State) (span who : Nat) (pg : Page) (code a b : Nat) (i : Nat) : (s.raiseLimited span who pg code a b).frond i = s.frond i :=
  State.of_silent (fun t : State => t.frond i) (fun _ => rfl) (s.raiseLimited_silent span who pg code a b)
@[simp] theorem State.raiseLimited_ctx (s : State) (span who : Nat) (pg : Page) (code a b : Nat) (i : Nat) : (s.raiseLimited span who pg code a b).ctx i = s.ctx i :=
  State.of_silent (fun t : State => t.ctx i) (fun _ => rfl) (s.raiseLimited_silent span who pg code a b)
@[simp] theorem State.raiseLimited_part (s : State) (span who : Nat) (pg : Page) (code a b : Nat) (i : Nat) : (s.raiseLimited span who pg code a b).part i = s.part i :=
  State.of_silent (fun t : State => t.part i) (fun _ => rfl) (s.raiseLimited_silent span who pg code a b)
@[simp] theorem State.raiseLimited_stack (s : State) (span who : Nat) (pg : Page) (code a b : Nat) (i : Nat) : (s.raiseLimited span who pg code a b).stack i = s.stack i :=
  State.of_silent (fun t : State => t.stack i) (fun _ => rfl) (s.raiseLimited_silent span who pg code a b)
@[simp] theorem State.raiseLimited_link (s : State) (span who : Nat) (pg : Page) (code a b : Nat) (i : Nat) : (s.raiseLimited span who pg code a b).link i = s.link i :=
  State.of_silent (fun t : State => t.link i) (fun _ => rfl) (s.raiseLimited_silent span who pg code a b)
@[simp] theorem State.raiseLimited_region (s : State) (span who : Nat) (pg : Page) (code a b : Nat) (i : Nat) : (s.raiseLimited span who pg code a b).region i = s.region i :=
  State.of_silent (fun t : State => t.region i) (fun _ => rfl) (s.raiseLimited_silent span who pg code a b)

/-! The tables stay canonical. -/

theorem State.sendMsix_canonical {s : State} (h : s.tablesCanonical) (x fn v : Nat) :
    (s.sendMsix x fn v).tablesCanonical := by
  unfold State.sendMsix; dsimp only; split
  · exact h
  · split
    · exact State.setPort_canonical h _ _
    · exact State.emit_canonical h _

theorem State.pageMessage_canonical {s : State} (h : s.tablesCanonical) (pg : Page) (cp x fn : Nat) :
    (s.pageMessage pg cp x fn).tablesCanonical := by
  unfold State.pageMessage; split
  · exact State.sendMsix_canonical h _ _ _
  · exact h

theorem State.noteSet_canonical {s : State} (h : s.tablesCanonical) (pg : Page) (cp off m : Nat) :
    (s.noteSet pg cp off m).tablesCanonical := h

theorem State.markCopy_canonical {s : State} (h : s.tablesCanonical) (pg : Page) (code : Nat) (c : Nat × Nat × Nat) :
    (s.markCopy pg code c).tablesCanonical := by
  unfold State.markCopy
  have h1 := State.setWordAt_canonical h pg c.1 0x010
    (s.wordAt pg c.1 0x010 ||| 2 ^ eventClass code ||| if securityAlarm code || plainAlarm code then 2 ^ 16 else 0)
  dsimp only
  have h2 := State.canonical_ite (p := s.wordAt pg c.1 0x010 = 0) (State.setWordAt_canonical h1 pg c.1 0x018 code) h1
  have h3 := State.noteSet_canonical h2 pg c.1 0x010
    (2 ^ eventClass code ||| if securityAlarm code || plainAlarm code then 2 ^ 16 else 0)
  exact State.canonical_ite (State.pageMessage_canonical h3 _ _ _ _) h3

theorem State.markCopies_canonical {s : State} (h : s.tablesCanonical) (pg : Page) (code : Nat)
    (l : List (Nat × Nat × Nat)) : (l.foldl (fun s c => s.markCopy pg code c) s).tablesCanonical := by
  induction l generalizing s with
  | nil => exact h
  | cons c t ih => exact ih (State.markCopy_canonical h pg code c)

theorem State.bump_canonical {s : State} (h : s.tablesCanonical) (pg : Page) (off n : Nat) :
    (s.bump pg off n).tablesCanonical := State.setWord_canonical h _ _ _

/-- The log's part of an event changes the log, and counts a loss where the intake queue is full. -/
theorem State.logEvent_eq (s : State) (pg : Page) (code a b : Nat) (m : Bool) : ∃ l : EventLog,
    s.logEvent pg code a b m = { s with log := l } ∨ s.logEvent pg code a b m = ({ s with log := l } : State).bump .mgt regLogLost := by
  unfold State.logEvent
  dsimp only
  generalize s.log.enter _ = r
  refine ⟨r.1, ?_⟩
  cases h : r.2
  · right; rw [if_neg (by simp)]
  · left; rw [if_pos rfl]

theorem State.logEvent_canonical {s : State} (h : s.tablesCanonical) (pg : Page) (code a b : Nat) (m : Bool) :
    (s.logEvent pg code a b m).tablesCanonical := by
  obtain ⟨l, h1 | h1⟩ := s.logEvent_eq pg code a b m
  · rw [h1]; exact h
  · rw [h1]; exact State.bump_canonical (s := { s with log := l }) h _ _ _

theorem State.countEvent_canonical {s : State} (h : s.tablesCanonical) (pg : Page) : (s.countEvent pg).tablesCanonical := by
  unfold State.countEvent
  dsimp only
  have h1 : ({ s with rate := SMap.set 0 s.rate (evtKey pg) (evtMark s.ticks (SMap.get 0 s.rate (evtKey pg))) } : State).tablesCanonical := h
  exact State.canonical_ite (State.setFld_canonical h1 _ _ _ _ _)
    (State.canonical_ite (State.setFld_canonical h1 _ _ _ _ _) (State.bump_canonical (State.setFld_canonical h1 _ _ _ _ _) _ _ _))

theorem State.raise_canonical {s : State} (h : s.tablesCanonical) (pg : Page) (code a b : Nat) :
    (s.raise pg code a b).tablesCanonical := by
  unfold State.raise
  exact State.logEvent_canonical (State.countEvent_canonical (State.markCopies_canonical h pg code _) _) _ _ _ _ _

theorem State.raiseLimited_canonical {s : State} (h : s.tablesCanonical) (span who : Nat) (pg : Page) (code a b : Nat) :
    (s.raiseLimited span who pg code a b).tablesCanonical := by
  cases hr : s.rateOpen (code * 2 ^ 40 + pg.id * 2 ^ 20 + who) span
  · have : s.raiseLimited span who pg code a b = s := if_neg (hr ▸ Bool.false_ne_true)
    rw [this]; exact h
  · have : s.raiseLimited span who pg code a b = (s.rateNote (code * 2 ^ 40 + pg.id * 2 ^ 20 + who)).raise pg code a b := if_pos hr
    rw [this]
    exact State.raise_canonical (State.rateNote_canonical h _) _ _ _ _

/-! The class of the code is marked. -/

theorem State.pageMessage_regs (s : State) (pg : Page) (cp x fn : Nat) : (s.pageMessage pg cp x fn).regs = s.regs := by
  unfold State.pageMessage; split
  · unfold State.sendMsix; dsimp only; split
    · rfl
    · split <;> rfl
  · rfl

theorem State.wordAt_of_regs {s t : State} (h : t.regs = s.regs) (pg : Page) (cp off : Nat) :
    t.wordAt pg cp off = s.wordAt pg cp off := by unfold State.wordAt; rw [h]

theorem State.regs_ite {p : Prop} [Decidable p] {a b s : State} (ha : a.regs = s.regs) (hb : b.regs = s.regs) :
    (if p then a else b).regs = s.regs := by split <;> assumption

/-- The registers after a mark: the class, and the code where the copy had no event. -/
theorem State.markCopy_regs (s : State) (pg : Page) (code : Nat) (c : Nat × Nat × Nat) : ∃ v : Nat,
    v.testBit (eventClass code) = true ∧
      ((s.markCopy pg code c).regs = (s.setWordAt pg c.1 0x010 v).regs
        ∨ (s.markCopy pg code c).regs = ((s.setWordAt pg c.1 0x010 v).setWordAt pg c.1 0x018 code).regs) := by
  refine ⟨s.wordAt pg c.1 0x010 ||| 2 ^ eventClass code
    ||| if securityAlarm code || plainAlarm code then 2 ^ 16 else 0, ?_, ?_⟩
  · simp [Nat.testBit_or, Nat.testBit_two_pow_self]
  · unfold State.markCopy
    dsimp only
    by_cases h0 : s.wordAt pg c.1 0x010 = 0
    · right; rw [if_pos h0]; exact State.regs_ite (State.pageMessage_regs _ _ _ _ _) rfl
    · left; rw [if_neg h0]; exact State.regs_ite (State.pageMessage_regs _ _ _ _ _) rfl

/-- A mark of copy 0 sets the class's bit; a mark of another copy keeps every word of copy 0. -/
theorem State.markCopy_word (s : State) (h : SMap.wf 0#32 s.regs = true) (pg : Page) (code : Nat) (c : Nat × Nat × Nat)
    (hc : eventClass code < 32) (hp : c.1 = 0 ∨ bit (s.word pg 0x010) (eventClass code) = true) :
    SMap.wf 0#32 (s.markCopy pg code c).regs = true ∧ bit ((s.markCopy pg code c).word pg 0x010) (eventClass code) = true := by
  obtain ⟨v, hv, hr⟩ := s.markCopy_regs pg code c
  have h1 : SMap.wf 0#32 (s.setWordAt pg c.1 0x010 v).regs = true := SMap.wf_set h _ _
  have hw : bit ((s.setWordAt pg c.1 0x010 v).word pg 0x010) (eventClass code) = true := by
    by_cases hz : c.1 = 0
    · rw [hz, State.word, State.wordAt_setWordAt_same s h, bit, Nat.testBit_mod_two_pow]
      simp [hc, hv]
    · have : regKey pg 0 0x010 ≠ regKey pg c.1 0x010 := by unfold regKey; omega
      rw [State.word, State.wordAt_setWordAt_other s h _ _ _ _ _ _ _ this]
      exact hp.resolve_left hz
  rcases hr with hr | hr
  · exact ⟨hr ▸ h1, by rw [State.word, State.wordAt_of_regs hr]; exact hw⟩
  · refine ⟨hr ▸ SMap.wf_set h1 _ _, ?_⟩
    have : regKey pg 0 0x010 ≠ regKey pg c.1 0x018 := by unfold regKey; omega
    rw [State.word, State.wordAt_of_regs hr, State.wordAt_setWordAt_other _ h1 _ _ _ _ _ _ _ this]
    exact hw

theorem State.markCopies_word (s : State) (h : SMap.wf 0#32 s.regs = true) (pg : Page) (code : Nat)
    (hc : eventClass code < 32) (l : List (Nat × Nat × Nat)) (hl : ∀ c ∈ l, c.1 < 2)
    (hp : (∃ c ∈ l, c.1 = 0) ∨ bit (s.word pg 0x010) (eventClass code) = true) :
    SMap.wf 0#32 (l.foldl (fun s c => s.markCopy pg code c) s).regs = true
      ∧ bit ((l.foldl (fun s c => s.markCopy pg code c) s).word pg 0x010) (eventClass code) = true := by
  induction l generalizing s with
  | nil => exact ⟨h, hp.resolve_left (by simp)⟩
  | cons c t ih =>
    by_cases hz : c.1 = 0 ∨ bit (s.word pg 0x010) (eventClass code) = true
    · have hm := s.markCopy_word h pg code c hc hz
      exact ih _ hm.1 (fun x hx => hl x (by simp [hx])) (Or.inr hm.2)
    · have h0 : ∃ x ∈ t, x.1 = 0 := by
        rcases hp with ⟨x, hx, hx0⟩ | hp
        · rcases List.mem_cons.1 hx with rfl | hx
          · exact absurd (Or.inl hx0) hz
          · exact ⟨x, hx, hx0⟩
        · exact absurd (Or.inr hp) hz
      have hw : SMap.wf 0#32 (s.markCopy pg code c).regs = true := by
        obtain ⟨v, -, hr | hr⟩ := s.markCopy_regs pg code c
        · exact hr ▸ SMap.wf_set h _ _
        · exact hr ▸ SMap.wf_set (SMap.wf_set h _ _) _ _
      exact ih _ hw (fun x hx => hl x (by simp [hx])) (Or.inl h0)

theorem Page.copies_first (s : State) (pg : Page) : (∃ c ∈ pg.copies s, c.1 = 0) ∧ ∀ c ∈ pg.copies s, c.1 < 2 := by
  unfold Page.copies
  split
  · simp
  · split <;> simp

/-- The count of an event keeps the register table canonical and the pending classes of the page. -/
theorem State.countEvent_word (t : State) (h : SMap.wf 0#32 t.regs = true) (pg : Page) :
    SMap.wf 0#32 (t.countEvent pg).regs = true ∧ (t.countEvent pg).word pg 0x010 = t.word pg 0x010 := by
  have hk : regKey pg 0 0x010 ≠ regKey pg 0 0x01C := by unfold regKey; omega
  have hk2 : regKey pg 0 0x010 ≠ regKey .clk 0 0x064 := by simp only [regKey]; omega
  have hset : ∀ (u : State) (hi lo v : Nat), hi / 32 = 0 → SMap.wf 0#32 u.regs = true →
      SMap.wf 0#32 (u.setFld pg 0x01C hi lo v).regs = true ∧ (u.setFld pg 0x01C hi lo v).word pg 0x010 = u.word pg 0x010 := by
    intro u hi lo v h32 hu
    refine ⟨State.setFld_wf u hu _ _ _ _ _, ?_⟩
    simp only [State.setFld, h32, State.setWords]
    exact State.word_setWord_other u hu _ _ _ _ _ hk
  unfold State.countEvent
  dsimp only
  generalize hs1 : ({ t with rate := SMap.set 0 t.rate (evtKey pg) _ } : State) = s1
  have h1 : SMap.wf 0#32 s1.regs = true := by rw [← hs1]; exact h
  have hw : s1.word pg 0x010 = t.word pg 0x010 := by rw [← hs1]; rfl
  split
  · have := hset s1 30 0 (min (bits (s1.word pg 0x01C) 30 0 + 1) 0x7FFFFFFF) rfl h1
    exact ⟨this.1, this.2.trans hw⟩
  · have h2 := hset s1 31 31 1 rfl h1
    split
    · exact ⟨h2.1, h2.2.trans hw⟩
    · unfold State.bump
      refine ⟨SMap.wf_set (by rw [State.noteSet_regs]; exact h2.1) _ _, ?_⟩
      rw [State.word_setWord_other _ (by rw [State.noteSet_regs]; exact h2.1) .clk pg 0x064 0x010 _ hk2]
      exact h2.2.trans hw

/-- An event marks its class on its page (R394). -/
theorem State.raise_marks (s : State) (h : SMap.wf 0#32 s.regs = true) (pg : Page) (code a b : Nat)
    (hc : eventClass code < 32) : bit ((s.raise pg code a b).word pg 0x010) (eventClass code) = true := by
  have hm := s.markCopies_word h pg code hc (pg.copies s) (Page.copies_first s pg).2 (Or.inl (Page.copies_first s pg).1)
  unfold State.raise
  dsimp only
  generalize (pg.copies s).foldl (fun s c => s.markCopy pg code c) s = t at hm ⊢
  have hn := t.countEvent_word hm.1 pg
  generalize t.countEvent pg = u at hn ⊢
  have hw : bit (u.word pg 0x010) (eventClass code) = true := by rw [hn.2]; exact hm.2
  obtain ⟨l, hl | hl⟩ := u.logEvent_eq pg code a b (s.evtFate pg != 0)
  · rw [hl]; exact hw
  · rw [hl]
    have hk2 : regKey pg 0 0x010 ≠ regKey .mgt 0 regLogLost := by simp only [regKey, regLogLost]; omega
    have : (({ u with log := l } : State).bump .mgt regLogLost).word pg 0x010 = u.word pg 0x010 := by
      unfold State.bump
      exact State.word_setWord_other ({ u with log := l }) hn.1 .mgt pg regLogLost 0x010 _ hk2
    rw [this]; exact hw

/-! The handshakes of a reset (R413). -/

theorem State.fifoCleared_silent (s : State) (unit n : Nat) : (s.fifoCleared unit n).silent = s.silent := by
  unfold State.fifoCleared
  split
  · rfl
  · rw [State.raise_silent, State.bump_silent]

theorem State.fifoCleared_canonical {s : State} (h : s.tablesCanonical) (unit n : Nat) : (s.fifoCleared unit n).tablesCanonical := by
  unfold State.fifoCleared
  exact State.canonical_ite h (State.raise_canonical (State.bump_canonical h _ _ _) _ _ _ _)

/-- Handshakes take one free value and report: nothing else of the machine changes. -/
theorem State.resync_silent (s : State) : s.resync.silent = { s.silent with freeCtr := s.freeCtr + 1 } := rfl

theorem State.fifos_canonical {s : State} (h : s.tablesCanonical) (f g : Nat → Nat) (l : List Nat) :
    (l.foldl (fun s i => s.fifoCleared (f i) (g i)) s).tablesCanonical := by
  induction l generalizing s with
  | nil => exact h
  | cons i t ih => exact ih (State.fifoCleared_canonical h _ _)

theorem State.fifos_silent (s : State) (f g : Nat → Nat) (l : List Nat) :
    (l.foldl (fun s i => s.fifoCleared (f i) (g i)) s).silent = s.silent := by
  induction l generalizing s with
  | nil => rfl
  | cons i t ih => rw [List.foldl_cons, ih, State.fifoCleared_silent]

/-- Taking the reports of one canonical state into another leaves it canonical. -/
theorem State.reports_canonical {s t : State} (h : s.tablesCanonical) (ht : t.tablesCanonical) (n : Nat) :
    ({ s with regs := t.regs, ports := t.ports, out := t.out, log := t.log, rate := t.rate, freeCtr := n }
      : State).tablesCanonical := by
  obtain ⟨-, h1, h2, h3, h4, h5, h6, h7, h8, -, h10⟩ := h
  obtain ⟨h0, -, -, -, -, -, -, -, -, h9, -⟩ := ht
  exact ⟨h0, h1, h2, h3, h4, h5, h6, h7, h8, h9, h10⟩

theorem State.resync_canonical {s : State} (h : s.tablesCanonical) : s.resync.tablesCanonical :=
  State.reports_canonical h (State.fifos_canonical h (fun i => Config.fifoPage s.freeCtr i % 65536)
    (Config.fifoDropped s.freeCtr) (List.range (Config.fifos s.freeCtr))) (s.freeCtr + 1)

end Sys2Proof.Machine
end

