-- ==== Sys2Proof/Laws/Ops.lean ====
section
/-!
SUPPORT. What each shared operation answers: a next state under exactly these conditions, and which.
-/
namespace Sys2Proof.Machine

variable {s t : State}

theorem notEnabled_ne (why : String) (t : State) :
    (notEnabled why : Host.Outcome State Fault Refusal) ≠ .next t := by simp [notEnabled]

/-- A guard that refuses or faults in front of the rest of a meaning. -/
theorem guard_next {p : Prop} [Decidable p] {x y : Host.Outcome State Fault Refusal} (hx : x ≠ .next t) :
    (if p then x else y) = .next t ↔ ¬ p ∧ y = .next t := by
  by_cases h : p <;> simp [h, hx]

theorem next_eq {a : State} : (Host.Outcome.next a : Host.Outcome State Fault Refusal) = .next t ↔ t = a := by
  constructor
  · intro h; cases h; rfl
  · rintro rfl; rfl

theorem fault_ne (f : Fault) (t : State) : (Host.Outcome.fault f : Host.Outcome State Fault Refusal) ≠ .next t := by simp

/-- The start of the clocks moves from the phase that it stands in, while PWR_OK is high. -/
theorem clockStep_next {ph : ClockPhase} {eff : Clocks → Clocks} :
    clockStep s ph eff = .next t ↔ s.pwr.ok = true ∧ s.clk.phase = ph ∧ t = { s with clk := eff s.clk } := by
  unfold clockStep
  rw [guard_next (notEnabled_ne _ _), guard_next (notEnabled_ne _ _)]
  rw [next_eq]; simp

/-- A change of the capture mode is made where a write of the mode takes effect. -/
theorem onMode_next {c m : Nat} {eff : State → State} :
    onMode s c m eff = .next t ↔
      c < 32 ∧ s.clk.inReset = false ∧ s.lockOf (.ctx c) = false ∧ s.capMode c = m ∧ t = eff s := by
  unfold onMode
  rw [guard_next (fault_ne _ _), guard_next (notEnabled_ne _ _), guard_next (notEnabled_ne _ _)]
  rw [next_eq]; simp [and_assoc]

/-- What the management controller serves. -/
theorem mcCommand_next {q : Bool} {eff : State → State} :
    mcCommand s q eff = .next t ↔ s.mcRuns = true ∧ q = true ∧ t = eff s := by
  unfold mcCommand
  rw [guard_next (notEnabled_ne _ _), guard_next (notEnabled_ne _ _)]
  rw [next_eq]; simp

/-- What the meter's port serves. -/
theorem readerCmd_next {code : Nat} {msg : List Byte} {eff : State} :
    readerCmd s code msg eff = .next t ↔ s.meterReads = true ∧ leNat (slice msg 0 4) = code ∧ t = eff := by
  unfold readerCmd
  rw [guard_next (notEnabled_ne _ _), guard_next (notEnabled_ne _ _)]
  rw [next_eq]; simp

/-- A step of a started command. -/
theorem onJob_next {id cmd : Nat} {q : Nat → Job → Bool} {eff : Nat → Job → State} :
    onJob s id cmd q eff = .next t ↔
      ∃ c j, s.job id = some (c, j) ∧ cmdOf j.entry = cmd ∧ s.haltedPart (c / 8) = false ∧ q c j = true ∧ t = eff c j := by
  unfold onJob
  split
  · rename_i h; simp [notEnabled, h]
  · rename_i c j h
    rw [guard_next (notEnabled_ne _ _), guard_next (notEnabled_ne _ _), guard_next (notEnabled_ne _ _)]
    constructor
    · rintro ⟨h1, h0, h2, h3⟩
      exact ⟨c, j, h, by simpa using h1, by simpa using h0, by simpa using h2, next_eq.1 h3⟩
    · rintro ⟨c', j', h', h1, h0, h2, h3⟩
      rw [h] at h'
      obtain ⟨rfl, rfl⟩ : c = c' ∧ j = j' := by simpa using h'
      simp [h1, h0, h2, h3]

/-- A step of the descriptor that an engine runs. -/
theorem onRunning_next {e : EngineId} {eff : QDesc → Host.Outcome State Fault Refusal} :
    onRunning s e eff = .next t ↔
      e.exists = true ∧ s.engineHalted e = false ∧ ∃ q, (s.engine e).running = some q ∧ eff q = .next t := by
  unfold onRunning
  rw [guard_next (fault_ne _ _), guard_next (notEnabled_ne _ _)]
  split
  · rename_i h; simp [notEnabled, h]
  · rename_i q h; simp [h]

/-- A write that a link has delivered is taken by the operation of its kind. -/
theorem onWrite_next {l kind : Nat} {eff : State → Nat → Nat → List Byte → State} :
    onWrite s l kind eff = .next t ↔ l < 16 ∧ ∃ m, (s.link l).nextWriteMsg = some m ∧ leNat (m.2.2.take 1) = kind ∧
      t = eff (s.setLink l { s.link l with inbox := (s.link l).inbox.erase m }) m.1 m.2.1 m.2.2 := by
  unfold onWrite
  rw [guard_next (fault_ne _ _)]
  split
  · rename_i h; simp [notEnabled, h]
  · rename_i m h
    rw [guard_next (notEnabled_ne _ _)]
    rw [next_eq]; simp [h]

/-- A mailbox request that Thallus serves. -/
theorem mailboxOp_next {x op : Nat} {eff : State → List Byte → State} :
    mailboxOp s x op eff = .next t ↔ x < 2 ∧ s.thlServes = true ∧ s.thl.queue.head? = some (.mailbox x) ∧
      ∃ bs, s.mbxRequest x = some bs ∧ leNat (slice bs 0 2) = op ∧ t = eff (s.mbxTake x) bs := by
  unfold mailboxOp
  rw [guard_next (fault_ne _ _), guard_next (notEnabled_ne _ _), guard_next (notEnabled_ne _ _)]
  split
  · rename_i h; simp [notEnabled, h]
  · rename_i bs h
    rw [guard_next (notEnabled_ne _ _)]
    rw [next_eq]; simp [h]

/-- A partition's request that Thallus serves. -/
theorem tenancyOp_next {p : Nat} {q : Nat → Bool} {eff : State → List Byte → State} :
    tenancyOp s p q eff = .next t ↔ p < 4 ∧ s.thlServes = true ∧ s.thl.queue.head? = some (.tenancy p) ∧
      q (byteAt (s.reqBlock p) 0) = true ∧ t = eff (s.reqTake p) (s.reqBlock p) := by
  unfold tenancyOp
  rw [guard_next (fault_ne _ _), guard_next (notEnabled_ne _ _), guard_next (notEnabled_ne _ _),
    guard_next (notEnabled_ne _ _)]
  rw [next_eq]; simp

/-- An instruction at the program counter of a pinna that runs. -/
theorem pinnaInstr_next {n op : Nat} {eff : Nat → State} :
    pinnaInstr s n op eff = .next t ↔
      n < 768 ∧ s.pinnaRuns n = true ∧ fOp (s.pinna n).fetch = op ∧ t = eff (s.pinna n).fetch := by
  unfold pinnaInstr
  rw [guard_next (fault_ne _ _), guard_next (notEnabled_ne _ _), guard_next (notEnabled_ne _ _)]
  rw [next_eq]; simp

/-- As `pinnaInstr_next`, and no register that the instruction touches waits for a `VCOMPRESS`. -/
theorem scalarInstr_next {n op : Nat} {eff : Nat → State} :
    scalarInstr s n op eff = .next t ↔ n < 768 ∧ CanIssue s n op ∧ t = eff (s.pinna n).fetch := by
  unfold scalarInstr CanIssue
  rw [guard_next (fault_ne _ _), guard_next (notEnabled_ne _ _), guard_next (notEnabled_ne _ _),
    guard_next (notEnabled_ne _ _)]
  rw [next_eq]; simp [and_assoc]

/-- The head of a queue of a pinna: of an array, or of the vector engine. -/
theorem performHead_next {n op : Nat} {sel : QEntry → Bool} {ready : QEntry → Launch → Bool}
    {eff : State → QEntry → Launch → State} :
    performHead s n op sel ready eff = .next t ↔ n < 768 ∧ s.haltedPart (s.pinnaPart n) = false ∧
      ∃ q l, (s.pinna n).queue.find? sel = some q ∧ (s.pinna n).launch = some l ∧ fOp q.word.toNat = op ∧
        ready q l = true ∧ t = eff (s.setPinna n ((s.pinna n).take sel)) q l := by
  unfold performHead
  rw [guard_next (fault_ne _ _), guard_next (notEnabled_ne _ _)]
  split
  · rename_i q l hq hl
    rw [guard_next (notEnabled_ne _ _), guard_next (notEnabled_ne _ _), next_eq]
    simp [hq, hl]
  · rename_i h
    constructor
    · rintro ⟨-, -, h3⟩; exact absurd h3 (notEnabled_ne _ _)
    · rintro ⟨-, -, q, l, hq, hl, -⟩; exact absurd hl (h q l hq)

/-- A vector instruction in the engine is performed whatever the arrays do (R116). -/
theorem performVec_engine {n op : Nat} {q : QEntry} {l : Launch} {eff : State → QEntry → Launch → State}
    (h : InVectorEngine s n op q l) :
    performVec s n op eff = .next (eff (s.setPinna n ((s.pinna n).take (fun q => isVector (fOp q.word.toNat)))) q l) :=
  performHead_next.2 ⟨h.1, h.2.1, q, l, h.2.2.1, h.2.2.2.1, h.2.2.2.2, rfl, rfl⟩

/-- The head of an array's queue is performed once it is ready, while the array is in no tree (R69). -/
theorem performArr_head {n op arr : Nat} {q : QEntry} {l : Launch} {ready : QEntry → Launch → Bool}
    {eff : State → QEntry → Launch → State} (h : AtHead s n op q l) (ha : q.array = arr) (hr : ready q l = true) :
    performArr s n op arr ready eff = .next (eff (s.setPinna n ((s.pinna n).without q)) q l) := by
  subst ha
  exact performHead_next.2 ⟨h.1, h.2.1, q, l, h.2.2.1, h.2.2.2.2.1, h.2.2.2.2.2, by simp [h.2.2.2.1, hr], rfl⟩

/-- The command at the head of a stack's lane queue. -/
theorem onLane_next {k : Nat} {q : LaneCmd → Bool} {eff : State → LaneCmd → State} :
    onLane s k q eff = .next t ↔ k < 12 ∧ s.lanesRun k = true ∧ ∃ cmd rest, (s.stack k).lanes = cmd :: rest ∧
      q cmd = true ∧ s.laneFree k cmd = true ∧ t = eff (s.laneTaken k rest) cmd := by
  unfold onLane
  rw [guard_next (fault_ne _ _), guard_next (notEnabled_ne _ _)]
  split
  · rename_i h; simp [notEnabled, h]
  · rename_i cmd rest h
    rw [guard_next (notEnabled_ne _ _), guard_next (notEnabled_ne _ _)]
    rw [next_eq]
    constructor
    · rintro ⟨h1, h2, h3, h4, h5⟩
      exact ⟨by simpa using h1, by simpa using h2, cmd, rest, h, by simpa using h3, by simpa using h4, h5⟩
    · rintro ⟨h1, h2, c, r, hc, h3, h4, h5⟩
      obtain ⟨rfl, rfl⟩ := List.cons.inj (h.symm.trans hc)
      exact ⟨by simpa using h1, by simpa using h2, by simpa using h3, by simpa using h4, h5⟩

/-- A register write of a requester that can make accesses. -/
theorem regWrite_next {r : Requester} {pg : Page} {off : Nat} {locks : Bool} {eff : State → State} :
    regWrite s r pg off locks eff = .next t ↔ pg.exists = true ∧ s.canAsk r = true ∧ t = s.gate r pg off locks eff := by
  unfold regWrite
  rw [guard_next (fault_ne _ _), guard_next (notEnabled_ne _ _)]
  rw [next_eq]; simp

/-- A write that nothing turns away is performed. -/
theorem regWrite_admitted {r : Requester} {pg : Page} {off : Nat} {locks : Bool} {eff : State → State}
    (h : Admits s r pg off locks) : regWrite s r pg off locks eff = .next (eff s) := by
  obtain ⟨h1, h2, h3, h4, h5, h6⟩ := h
  refine regWrite_next.2 ⟨h1, h2, ?_⟩
  cases locks
  · simp [State.gate, h3, h4, h5]
  · simp [State.gate, h3, h4, h5, h6 rfl]

/-- A request in an established session that Thallus answers. -/
theorem sessionCommand_next {x id : Nat} {serve : State → State × List Byte} :
    sessionCommand s x id serve = .next t ↔ x < 2 ∧ s.spdmPath x = true ∧ s.thl.stage = 1 ∧
      ∃ y, (s.spdm x).session id = some y ∧ y.established = true ∧ t = (serve s).1.spdmEmit x (serve s).2 := by
  unfold sessionCommand
  rw [guard_next (fault_ne _ _), guard_next (notEnabled_ne _ _)]
  split
  · rename_i h; simp [notEnabled, h]
  · rename_i y h
    rw [guard_next (notEnabled_ne _ _)]
    rw [next_eq]; simp [h, and_assoc]

/-- A request of Thallus that no other command announces: it is served in its turn, and joins the queue otherwise (R316). -/
theorem thlRequest_served {q : ThlReq} {eff : State → State} {s0 : State} (h : AtThallus s q s0) :
    thlRequest s q eff = .next (eff s0) := by
  obtain ⟨h1, h2⟩ := h
  have hr : s.clk.inReset = false := by simp [State.thlServes] at h1; exact h1.1.1.1
  rcases h2 with ⟨hq, rfl⟩ | ⟨-, hh, rfl⟩
  · simp [thlRequest, hr, h1, hq]
  · simp [thlRequest, hr, h1, hh]

theorem thlRequest_queued {q : ThlReq} {eff : State → State} (hr : s.clk.inReset = false) (h : s.thl.queue ≠ [])
    (hh : s.thl.queue.head? ≠ some q) : thlRequest s q eff = .next (s.thlArrive q) := by
  simp [thlRequest, hr, h, hh]

/-- A request that reaches a responder over DOE in a state in which it is served. -/
theorem spdmCommand_doe {x code : Nat} {m : List Byte} {serve : State → State × List Byte} (h : Responds s x code m)
    (hx : x < 2) : spdmCommand s x code m serve =
      .next (((serve s).1.spdmFit x (serve s).2).1.spdmEmit x ((serve s).1.spdmFit x (serve s).2).2) := by
  obtain ⟨h1, h2, h3, h4, h5, -, h6⟩ := h
  have : x ≠ 2 := by omega
  simp [spdmCommand, h1, h2, h3, h4, h5, h6, this]

/-- The same from the management controller, in Thallus's turn. -/
theorem spdmCommand_mctp {code : Nat} {m : List Byte} {serve : State → State × List Byte} {s0 : State}
    (h : Responds s 2 code m) (h0 : AtThallus s (.mc m) s0) : spdmCommand s 2 code m serve =
      .next (((serve s0).1.spdmFit 2 (serve s0).2).1.spdmEmit 2 ((serve s0).1.spdmFit 2 (serve s0).2).2) := by
  obtain ⟨h1, h2, h3, h4, h5, -, h6⟩ := h
  simp [spdmCommand, h2, h3, h4, h6, thlRequest_served h0]

end Sys2Proof.Machine
end

