-- ==== Sys2Proof/Laws/PerInstr.lean ====
section
/-!
SUPPORT. A well-formed command names only units that exist: one lemma for each command (R6, R352, R374, R392).
-/
namespace Sys2Proof.Laws

open Sys2Proof.Machine

theorem page_exists_of_wf (pg : Page) (h : pg.wf = true) : pg.exists = true := by
  cases pg <;> simp_all [Page.wf, Page.exists, isPort, isPart, isStack, isLink, isFrond, isCtx, isPinna]

/-- What is said of every command: the pages of the units that it names exist. -/
def Named.Statement (i : Instr) : Prop := i.wf = true → ∀ pg ∈ i.pages, pg.exists = true

theorem pages_of_none {i : Instr} (h : i.pages = []) : Named.Statement i := by
  intro _ pg hp
  rw [h] at hp
  cases hp

/-- The statement holds where the check of a command covers the check of every page it names. -/
theorem named_of_wf {i : Instr} (b : Bool) (l : List Page) (hb : i.wf = b) (hl : i.pages = l)
    (h : b = true → ∀ pg ∈ l, pg.wf = true) : Named.Statement i :=
  fun hw pg hp => page_exists_of_wf pg (h (hb ▸ hw) pg (hl ▸ hp))

theorem engine_pages_wf (e : EngineId) (h : e.wf = true) : ∀ pg ∈ e.pages, pg.wf = true := by
  cases e <;> simp_all [EngineId.wf, EngineId.pages, Page.wf]

theorem Named.coldReset (settle : Nat) (mgmtPort : Nat) : Named.Statement (.coldReset settle mgmtPort) := pages_of_none rfl
theorem Named.oscFirstEdge : Named.Statement (.oscFirstEdge) := pages_of_none rfl
theorem Named.oscEdgeTimeout : Named.Statement (.oscEdgeTimeout) := pages_of_none rfl
theorem Named.settleTimeEnd : Named.Statement (.settleTimeEnd) := pages_of_none rfl
theorem Named.pllLocked (lockUs : Nat) : Named.Statement (.pllLocked lockUs) := pages_of_none rfl
theorem Named.pllLockTimeout : Named.Statement (.pllLockTimeout) := pages_of_none rfl
theorem Named.pllLockLost : Named.Statement (.pllLockLost) := pages_of_none rfl
theorem Named.faultPatternFrame : Named.Statement (.faultPatternFrame) := pages_of_none rfl
theorem Named.rstNAsserted : Named.Statement (.rstNAsserted) := pages_of_none rfl
theorem Named.topResetGo (r : Requester) (value : Nat) : Named.Statement (.topResetGo r value) := pages_of_none rfl
theorem Named.bootWatchdogExpiry : Named.Statement (.bootWatchdogExpiry) := pages_of_none rfl
theorem Named.moduleResetRelease : Named.Statement (.moduleResetRelease) := pages_of_none rfl
theorem Named.partitionReset (r : Requester) (p : Nat) (value : Nat) : Named.Statement (.partitionReset r p value) :=
  named_of_wf (r.wf && isPart p && isValue value) ([.prt p]) rfl rfl (by simp_all [Page.wf])
theorem Named.partitionResetDone (p : Nat) : Named.Statement (.partitionResetDone p) :=
  named_of_wf (isPart p) ([.prt p]) rfl rfl (by simp_all [Page.wf])
theorem Named.contextReset (r : Option Requester) (c : Nat) (value : Nat) : Named.Statement (.contextReset r c value) :=
  named_of_wf ((match r with | some q => q.wf | none => true) && isCtx c && isValue value) ([.ctx c]) rfl rfl (by simp_all [Page.wf])
theorem Named.contextResetDone (c : Nat) : Named.Statement (.contextResetDone c) :=
  named_of_wf (isCtx c) ([.ctx c]) rfl rfl (by simp_all [Page.wf])
theorem Named.linkRetrain (r : Requester) (l : Nat) (value : Nat) : Named.Statement (.linkRetrain r l value) :=
  named_of_wf (r.wf && isLink l && isValue value) ([.lml l]) rfl rfl (by simp_all [Page.wf])
theorem Named.linkTrained (l : Nat) : Named.Statement (.linkTrained l) :=
  named_of_wf (isLink l) ([.lml l]) rfl rfl (by simp_all [Page.wf])
theorem Named.nop (n : Nat) : Named.Statement (.nop n) :=
  named_of_wf (isPinna n) ([.pna n]) rfl rfl (by simp_all [Page.wf])
theorem Named.halt (n : Nat) : Named.Statement (.halt n) :=
  named_of_wf (isPinna n) ([.pna n]) rfl rfl (by simp_all [Page.wf])
theorem Named.accZeroingDone (n : Nat) : Named.Statement (.accZeroingDone n) :=
  named_of_wf (isPinna n) ([.pna n]) rfl rfl (by simp_all [Page.wf])
theorem Named.sli (n : Nat) : Named.Statement (.sli n) :=
  named_of_wf (isPinna n) ([.pna n]) rfl rfl (by simp_all [Page.wf])
theorem Named.salu (n : Nat) : Named.Statement (.salu n) :=
  named_of_wf (isPinna n) ([.pna n]) rfl rfl (by simp_all [Page.wf])
theorem Named.aalu (n : Nat) : Named.Statement (.aalu n) :=
  named_of_wf (isPinna n) ([.pna n]) rfl rfl (by simp_all [Page.wf])
theorem Named.loop (n : Nat) : Named.Statement (.loop n) :=
  named_of_wf (isPinna n) ([.pna n]) rfl rfl (by simp_all [Page.wf])
theorem Named.br (n : Nat) : Named.Statement (.br n) :=
  named_of_wf (isPinna n) ([.pna n]) rfl rfl (by simp_all [Page.wf])
theorem Named.sld (n : Nat) : Named.Statement (.sld n) :=
  named_of_wf (isPinna n) ([.pna n]) rfl rfl (by simp_all [Page.wf])
theorem Named.sst (n : Nat) : Named.Statement (.sst n) :=
  named_of_wf (isPinna n) ([.pna n]) rfl rfl (by simp_all [Page.wf])
theorem Named.mma (n : Nat) (ph : ArrPhase) : Named.Statement (.mma n ph) :=
  named_of_wf (isPinna n && ph.ok) ([.pna n]) rfl rfl (by simp_all [Page.wf])
theorem Named.gopen (n : Nat) (ph : ArrPhase) : Named.Statement (.gopen n ph) :=
  named_of_wf (isPinna n && ph.ok) ([.pna n]) rfl rfl (by simp_all [Page.wf])
theorem Named.gclose (n : Nat) (ph : ArrPhase) : Named.Statement (.gclose n ph) :=
  named_of_wf (isPinna n && ph.ok) ([.pna n]) rfl rfl (by simp_all [Page.wf])
theorem Named.gspill (n : Nat) (ph : ArrPhase) : Named.Statement (.gspill n ph) :=
  named_of_wf (isPinna n && ph.ok) ([.pna n]) rfl rfl (by simp_all [Page.wf])
theorem Named.gfill (n : Nat) (ph : ArrPhase) : Named.Statement (.gfill n ph) :=
  named_of_wf (isPinna n && ph.ok) ([.pna n]) rfl rfl (by simp_all [Page.wf])
theorem Named.greduce (x : ArrStep) : Named.Statement (.greduce x) :=
  named_of_wf (isPinna x.n && x.ph.ok) ([.pna x.n]) rfl rfl (by simp_all [Page.wf])
theorem Named.greduceTileReceived (n : Nat) : Named.Statement (.greduceTileReceived n) :=
  named_of_wf (isPinna n) ([.pna n]) rfl rfl (by simp_all [Page.wf])
theorem Named.treeTimeout (n : Nat) : Named.Statement (.treeTimeout n) :=
  named_of_wf (isPinna n) ([.pna n]) rfl rfl (by simp_all [Page.wf])
theorem Named.vadd (n : Nat) (ph : Phase) : Named.Statement (.vadd n ph) :=
  named_of_wf (isPinna n) ([.pna n]) rfl rfl (by simp_all [Page.wf])
theorem Named.vsub (n : Nat) (ph : Phase) : Named.Statement (.vsub n ph) :=
  named_of_wf (isPinna n) ([.pna n]) rfl rfl (by simp_all [Page.wf])
theorem Named.vmul (n : Nat) (ph : Phase) : Named.Statement (.vmul n ph) :=
  named_of_wf (isPinna n) ([.pna n]) rfl rfl (by simp_all [Page.wf])
theorem Named.vfma (n : Nat) (ph : Phase) : Named.Statement (.vfma n ph) :=
  named_of_wf (isPinna n) ([.pna n]) rfl rfl (by simp_all [Page.wf])
theorem Named.vmax (n : Nat) (ph : Phase) : Named.Statement (.vmax n ph) :=
  named_of_wf (isPinna n) ([.pna n]) rfl rfl (by simp_all [Page.wf])
theorem Named.vmin (n : Nat) (ph : Phase) : Named.Statement (.vmin n ph) :=
  named_of_wf (isPinna n) ([.pna n]) rfl rfl (by simp_all [Page.wf])
theorem Named.vabs (n : Nat) (ph : Phase) : Named.Statement (.vabs n ph) :=
  named_of_wf (isPinna n) ([.pna n]) rfl rfl (by simp_all [Page.wf])
theorem Named.vneg (n : Nat) (ph : Phase) : Named.Statement (.vneg n ph) :=
  named_of_wf (isPinna n) ([.pna n]) rfl rfl (by simp_all [Page.wf])
theorem Named.vrcp (n : Nat) (ph : Phase) : Named.Statement (.vrcp n ph) :=
  named_of_wf (isPinna n) ([.pna n]) rfl rfl (by simp_all [Page.wf])
theorem Named.vrsqrt (n : Nat) (ph : Phase) : Named.Statement (.vrsqrt n ph) :=
  named_of_wf (isPinna n) ([.pna n]) rfl rfl (by simp_all [Page.wf])
theorem Named.vexp (n : Nat) (ph : Phase) : Named.Statement (.vexp n ph) :=
  named_of_wf (isPinna n) ([.pna n]) rfl rfl (by simp_all [Page.wf])
theorem Named.vlog (n : Nat) (ph : Phase) : Named.Statement (.vlog n ph) :=
  named_of_wf (isPinna n) ([.pna n]) rfl rfl (by simp_all [Page.wf])
theorem Named.vscale (n : Nat) (ph : Phase) : Named.Statement (.vscale n ph) :=
  named_of_wf (isPinna n) ([.pna n]) rfl rfl (by simp_all [Page.wf])
theorem Named.vcvt (n : Nat) (ph : Phase) : Named.Statement (.vcvt n ph) :=
  named_of_wf (isPinna n) ([.pna n]) rfl rfl (by simp_all [Page.wf])
theorem Named.vsround (n : Nat) (ph : Phase) : Named.Statement (.vsround n ph) :=
  named_of_wf (isPinna n) ([.pna n]) rfl rfl (by simp_all [Page.wf])
theorem Named.vcmp (n : Nat) (ph : Phase) : Named.Statement (.vcmp n ph) :=
  named_of_wf (isPinna n) ([.pna n]) rfl rfl (by simp_all [Page.wf])
theorem Named.vsel (n : Nat) (ph : Phase) : Named.Statement (.vsel n ph) :=
  named_of_wf (isPinna n) ([.pna n]) rfl rfl (by simp_all [Page.wf])
theorem Named.vcompress (n : Nat) (ph : Phase) : Named.Statement (.vcompress n ph) :=
  named_of_wf (isPinna n) ([.pna n]) rfl rfl (by simp_all [Page.wf])
theorem Named.vexpand (n : Nat) (ph : Phase) : Named.Statement (.vexpand n ph) :=
  named_of_wf (isPinna n) ([.pna n]) rfl rfl (by simp_all [Page.wf])
theorem Named.vmlogic (n : Nat) (ph : Phase) : Named.Statement (.vmlogic n ph) :=
  named_of_wf (isPinna n) ([.pna n]) rfl rfl (by simp_all [Page.wf])
theorem Named.vmld (n : Nat) (ph : Phase) : Named.Statement (.vmld n ph) :=
  named_of_wf (isPinna n) ([.pna n]) rfl rfl (by simp_all [Page.wf])
theorem Named.vmst (n : Nat) (ph : Phase) : Named.Statement (.vmst n ph) :=
  named_of_wf (isPinna n) ([.pna n]) rfl rfl (by simp_all [Page.wf])
theorem Named.vrsum (n : Nat) (ph : Phase) : Named.Statement (.vrsum n ph) :=
  named_of_wf (isPinna n) ([.pna n]) rfl rfl (by simp_all [Page.wf])
theorem Named.vrsumsq (n : Nat) (ph : Phase) : Named.Statement (.vrsumsq n ph) :=
  named_of_wf (isPinna n) ([.pna n]) rfl rfl (by simp_all [Page.wf])
theorem Named.vrmax (n : Nat) (ph : Phase) : Named.Statement (.vrmax n ph) :=
  named_of_wf (isPinna n) ([.pna n]) rfl rfl (by simp_all [Page.wf])
theorem Named.vrmin (n : Nat) (ph : Phase) : Named.Statement (.vrmin n ph) :=
  named_of_wf (isPinna n) ([.pna n]) rfl rfl (by simp_all [Page.wf])
theorem Named.vrmoment (n : Nat) (ph : Phase) : Named.Statement (.vrmoment n ph) :=
  named_of_wf (isPinna n) ([.pna n]) rfl rfl (by simp_all [Page.wf])
theorem Named.dsub (n : Nat) : Named.Statement (.dsub n) :=
  named_of_wf (isPinna n) ([.pna n]) rfl rfl (by simp_all [Page.wf])
theorem Named.dwait (n : Nat) : Named.Statement (.dwait n) :=
  named_of_wf (isPinna n) ([.pna n]) rfl rfl (by simp_all [Page.wf])
theorem Named.dfence (n : Nat) : Named.Statement (.dfence n) :=
  named_of_wf (isPinna n) ([.pna n]) rfl rfl (by simp_all [Page.wf])
theorem Named.flagadd (n : Nat) : Named.Statement (.flagadd n) :=
  named_of_wf (isPinna n) ([.pna n]) rfl rfl (by simp_all [Page.wf])
theorem Named.flagwait (n : Nat) : Named.Statement (.flagwait n) :=
  named_of_wf (isPinna n) ([.pna n]) rfl rfl (by simp_all [Page.wf])
theorem Named.flagTimeout (n : Nat) : Named.Statement (.flagTimeout n) :=
  named_of_wf (isPinna n) ([.pna n]) rfl rfl (by simp_all [Page.wf])
theorem Named.dmaDescriptorStart (e : EngineId) : Named.Statement (.dmaDescriptorStart e) :=
  named_of_wf (e.wf) (e.pages) rfl rfl (engine_pages_wf e)
theorem Named.dmaDescriptorComplete (e : EngineId) : Named.Statement (.dmaDescriptorComplete e) :=
  named_of_wf (e.wf) (e.pages) rfl rfl (engine_pages_wf e)
theorem Named.dmaBusError (e : EngineId) (k : Nat) : Named.Statement (.dmaBusError e k) :=
  named_of_wf (e.wf) (e.pages) rfl rfl (engine_pages_wf e)
theorem Named.dmaTeardownAbort (e : EngineId) (m : Nat) : Named.Statement (.dmaTeardownAbort e m) :=
  named_of_wf (e.wf) (e.pages) rfl rfl (engine_pages_wf e)
theorem Named.statSlotFree (r : Requester) (f : Nat) (slot : Nat) (value : Nat) : Named.Statement (.statSlotFree r f slot value) :=
  named_of_wf (r.wf && isFrond f && isValue value) ([.frd f]) rfl rfl (by simp_all [Page.wf])
theorem Named.estFold (p : Nat) (slot : Nat) (seed : BitVec 64) : Named.Statement (.estFold p slot seed) :=
  named_of_wf (isPart p) ([.prt p]) rfl rfl (by simp_all [Page.wf])
theorem Named.estSlotWrite (r : Requester) (p : Nat) (slot : Nat) (word : Nat) (len : Nat) (value : Nat) : Named.Statement (.estSlotWrite r p slot word len value) :=
  named_of_wf (r.wf && isPart p && isValue value) ([.prt p]) rfl rfl (by simp_all [Page.wf])
theorem Named.memoryLineRead (stack : Nat) (line : Nat) (cls : Nat) (ctx : Nat) (flips : List (Nat × Nat × Nat)) : Named.Statement (.memoryLineRead stack line cls ctx flips) :=
  named_of_wf (isStack stack && isCtx ctx) ([.rhz stack, .ctx ctx]) rfl rfl (by simp_all [Page.wf])
theorem Named.memoryLineWrite (stack : Nat) (line : Nat) (cls : Nat) (ctx : Nat) (off : Nat) (data : List Byte) : Named.Statement (.memoryLineWrite stack line cls ctx off data) :=
  named_of_wf (isStack stack && isCtx ctx) ([.rhz stack, .ctx ctx]) rfl rfl (by simp_all [Page.wf])
theorem Named.eccWriteback (stack : Nat) (line : Nat) : Named.Statement (.eccWriteback stack line) :=
  named_of_wf (isStack stack) ([.rhz stack]) rfl rfl (by simp_all [Page.wf])
theorem Named.sweepStart (stack : Nat) : Named.Statement (.sweepStart stack) :=
  named_of_wf (isStack stack) ([.rhz stack]) rfl rfl (by simp_all [Page.wf])
theorem Named.sweepDone (region : Nat) (last : Nat) : Named.Statement (.sweepDone region last) :=
  named_of_wf (isRegion region && isStack last) ([.rhz last]) rfl rfl (by simp_all [Page.wf])
theorem Named.stageSplitWrite (r : Requester) (stack : Nat) (value : Nat) : Named.Statement (.stageSplitWrite r stack value) :=
  named_of_wf (r.wf && isStack stack && isValue value) ([.rhz stack]) rfl rfl (by simp_all [Page.wf])
theorem Named.stagingZeroingDone (stack : Nat) : Named.Statement (.stagingZeroingDone stack) :=
  named_of_wf (isStack stack) ([.rhz stack]) rfl rfl (by simp_all [Page.wf])
theorem Named.cseRequest (f : Nat) : Named.Statement (.cseRequest f) :=
  named_of_wf (isFrond f) ([.frd f]) rfl rfl (by simp_all [Page.wf])
theorem Named.cseStackPart (stack : Nat) : Named.Statement (.cseStackPart stack) :=
  named_of_wf (isStack stack) ([.rhz stack]) rfl rfl (by simp_all [Page.wf])
theorem Named.cseMerge (f : Nat) : Named.Statement (.cseMerge f) :=
  named_of_wf (isFrond f) ([.frd f]) rfl rfl (by simp_all [Page.wf])
theorem Named.redArm (job : Nat) : Named.Statement (.redArm job) := pages_of_none rfl
theorem Named.redSend (job : Nat) : Named.Statement (.redSend job) := pages_of_none rfl
theorem Named.redRelease (job : Nat) : Named.Statement (.redRelease job) := pages_of_none rfl
theorem Named.contributionReceived (stack : Nat) (src : Nat) : Named.Statement (.contributionReceived stack src) :=
  named_of_wf (isStack stack) ([.rhz stack]) rfl rfl (by simp_all [Page.wf])
theorem Named.redDeadline (stack : Nat) (entry : Nat) : Named.Statement (.redDeadline stack entry) :=
  named_of_wf (isStack stack) ([.rhz stack]) rfl rfl (by simp_all [Page.wf])
theorem Named.redClose (stack : Nat) (entry : Nat) : Named.Statement (.redClose stack entry) :=
  named_of_wf (isStack stack) ([.rhz stack]) rfl rfl (by simp_all [Page.wf])
theorem Named.sampledCheck (stack : Nat) (entry : Nat) : Named.Statement (.sampledCheck stack entry) :=
  named_of_wf (isStack stack) ([.rhz stack]) rfl rfl (by simp_all [Page.wf])
theorem Named.updateInit (job : Nat) (ph : Phase) : Named.Statement (.updateInit job ph) := pages_of_none rfl
theorem Named.updateApply (job : Nat) (ph : Phase) : Named.Statement (.updateApply job ph) := pages_of_none rfl
theorem Named.updateClear (job : Nat) (ph : Phase) : Named.Statement (.updateClear job ph) := pages_of_none rfl
theorem Named.updateLoadprog (job : Nat) (ph : Phase) : Named.Statement (.updateLoadprog job ph) := pages_of_none rfl
theorem Named.layerUpdate (stack : Nat) : Named.Statement (.layerUpdate stack) :=
  named_of_wf (isStack stack) ([.rhz stack]) rfl rfl (by simp_all [Page.wf])
theorem Named.layerSkip (stack : Nat) : Named.Statement (.layerSkip stack) :=
  named_of_wf (isStack stack) ([.rhz stack]) rfl rfl (by simp_all [Page.wf])
theorem Named.layerFaultWrite (stack : Nat) : Named.Statement (.layerFaultWrite stack) :=
  named_of_wf (isStack stack) ([.rhz stack]) rfl rfl (by simp_all [Page.wf])
theorem Named.releaseStart (stack : Nat) (hdr : Nat) : Named.Statement (.releaseStart stack hdr) :=
  named_of_wf (isStack stack) ([.rhz stack]) rfl rfl (by simp_all [Page.wf])
theorem Named.mirrorSend (stack : Nat) (hdr : Nat) : Named.Statement (.mirrorSend stack hdr) :=
  named_of_wf (isStack stack) ([.rhz stack]) rfl rfl (by simp_all [Page.wf])
theorem Named.frameTransmit (l : Nat) : Named.Statement (.frameTransmit l) :=
  named_of_wf (isLink l) ([.lml l]) rfl rfl (by simp_all [Page.wf])
theorem Named.frameReceived (l flit : Nat) (blocks : List Superblock) : Named.Statement (.frameReceived l flit blocks) :=
  named_of_wf (isLink l && decide (flit < 5) && !blocks.isEmpty && decide (blocks.length ≤ 4) && blocks.all (fun b => b.ok)) ([.lml l]) rfl rfl (by simp_all [Page.wf])
theorem Named.controlWordReceived (l : Nat) (block : Superblock) : Named.Statement (.controlWordReceived l block) :=
  named_of_wf (isLink l && block.ok) ([.lml l]) rfl rfl (by simp_all [Page.wf])
theorem Named.rekeyForce (r : Requester) (l : Nat) (value : Nat) : Named.Statement (.rekeyForce r l value) :=
  named_of_wf (r.wf && isLink l && isValue value) ([.lml l]) rfl rfl (by simp_all [Page.wf])
theorem Named.laneFailed (l : Nat) (lane : Nat) : Named.Statement (.laneFailed l lane) :=
  named_of_wf (isLink l && isLane lane) ([.lml l]) rfl rfl (by simp_all [Page.wf])
theorem Named.laneErrorWindow (l : Nat) (counts : List Nat) : Named.Statement (.laneErrorWindow l counts) :=
  named_of_wf (isLink l) ([.lml l]) rfl rfl (by simp_all [Page.wf])
theorem Named.remapOrderedSet (l : Nat) (lane : Nat) : Named.Statement (.remapOrderedSet l lane) :=
  named_of_wf (isLink l && isLane lane) ([.lml l]) rfl rfl (by simp_all [Page.wf])
theorem Named.remapDeskewDone (l : Nat) : Named.Statement (.remapDeskewDone l) :=
  named_of_wf (isLink l) ([.lml l]) rfl rfl (by simp_all [Page.wf])
theorem Named.timeRequestTimer (l : Nat) : Named.Statement (.timeRequestTimer l) :=
  named_of_wf (isLink l) ([.lml l]) rfl rfl (by simp_all [Page.wf])
theorem Named.timeAnswer (l : Nat) : Named.Statement (.timeAnswer l) :=
  named_of_wf (isLink l) ([.lml l]) rfl rfl (by simp_all [Page.wf])
theorem Named.timeAnswerReceived (l t2 t3 t4 : Nat) : Named.Statement (.timeAnswerReceived l t2 t3 t4) :=
  named_of_wf (isLink l) ([.lml l]) rfl rfl (by simp_all [Page.wf])
theorem Named.timeAnswerTimeout (l : Nat) : Named.Statement (.timeAnswerTimeout l) :=
  named_of_wf (isLink l) ([.lml l]) rfl rfl (by simp_all [Page.wf])
theorem Named.linkSessionEstablish (l : Nat) (peer : SessionPeer) (node : Nat) :
    Named.Statement (.linkSessionEstablish l peer node) :=
  named_of_wf (isLink l) ([.lml l]) rfl rfl (by simp_all [Page.wf])
theorem Named.slotRetireNotice (l : Nat) (slot : Nat) : Named.Statement (.slotRetireNotice l slot) :=
  named_of_wf (isLink l) ([.lml l]) rfl rfl (by simp_all [Page.wf])
theorem Named.remoteWrite (l : Nat) : Named.Statement (.remoteWrite l) :=
  named_of_wf (isLink l) ([.lml l]) rfl rfl (by simp_all [Page.wf])
theorem Named.mirrorWrite (l : Nat) : Named.Statement (.mirrorWrite l) :=
  named_of_wf (isLink l) ([.lml l]) rfl rfl (by simp_all [Page.wf])
theorem Named.remoteWriteAck (l : Nat) : Named.Statement (.remoteWriteAck l) :=
  named_of_wf (isLink l) ([.lml l]) rfl rfl (by simp_all [Page.wf])
theorem Named.remoteWriteRefusal (l : Nat) : Named.Statement (.remoteWriteRefusal l) :=
  named_of_wf (isLink l) ([.lml l]) rfl rfl (by simp_all [Page.wf])
theorem Named.fabricStandby (src : MsgSource) : Named.Statement (.fabricStandby src) := pages_of_none rfl
theorem Named.fabricAdopt (src : MsgSource) : Named.Statement (.fabricAdopt src) := pages_of_none rfl
theorem Named.fabricActivate (src : MsgSource) : Named.Statement (.fabricActivate src) := pages_of_none rfl
theorem Named.fabricRoute (src : MsgSource) : Named.Statement (.fabricRoute src) := pages_of_none rfl
theorem Named.fabricRestore (src : MsgSource) : Named.Statement (.fabricRestore src) := pages_of_none rfl
theorem Named.thallusBoot : Named.Statement (.thallusBoot) := pages_of_none rfl
theorem Named.runtimeReady : Named.Statement (.runtimeReady) := pages_of_none rfl
theorem Named.imageDestReady (image : Nat) : Named.Statement (.imageDestReady image) := pages_of_none rfl
theorem Named.imageReadyTimeout (image : Nat) : Named.Statement (.imageReadyTimeout image) := pages_of_none rfl
theorem Named.trngHealthFail (kind : Nat) : Named.Statement (.trngHealthFail kind) := pages_of_none rfl
theorem Named.calyptra (src : MsgSource) : Named.Statement (.calyptra src) := pages_of_none rfl
theorem Named.calyptraSigned (failures : Nat) : Named.Statement (.calyptraSigned failures) := pages_of_none rfl
theorem Named.identity (port : Nat) : Named.Statement (.identity port) :=
  named_of_wf (isPort port) ([.hif port]) rfl rfl (by simp_all [Page.wf])
theorem Named.keyUpdate (port : Nat) : Named.Statement (.keyUpdate port) :=
  named_of_wf (isPort port) ([.hif port]) rfl rfl (by simp_all [Page.wf])
theorem Named.fwBegin (port : Nat) : Named.Statement (.fwBegin port) :=
  named_of_wf (isPort port) ([.hif port]) rfl rfl (by simp_all [Page.wf])
theorem Named.fwData (port : Nat) : Named.Statement (.fwData port) :=
  named_of_wf (isPort port) ([.hif port]) rfl rfl (by simp_all [Page.wf])
theorem Named.fwEnd (port : Nat) : Named.Statement (.fwEnd port) :=
  named_of_wf (isPort port) ([.hif port]) rfl rfl (by simp_all [Page.wf])
theorem Named.activate (port : Nat) : Named.Statement (.activate port) :=
  named_of_wf (isPort port) ([.hif port]) rfl rfl (by simp_all [Page.wf])
theorem Named.mailboxCancel (r : Requester) (port : Nat) (value : Nat) : Named.Statement (.mailboxCancel r port value) :=
  named_of_wf (r.wf && isPort port && isValue value) ([.hif port]) rfl rfl (by simp_all [Page.wf])
theorem Named.operatorEscPolicy (src : MsgSource) : Named.Statement (.operatorEscPolicy src) := pages_of_none rfl
theorem Named.operatorPartitionLayout (src : MsgSource) : Named.Statement (.operatorPartitionLayout src) := pages_of_none rfl
theorem Named.getMeasurements (port : Nat) (req : List Byte) : Named.Statement (.getMeasurements port req) := pages_of_none rfl
theorem Named.getVersion (port : Nat) (req : List Byte) : Named.Statement (.getVersion port req) := pages_of_none rfl
theorem Named.getCapabilities (port : Nat) (req : List Byte) : Named.Statement (.getCapabilities port req) := pages_of_none rfl
theorem Named.negotiateAlgorithms (port : Nat) (req : List Byte) : Named.Statement (.negotiateAlgorithms port req) := pages_of_none rfl
theorem Named.getDigests (port : Nat) (req : List Byte) : Named.Statement (.getDigests port req) := pages_of_none rfl
theorem Named.getCertificate (port : Nat) (req : List Byte) : Named.Statement (.getCertificate port req) := pages_of_none rfl
theorem Named.challenge (port : Nat) (req : List Byte) : Named.Statement (.challenge port req) := pages_of_none rfl
theorem Named.keyExchange (port : Nat) (req : List Byte) : Named.Statement (.keyExchange port req) := pages_of_none rfl
theorem Named.finish (port : Nat) (session : Nat) (req : List Byte) (chain : List Byte) (keys : List Byte) : Named.Statement (.finish port session req chain keys) := pages_of_none rfl
theorem Named.spdmKeyUpdate (port : Nat) (session : Nat) (req : List Byte) : Named.Statement (.spdmKeyUpdate port session req) := pages_of_none rfl
theorem Named.heartbeat (port : Nat) (session : Nat) (req : List Byte) : Named.Statement (.heartbeat port session req) := pages_of_none rfl
theorem Named.endSession (port : Nat) (session : Nat) (req : List Byte) : Named.Statement (.endSession port session req) := pages_of_none rfl
theorem Named.chunkSend (port : Nat) (req : List Byte) : Named.Statement (.chunkSend port req) := pages_of_none rfl
theorem Named.chunkGet (port : Nat) (req : List Byte) : Named.Statement (.chunkGet port req) := pages_of_none rfl
theorem Named.vendorDefinedRequest (port : Nat) (session : Nat) (req : List Byte) : Named.Statement (.vendorDefinedRequest port session req) := pages_of_none rfl
theorem Named.ideKmKeyProg (port : Nat) (session : Nat) (req : List Byte) : Named.Statement (.ideKmKeyProg port session req) :=
  named_of_wf (isPort port) ([.hif port]) rfl rfl (by simp_all [Page.wf])
theorem Named.ideIntegrityFail (port : Nat) (stream : Nat) : Named.Statement (.ideIntegrityFail port stream) :=
  named_of_wf (isPort port) ([.hif port]) rfl rfl (by simp_all [Page.wf])
theorem Named.lockInterface (port : Nat) (session : Nat) (req : List Byte) : Named.Statement (.lockInterface port session req) :=
  named_of_wf (isPort port) ([.hif port]) rfl rfl (by simp_all [Page.wf])
theorem Named.getDeviceInterfaceState (port : Nat) (session : Nat) (req : List Byte) : Named.Statement (.getDeviceInterfaceState port session req) :=
  named_of_wf (isPort port) ([.hif port]) rfl rfl (by simp_all [Page.wf])
theorem Named.getDeviceInterfaceReport (port : Nat) (session : Nat) (req : List Byte) : Named.Statement (.getDeviceInterfaceReport port session req) :=
  named_of_wf (isPort port) ([.hif port]) rfl rfl (by simp_all [Page.wf])
theorem Named.startInterface (port : Nat) (session : Nat) (req : List Byte) : Named.Statement (.startInterface port session req) :=
  named_of_wf (isPort port) ([.hif port]) rfl rfl (by simp_all [Page.wf])
theorem Named.stopInterface (port : Nat) (session : Nat) (req : List Byte) : Named.Statement (.stopInterface port session req) :=
  named_of_wf (isPort port) ([.hif port]) rfl rfl (by simp_all [Page.wf])
theorem Named.ctxCreate (p : Nat) : Named.Statement (.ctxCreate p) :=
  named_of_wf (isPart p) ([.prt p]) rfl rfl (by simp_all [Page.wf])
theorem Named.jointCreate (p : Nat) : Named.Statement (.jointCreate p) :=
  named_of_wf (isPart p) ([.prt p]) rfl rfl (by simp_all [Page.wf])
theorem Named.policyKeyTransfer (l : Nat) (ctx : Nat) : Named.Statement (.policyKeyTransfer l ctx) :=
  named_of_wf (isLink l && isCtx ctx) ([.lml l, .ctx ctx]) rfl rfl (by simp_all [Page.wf])
theorem Named.teardown (p : Nat) : Named.Statement (.teardown p) :=
  named_of_wf (isPart p) ([.prt p]) rfl rfl (by simp_all [Page.wf])
theorem Named.teardownRetireDestroy (c : Nat) : Named.Statement (.teardownRetireDestroy c) :=
  named_of_wf (isCtx c) ([.ctx c]) rfl rfl (by simp_all [Page.wf])
theorem Named.teardownRelease (c : Nat) : Named.Statement (.teardownRelease c) :=
  named_of_wf (isCtx c) ([.ctx c]) rfl rfl (by simp_all [Page.wf])
theorem Named.regionCreate (p : Nat) : Named.Statement (.regionCreate p) :=
  named_of_wf (isPart p) ([.prt p]) rfl rfl (by simp_all [Page.wf])
theorem Named.regionRekey (p : Nat) : Named.Statement (.regionRekey p) :=
  named_of_wf (isPart p) ([.prt p]) rfl rfl (by simp_all [Page.wf])
theorem Named.regionDestroy (p : Nat) : Named.Statement (.regionDestroy p) :=
  named_of_wf (isPart p) ([.prt p]) rfl rfl (by simp_all [Page.wf])
theorem Named.slotBind (p : Nat) : Named.Statement (.slotBind p) :=
  named_of_wf (isPart p) ([.prt p]) rfl rfl (by simp_all [Page.wf])
theorem Named.slotUnbind (p : Nat) : Named.Statement (.slotUnbind p) :=
  named_of_wf (isPart p) ([.prt p]) rfl rfl (by simp_all [Page.wf])
theorem Named.releaseGrant (p : Nat) : Named.Statement (.releaseGrant p) :=
  named_of_wf (isPart p) ([.prt p]) rfl rfl (by simp_all [Page.wf])
theorem Named.sqDoorbell (r : Requester) (c : Nat) (q : Nat) (len : Nat) (value : Nat) : Named.Statement (.sqDoorbell r c q len value) :=
  named_of_wf (r.wf && isCtx c && isValue value) ([.ctx c]) rfl rfl (by simp_all [Page.wf])
theorem Named.cqHeadReturn (r : Requester) (c : Nat) (len : Nat) (value : Nat) : Named.Statement (.cqHeadReturn r c len value) :=
  named_of_wf (r.wf && isCtx c && isValue value) ([.ctx c]) rfl rfl (by simp_all [Page.wf])
theorem Named.commandStart (p : Nat) : Named.Statement (.commandStart p) :=
  named_of_wf (isPart p) ([.prt p]) rfl rfl (by simp_all [Page.wf])
theorem Named.launch (job : Nat) : Named.Statement (.launch job) := pages_of_none rfl
theorem Named.launchComplete (job : Nat) : Named.Statement (.launchComplete job) := pages_of_none rfl
theorem Named.dma (job : Nat) : Named.Statement (.dma job) := pages_of_none rfl
theorem Named.cse (job : Nat) : Named.Statement (.cse job) := pages_of_none rfl
theorem Named.fence (job : Nat) : Named.Statement (.fence job) := pages_of_none rfl
theorem Named.signalWrite (job : Nat) : Named.Statement (.signalWrite job) := pages_of_none rfl
theorem Named.signalWait (job : Nat) : Named.Statement (.signalWait job) := pages_of_none rfl
theorem Named.signalTimeout (job : Nat) : Named.Statement (.signalTimeout job) := pages_of_none rfl
theorem Named.captureMark (job : Nat) : Named.Statement (.captureMark job) := pages_of_none rfl
theorem Named.portReset (x : Nat) (cause : Nat) : Named.Statement (.portReset x cause) :=
  named_of_wf (isPort x) ([.hif x]) rfl rfl (by simp_all [Page.wf])
theorem Named.pf0Flr (x : Nat) : Named.Statement (.pf0Flr x) :=
  named_of_wf (isPort x) ([.hif x]) rfl rfl (by simp_all [Page.wf])
theorem Named.pcieLinkTrained (x : Nat) (speed : Nat) (width : Nat) : Named.Statement (.pcieLinkTrained x speed width) :=
  named_of_wf (isPort x) ([.hif x]) rfl rfl (by simp_all [Page.wf])
theorem Named.ptmRequest (x : Nat) : Named.Statement (.ptmRequest x) :=
  named_of_wf (isPort x) ([.hif x]) rfl rfl (by simp_all [Page.wf])
theorem Named.hostDmaErrorCompletion (x : Nat) (e : EngineId) (kind : Nat) (k : Nat) : Named.Statement (.hostDmaErrorCompletion x e kind k) :=
  named_of_wf (isPort x && e.wf) ([.hif x] ++ e.pages) rfl rfl (by
      have := engine_pages_wf e
      simp_all [Page.wf, or_imp])
theorem Named.registerWrite (r : Requester) (page : Page) (off : Nat) (len : Nat) (value : Nat) : Named.Statement (.registerWrite r page off len value) :=
  named_of_wf (r.wf && page.wf && isOffset off && isLength len && isValue value) ([page]) rfl rfl (by simp_all [Page.wf])
theorem Named.evtStsWrite (r : Requester) (page : Page) (value : Nat) : Named.Statement (.evtStsWrite r page value) :=
  named_of_wf (r.wf && page.wf && isValue value) ([page]) rfl rfl (by simp_all [Page.wf])
theorem Named.evtMaskWrite (r : Requester) (page : Page) (value : Nat) : Named.Statement (.evtMaskWrite r page value) :=
  named_of_wf (r.wf && page.wf && isValue value) ([page]) rfl rfl (by simp_all [Page.wf])
theorem Named.pageCtlLock (r : Requester) (page : Page) (value : Nat) : Named.Statement (.pageCtlLock r page value) :=
  named_of_wf (r.wf && page.wf && isValue value) ([page]) rfl rfl (by simp_all [Page.wf])
theorem Named.domainSwitchRequest (r : Requester) (dom : Nat) (value : Nat) : Named.Statement (.domainSwitchRequest r dom value) := pages_of_none rfl
theorem Named.domainSwitchBoundary (dom : Nat) : Named.Statement (.domainSwitchBoundary dom) := pages_of_none rfl
theorem Named.domainSwitched (dom : Nat) : Named.Statement (.domainSwitched dom) := pages_of_none rfl
theorem Named.timebaseTick : Named.Statement (.timebaseTick) := pages_of_none rfl
theorem Named.tmbSetGo (r : Requester) (value : Nat) : Named.Statement (.tmbSetGo r value) := pages_of_none rfl
theorem Named.timeSet : Named.Statement (.timeSet) := pages_of_none rfl
theorem Named.tmbSlewWrite (r : Requester) (value : Nat) : Named.Statement (.tmbSlewWrite r value) := pages_of_none rfl
theorem Named.tmbNsLoRead (r : Requester) (len : Nat) : Named.Statement (.tmbNsLoRead r len) := pages_of_none rfl
theorem Named.tmbLatchedRead (r : Requester) (frac : Bool) : Named.Statement (.tmbLatchedRead r frac) := pages_of_none rfl
theorem Named.ppsEdge : Named.Statement (.ppsEdge) := pages_of_none rfl
theorem Named.ref10mEdge : Named.Statement (.ref10mEdge) := pages_of_none rfl
theorem Named.throttleWindow : Named.Statement (.throttleWindow) := pages_of_none rfl
theorem Named.currentSample (watts : Nat) (milliamps : Nat) : Named.Statement (.currentSample watts milliamps) := pages_of_none rfl
theorem Named.thermalSample (temps : List Nat) : Named.Statement (.thermalSample temps) := pages_of_none rfl
theorem Named.capLoop (watts : Nat) : Named.Statement (.capLoop watts) := pages_of_none rfl
theorem Named.extThrottle (low : Bool) : Named.Statement (.extThrottle low) := pages_of_none rfl
theorem Named.inputFaultShutdown (cause : Nat) (millivolts : Nat) : Named.Statement (.inputFaultShutdown cause millivolts) := pages_of_none rfl
theorem Named.inputRange (high : Bool) (millivolts : Nat) : Named.Statement (.inputRange high millivolts) := pages_of_none rfl
theorem Named.powerStageRestart : Named.Statement (.powerStageRestart) := pages_of_none rfl
theorem Named.meterSample (codes : List Int) : Named.Statement (.meterSample codes) := pages_of_none rfl
theorem Named.meterAllocate (resident : List Nat) : Named.Statement (.meterAllocate resident) := pages_of_none rfl
theorem Named.meterInterval : Named.Statement (.meterInterval) := pages_of_none rfl
theorem Named.meterPowerFail : Named.Statement (.meterPowerFail) := pages_of_none rfl
theorem Named.meterReady (gap : Nat) : Named.Statement (.meterReady gap) := pages_of_none rfl
theorem Named.meterRead (msg : List Byte) : Named.Statement (.meterRead msg) := pages_of_none rfl
theorem Named.sealRead (msg : List Byte) : Named.Statement (.sealRead msg) := pages_of_none rfl
theorem Named.meterLog (msg : List Byte) : Named.Statement (.meterLog msg) := pages_of_none rfl
theorem Named.meterAck (msg : List Byte) : Named.Statement (.meterAck msg) := pages_of_none rfl
theorem Named.meterParam (msg : List Byte) : Named.Statement (.meterParam msg) := pages_of_none rfl
theorem Named.meterFwBegin (len : Nat) : Named.Statement (.meterFwBegin len) := pages_of_none rfl
theorem Named.meterFwData (off : Nat) (bytes : List Byte) : Named.Statement (.meterFwData off bytes) := pages_of_none rfl
theorem Named.meterFwEnd : Named.Statement (.meterFwEnd) := pages_of_none rfl
theorem Named.sensorPoll (readings : List Nat) : Named.Statement (.sensorPoll readings) := pages_of_none rfl
theorem Named.pldmGetSensorReading (sensor : Nat) : Named.Statement (.pldmGetSensorReading sensor) := pages_of_none rfl
theorem Named.pldmRequestUpdate (image : Nat) (len : Nat) : Named.Statement (.pldmRequestUpdate image len) := pages_of_none rfl
theorem Named.pldmRequestFirmwareData (data : List Byte) : Named.Statement (.pldmRequestFirmwareData data) := pages_of_none rfl
theorem Named.pldmActivateFirmware (image : Nat) (selfContained : Bool) : Named.Statement (.pldmActivateFirmware image selfContained) := pages_of_none rfl
theorem Named.ptpMessage (bytes : Option (List Byte)) : Named.Statement (.ptpMessage bytes) := pages_of_none rfl
theorem Named.timeSampleSteer (period : Nat) : Named.Statement (.timeSampleSteer period) := pages_of_none rfl
theorem Named.timeSourceLost : Named.Statement (.timeSourceLost) := pages_of_none rfl
theorem Named.ethLink (up : Bool) : Named.Statement (.ethLink up) := pages_of_none rfl
theorem Named.logDequeue : Named.Statement (.logDequeue) := pages_of_none rfl
theorem Named.logPageProgram : Named.Statement (.logPageProgram) := pages_of_none rfl
theorem Named.logStart : Named.Statement (.logStart) := pages_of_none rfl
theorem Named.captureStart (c : Nat) : Named.Statement (.captureStart c) :=
  named_of_wf (isCtx c) ([.ctx c]) rfl rfl (by simp_all [Page.wf])
theorem Named.captureStop (c : Nat) : Named.Statement (.captureStop c) :=
  named_of_wf (isCtx c) ([.ctx c]) rfl rfl (by simp_all [Page.wf])
theorem Named.replayStart (c : Nat) : Named.Statement (.replayStart c) :=
  named_of_wf (isCtx c) ([.ctx c]) rfl rfl (by simp_all [Page.wf])
theorem Named.replayStop (c : Nat) : Named.Statement (.replayStop c) :=
  named_of_wf (isCtx c) ([.ctx c]) rfl rfl (by simp_all [Page.wf])
theorem Named.perstNRising (x : Nat) : Named.Statement (.perstNRising x) :=
  named_of_wf (isPort x) ([.hif x]) rfl rfl (by simp_all [Page.wf])
theorem Named.slotBindConfirmation (l : Nat) (slot : Nat) (fsid : Nat) : Named.Statement (.slotBindConfirmation l slot fsid) :=
  named_of_wf (isLink l) ([.lml l]) rfl rfl (by simp_all [Page.wf])
theorem Named.trngStartUpTest : Named.Statement (.trngStartUpTest) := pages_of_none rfl
theorem Named.registerRead (r : Requester) (page : Page) (off : Nat) (len : Nat) : Named.Statement (.registerRead r page off len) :=
  named_of_wf (r.wf && page.wf && isOffset off && isLength len) ([page]) rfl rfl (by simp_all [Page.wf])
theorem Named.configurationRequest (x : Nat) (fn : Nat) (off : Nat) (value : Option Nat) : Named.Statement (.configurationRequest x fn off value) :=
  named_of_wf (isPort x && value.all isValue) ([.hif x]) rfl rfl (by simp_all [Page.wf])
theorem Named.aerError (x : Nat) (uncorrectable : Bool) (status : Nat) : Named.Statement (.aerError x uncorrectable status) :=
  named_of_wf (isPort x) ([.hif x]) rfl rfl (by simp_all [Page.wf])
theorem Named.pldmCancelUpdate : Named.Statement (.pldmCancelUpdate) := pages_of_none rfl
theorem Named.mctpControlMessage (msg : List Byte) : Named.Statement (.mctpControlMessage msg) := pages_of_none rfl

end Sys2Proof.Laws
end

