-- ==== Sys2Proof/Tests/Slice0.lean ====
section
/-!
SUPPORT. Tests of the model, and for every statement a state that meets its hypotheses.
-/
namespace Sys2Proof.Tests

open Sys2Proof Sys2Proof.Machine

set_option Elab.async false

/-- A step whose outcome passes a check answers a next state that passes it. -/
theorem completes_of {o : Host.Outcome State Fault Refusal} {p : State → Bool} {q : State → Prop}
    (h : (match o with | .next t => p t | _ => false) = true) (hq : ∀ t, p t = true → q t) : ∃ t, o = .next t ∧ q t := by
  cases o with
  | next t => exact ⟨t, rfl, hq t h⟩
  | fault _ => cases h
  | refused _ => cases h

/-- A state in which pinna 0 runs a LAUNCH and stands at instruction word `w`; s1 holds 1, s2 holds 2, and engine 0 of
its frond has ended 1 of the 2 descriptors it submitted. -/
def onePinna (w : Nat) : Pinna :=
  { imem := SMap.set 0#64 [] 0 (BitVec.ofNat 64 w), seq := .running, halted := false,
    sregs := [(1, 1#32), (2, 2#32)], launch := some ⟨0, 0, 0#64, false⟩, submitted := [(0, 2)], done := [(0, 1)] }
def oneInstr (w : Nat) : State := { State.reset with pinnae := [(0, onePinna w)] }

/-- An instruction word as the queue of a pinna holds it, its registers all zero. -/
def queued (w : Nat) : QEntry := { word := BitVec.ofNat 64 w, ext := 0#64, pc := 0, sregs := [], aregs := [] }

/-- A state in which `w` stands at the head of pinna 0's queue; in the second, group 1 and group 0 are OPEN. -/
def oneQueued (w : Nat) : State := { State.reset with pinnae := [(0, { onePinna 0 with queue := [queued w] })] }
def oneOpened (w : Nat) : State :=
  let p := onePinna 0
  let gs : SMap Group := [(0, { state := .opened }), (1, { state := .opened })]
  { State.reset with pinnae := [(0, { p with queue := [queued w], groups := gs })] }

/-- A tree of pinnae 0 and 1 of frond 0 in which pinna 0 waits for pinna 1's tile. -/
def treeTile : Tile := { src := 1, dst := 0, spec := 0x40#32, words := [], flags := 0, lost := 0, job := 0 }
def inTree : State :=
  let p := onePinna 0
  let run : TreeRun := { spec := 0x40#32, group := 0, pc := 0, cross := false, level := 1, lost := 0 }
  { State.reset with pinnae := [(0, { p with groups := [(0, { state := .inTree })], treeRun := some run })] }

/-- A state out of reset in which port 0's link is up, and the host's physical function there. -/
def upState : State :=
  let c := State.reset.clk
  { State.reset with clk := { c with inReset := false }, ports := [(0, { linkUp := true })] }
def hostPf : Requester := .host 0 0 false

/-- The same with an ACTIVE region 0 of context 0 in units 1 and 2 of stack 0. -/
def oneRegion : State :=
  let g : Region := { state := .active, inStacks := 1, base := 1, limit := 2 }
  { upState with regions := [(0, g)] }

/-- A descriptor of one FP32 element read from host window 0. -/
def runningBytes : List Byte := leBytes 64 (4 * 2 ^ 44 + 2 ^ 143 + 2 ^ 250)

/-- A descriptor of context 1 for `n` FP32 elements copied from 0 to 4,096 of a frond's memory. -/
def copyBytes (n : Nat) : List Byte :=
  leBytes 64 (3 * 2 ^ 44 + 4096 * 2 ^ 48 + 3 * 2 ^ 92 + 2 ^ 143 + 2 ^ 165 + n * 2 ^ 250)

/-- A CSE request for stacks 0 and 1, of one position and one query of 32 BF16 elements at 0 of frond memory, with partials
to 4,096 and flag 0. -/
def cseBytes : List Byte :=
  leBytes 64 (3 * 2 ^ 44 + 4096 * 2 ^ 64 + 3 * 2 ^ 108 + 2 ^ 320 + 2 ^ 352 + 3 * 2 ^ 448 + 2 ^ 460 + 2 ^ 477)

/-- A send of one span of 32 FP32 elements at 4,096 of frond memory to stack 0 of node 0xFFFF. -/
def sendBytes : List Byte :=
  leBytes 64 (4096 + 3 * 2 ^ 44 + 2 * 2 ^ 51 + 3 * 2 ^ 108 + 0xFFFF * 2 ^ 144 + 2 ^ 224 + 2 ^ 288 + 32 * 2 ^ 320)

/-- An arm of a type-0 buffer of 32 elements at 0 of stack 0, with its table at 4,096. -/
def armBytes : List Byte := leBytes 64 (4096 * 2 ^ 64 + 32 * 2 ^ 256 + 2 ^ 404)

/-- Bytes at 0 of frond 0's memory. -/
def withBytes (s : State) (bs : List Byte) : State := s.setFrond 0 { s.frond 0 with mem := Mem.write [] 0 bs }

/-- Region 0, of unit 0 of stack 0, belongs to context 1. -/
def ownsUnit (s : State) : State := { s with regions := [(0, { state := .active, owner := 1, inStacks := 1 })] }

/-- A contribution of one INT8 block of zeros for group 0, buffer 0, step 0, rank 0, weight 1. -/
def oneContrib : List Byte := (List.replicate 12 0#8).set 0 1#8 ++ [1#8] ++ List.replicate 51 0#8 ++ List.replicate 32 0#8

/-- Command 9 of context 1; its entry has command byte `cmd` and operation `op` in quadword 3. -/
def theJob (cmd op : Nat) : Job :=
  { id := 9, ctx := 1, queue := 0, index := 0,
    entry := leBytes 8 cmd ++ leBytes 8 0 ++ leBytes 8 (2 ^ 44 * 3) ++ leBytes 8 op ++ leBytes 32 0 }

/-- The state after the descriptor of `theJob` is read. -/
def descRead (s : State) (cmd op : Nat) : State := (s.frondDesc 1 (theJob cmd op) 0 64).1

/-- A state in which command 9 of context 1 has started; its entry has command byte `cmd` and operation `op` (in quadword
3 for a REDUCE), and names engine 0 of frond 0, whose descriptor lies at 0 of the frond's memory with `op` where an UPDATE
has its operation. -/
def oneJob (cmd op : Nat) : State :=
  { State.reset with ctxs := [(1, { state := .active, jobs := [theJob cmd op] })],
                     fronds := SMap.set {} [] 0 { mem := Mem.putByte [] 6 (BitVec.ofNat 8 (16 * op)) } }

/-- Link 15 in a phase, with slot 8 bound to context 31 in epoch 1. -/
def oneLink (ph : LinkPhase) : Link :=
  { phase := ph, slots := SMap.set {} [] 8 { bound := true, ctx := 31, txEpoch := 1, rxEpoch := 1 }, lm := some [] }
def onLink (x : Link) : State := State.setLink upState 15 x

/-- A state in which Thallus serves the request of `len` bytes at 0 of host 0's memory: operation `op`, the byte at 2 is
`b2`, the one at 16 is `b16`. -/
def oneMailbox (op len b2 b16 : Nat) : State :=
  let mem := Mem.write [] 0 ([BitVec.ofNat 8 op, 0#8, BitVec.ofNat 8 b2] ++ List.replicate 13 0#8 ++ [BitVec.ofNat 8 b16])
  let c := State.reset.clk
  State.setFld { State.reset with clk := { c with inReset := false }, thl := { stage := 1, trngOk := true, queue := [.mailbox 0] },
                                  ports := [(0, { linkUp := true, hostMem := mem })] } (.mbx 0) Reg.THL_MBX_LEN 23 0 len

/-- A state with responders at work: port 0 and the management controller; session 5 of each is open, and VF 32 of port 0
is enabled with a TDI that session 5 holds in state `st`. -/
def oneSession (st : TdiState) : State :=
  let c := State.reset.clk
  let r : Spdm := { stage := 3, sessions := [(5, some { established := true })] }
  let p : Port := { linkUp := true, spdm := r, vfEn := true, numVfs := 32, tdis := SMap.set {} [] 32 { state := st, session := 5 },
                    ide := [(32, { secure := true })] }
  State.setFld { State.reset with clk := { c with inReset := false }, thl := { stage := 1, trngOk := true },
                                  ports := [(0, p)], mgt := { spdm := r } } .mgt Reg.MGT_STS 0 0 1

/-- A state in which Thallus serves the request block `bs` of partition 0, at 0 of host 0's memory; context 0 is in state
`st`, and link 0 is up with slot 1 bound to context 0. -/
def oneRequest (bs : List Byte) (st : CtxState) : State :=
  let c := State.reset.clk
  let x : Link := { phase := .up, slots := SMap.set {} [] 1 { bound := true, txEpoch := 1, rxEpoch := 1 } }
  let s := State.reset.setFld .fabric Reg.LML_NODE 17 16 2
  { s with clk := { c with inReset := false }, thl := { stage := 1, trngOk := true, queue := [.tenancy 0] },
                     ports := [(0, { linkUp := true, hostMem := Mem.write [] 0 bs })],
                     ctxs := SMap.set {} [] 0 { state := st }, links := SMap.set {} [] 0 x }

/-- A state in which context 0, ACTIVE, has a submission queue 3 of 16 entries at 0 of stack 0, with `e` as its first entry
and tail 1, and a completion queue of 16 records at 1 MiB; region 0 covers both, and VF 1 of port 0 is enabled. -/
def oneQueue (e : List Byte) (cqen : Nat) : State :=
  let g : Region := { state := .active, inStacks := 1, base := 0, limit := 2 }
  let c := State.reset.clk
  let s : State := { State.reset with
    clk := { c with inReset := false }, ports := [(0, { linkUp := true, vfEn := true, numVfs := 1 })], regions := [(0, g)],
    ctxs := [(0, { state := .active })], stackTab := [(0, { mem := Mem.write [] 0 e })] }
  (s.setFld (.ctx 0) (sqOff 3) 107 0 (2 ^ 47 + 4 * 2 ^ 48 + 2 ^ 96)).setFld (.ctx 0) Reg.CTX_CQ 107 0
    (2 ^ 20 + cqen * 2 ^ 47 + 4 * 2 ^ 48)

/-- A state out of reset whose domains run, with host port 0's link up and the management strap at port 0. -/
def running : State :=
  let c := State.reset.clk
  { State.reset with clk := { c with inReset := false, phase := .running }, ports := [(0, { linkUp := true })] }

/-- A running module whose meter is ready, in the rule 0 and an interval of 15 minutes that has passed. -/
def metered : State :=
  { running with met := { ready := true, params := [0#8, 15#8], intervalMs := 900000 } }

/-- A running module whose management controller is ready and has its Ethernet link, with `ctl` in `MGT_TIME_CTL`, and whose
Thallus is ready. -/
def managed (ctl : Nat) : State :=
  let s : State := { running with thl := { stage := 1, trngOk := true } }
  (s.setFld .mgt Reg.MGT_STS 1 0 3).setWord .mgt Reg.MGT_TIME_CTL ctl

/-! The check of WellFormed: for each unit an ill-formed term is refused, and the last well-formed one is not. -/

theorem test_wf_units :
    (Instr.nop 768).wf = false ∧ (Instr.nop 767).wf = true ∧ (Instr.commandStart 4).wf = false ∧ (Instr.commandStart 3).wf = true
      ∧ (Instr.contextResetDone 32).wf = false ∧ (Instr.contextResetDone 31).wf = true
      ∧ (Instr.linkTrained 16).wf = false ∧ (Instr.linkTrained 15).wf = true
      ∧ (Instr.stagingZeroingDone 12).wf = false ∧ (Instr.stagingZeroingDone 11).wf = true := by decide

theorem test_wf_parts_of_units :
    isFrond 32 = false ∧ isFrond 31 = true ∧ isResponder 3 = false ∧ isResponder 2 = true ∧ isPort 2 = false ∧ isPort 1 = true
      ∧ isLane 9 = false ∧ isLane 8 = true ∧ isRegion 64 = false ∧ isRegion 63 = true
      ∧ isValue (2 ^ 64) = false ∧ isValue (2 ^ 64 - 1) = true ∧ isOffset 16384 = false ∧ isOffset 16383 = true
      ∧ isLength 0 = false ∧ isLength 9 = false ∧ isLength 8 = true := by decide

theorem test_wf_names :
    (Requester.host 0 33 false).wf = false ∧ (Requester.host 2 0 true).wf = false ∧ (Requester.host 1 32 true).wf = true
      ∧ (EngineId.frond 0 4).wf = false ∧ (EngineId.frond 31 3).wf = true ∧ (EngineId.host 2 0).wf = false
      ∧ (Page.pna 768).wf = false ∧ (Page.ctx 32).wf = false ∧ (Page.msix 0 33).wf = false ∧ (Page.rhz 11).wf = true
      ∧ (MsgSource.link 16).wf = false ∧ (MsgSource.mailbox 2).wf = false ∧ (MsgSource.link 15).wf = true := by decide

/-! Worked examples of the spec. -/

/-- The two vectors of R49. -/
theorem test_generator_vectors :
    generate 0#64 0#32 0 = 0x267111C7#32 ∧ generate 1#64 0x00420003#32 0x100000005 = 0xBB634892#32 := by decide +kernel

/-- The FP32 word 0x4049_9000 and its negative narrowed to BF16 (example after R49). -/
theorem test_narrowing_to_bf16 :
    convert .bf16 false .rne 0 (decodeElem .fp32 0x40499000).res = (0x404A, .inexact)
      ∧ convert .bf16 false (.stoch 0#64 0#32 false) 0 (decodeElem .fp32 0x40499000).res = (0x4049, .inexact)
      ∧ convert .bf16 false (.stoch 1#64 0x00420003#32 false) 0x100000005 (decodeElem .fp32 0xC0499000).res = (0xC04A, .inexact) := by
  decide +kernel

/-- The E4M3 block of 1000, −3, 0.001 and 29 zeros under both scale rules (example after R44). -/
theorem test_e4m3_block :
    (let xs := (([.fin false 1000 0, .fin true 3 0, .fin false 0x83126F (-33)] : List Val) ++ List.replicate 29 (Val.fin false 0 0)).zipIdx
     let a := quantizeBlock .e4m3 .fit false .rne xs
     let b := quantizeBlock .e4m3 .ocp false .rne xs
     a.scale = 0x81 ∧ a.elems.take 4 = [0x78, 0xB4, 0x00, 0x00] ∧ a.tally.inexact = 1 ∧ a.tally.flushed = 1
       ∧ b.scale = 0x80 ∧ b.elems.take 3 = [0x7E, 0xBC, 0x00] ∧ b.tally.saturated = 1 ∧ b.tally.flushed = 1) := by
  decide +kernel

/-- Cancellation with a small term between, and the order in which nothing is lost (example after R68). -/
theorem test_w96_cancellation :
    (let a := w96Add 0#96 (some (16129, 88))
     let b := w96Add a.word (some (3, -12))
     let c := w96Add b.word (some (-16129, 88))
     a.word = 0x80A600000000000000003F01#96 ∧ a.lost = false ∧ b.word = 0x80657E020000000000000000#96 ∧ b.lost = true
       ∧ c.word = 0#96
       ∧ w96Add (w96Add a.word (some (-16129, 88))).word (some (3, -12)) = { word := 0x804200000000000000000003#96 }) := by
  decide +kernel

/-- The metadata lines of line 857,502 of region 5 (example of R299). -/
theorem test_tree_line_addresses :
    (let r : Region := { tree := true, inStacks := 128, base := 0x100, limit := 0x1FF, mbase := 0x200, mlimit := 0x244 }
     let line := 0x23456780 / 64
     (r.geo.path line).map (· * 64) =
         [0x4068ACC0, 0x480D1580, 0x4881A280, 0x48903440, 0x48920680, 0x489240C0, 0x48924800]
       ∧ r.geo.tagLine line * 64 = 0x4468ACC0) := by decide +kernel

/-- The four quadwords of one entry (example of R452). -/
theorem test_log_entry_bytes :
    (let e : LogEntry := { time := 12345678901, code := 0x300A, ptype := 7, inst := 5, grp := 0x13, flags := 4, owner := 0xAA,
                           arg1 := 0x123, arg2 := 7, boot := 3 }
     (List.range 4).map (fun i => leNat (slice (e.bytes 0x1A2B) (8 * i) 8)) =
       [0x00000002DFDC1C35, 0x0507300A00001A2B, 0x0000012300AA0413, 0x0000000300000007]) := by decide

/-- Steps 1 and 2 of one slot, E4M3 under code 0x80 with head 1, decay 0x20 and bounds 0x70 and 0x90 (example of R174). -/
theorem test_estimator_steps :
    (let slot (s : State) (obs : Nat) (sat : Nat) : State := ((s.setEst 0 5 119 96 obs).setEst 0 5 120 120 1).setEst 0 5 159 128 sat
     let s0 := ((State.reset.setEst 0 5 31 0 (1 + 4 * 2 + 2 ^ 5 + 0x20 * 2 ^ 16)).setEst 0 5 47 32 0x9070).setEst 0 5 55 48 0x80
     let s1 := (slot s0 0x82C 0).estFold 0 5
     let s2 := (slot s1 0x9F4 1).estFold 0 5
     let s3 := (slot s2 0x790 0).estFold 0 5
     s1.estFld 0 5 55 48 = 0x80 ∧ s1.estFld 0 5 87 64 = 0x82C ∧ s2.estFld 0 5 55 48 = 0x82 ∧ s3.estFld 0 5 87 64 = 0x9D4
       ∧ estObs 300 0 = 0x82C ∧ estObs 1000 0 = 0x9F4) := by decide +kernel

/-- The shares of one millisecond (example of R436). -/
theorem test_meter_shares :
    ({ State.reset.met with params := [] }.quarters 3600000 [900000, 850000, 700000, 550000]).1 = [1080000, 1020000, 840000, 660000]
      ∧ ctxShares 2100000 [800000, 0, 0, 400000, 0, 250000, 0, 0] = some [1158622, 0, 0, 579310, 0, 362068, 0, 0] := by decide +kernel

/-- The fields of the packed MMA of the worked example. -/
theorem test_mma_fields :
    (let w := 0x4044503234540000
     fOp w = 0x40 ∧ bits w 55 52 = 4 ∧ bits w 51 48 = 4 ∧ bits w 47 44 = 5 ∧ bits w 43 36 = 3 ∧ bits w 35 32 = 2
       ∧ bits w 31 28 = 3 ∧ bits w 19 15 = 8) := by decide

/-- A slew of 209,715 units of 2^−16 ns at the reset step: 16 units in each of 13,107 cycles and 3 in the last (example of
R417). -/
theorem test_slew_steps :
    slewStep (209715 * 2 ^ 8) 0x1000 = 16 * 2 ^ 8 ∧ 209715 * 2 ^ 8 - 13107 * (slewStep (209715 * 2 ^ 8) 0x1000) = 3 * 2 ^ 8
      ∧ slewStep (3 * 2 ^ 8) 0x1000 = 3 * 2 ^ 8 := by decide

/-- The page address and `PAGE_ID` of pinna 461 (example of R395). -/
theorem test_pinna_461 :
    frondOfPinna 461 = 19 ∧ quarterOfPinna 461 = 2 ∧ State.reset.readWord .thallus (.pna 461) 0 = 0x07130501 := by decide

/-- Whether a command completes in a state of which `p` holds. -/
def gives (i : Instr) (s : State) (p : State → Bool) : Bool :=
  match exec i s with
  | .next t => p t
  | _ => false

/-! Single steps, from the words of the rules. -/

/-- SALU s3 := s1 − s2 wraps (opcode 0x03, sub 1), and a reserved operation stops with 0x3007 (R60). -/
theorem test_salu :
    gives (.salu 0) (oneInstr (0x03 * 2 ^ 56 + 3 * 2 ^ 51 + 1 * 2 ^ 46 + 2 * 2 ^ 41 + 1 * 2 ^ 32))
        (fun t => SMap.get 0#32 (t.pinna 0).sregs 3 == 0xFFFFFFFF#32 && (t.pinna 0).pc == 1) = true
      ∧ gives (.salu 0) (oneInstr (0x03 * 2 ^ 56 + 10 * 2 ^ 32))
        (fun t => (t.pinna 0).seq == .stopped && (t.pinna 0).faultCode == 0x3007) = true := by decide +kernel

/-- A BR on s1 ≠ 0 jumps to imm[12:0], and one on s1 = 0 does not (R60). -/
theorem test_br :
    gives (.br 0) (oneInstr (0x06 * 2 ^ 56 + 1 * 2 ^ 46 + 2 * 2 ^ 32 + 77)) (fun t => (t.pinna 0).pc == 77) = true
      ∧ gives (.br 0) (oneInstr (0x06 * 2 ^ 56 + 1 * 2 ^ 46 + 1 * 2 ^ 32 + 77)) (fun t => (t.pinna 0).pc == 1) = true := by
  decide +kernel

/-- A LOOP of 5 instructions with trip count 0 skips its body; with trip count 2 it is entered (R60, R61). -/
theorem test_loop :
    gives (.loop 0) (oneInstr (0x05 * 2 ^ 56 + 5 * 2 ^ 28)) (fun t => (t.pinna 0).pc == 6 && (t.pinna 0).loops.isEmpty) = true
      ∧ gives (.loop 0) (oneInstr (0x05 * 2 ^ 56 + 5 * 2 ^ 28 + 2))
        (fun t => (t.pinna 0).pc == 1 && (t.pinna 0).loops.length == 1) = true := by decide +kernel

/-- The signed zeros and infinities of R109. -/
theorem test_special_values :
    rcpVal (.fin true 0 0) = .inf true ∧ rsqrtVal (.fin false 0 0) = .inf false ∧ rsqrtVal (.fin true 0 0) = .inf true
      ∧ rsqrtVal (.inf false) = .fin false 0 0 false ∧ lnVal (.fin true 0 0) = .inf true ∧ lnVal (.inf true) = .nan true
      ∧ (expVal (.inf true)) = .fin false 0 0 false ∧ addVal (.inf false) (.inf true) = .nan true := by decide +kernel

/-- One symbol in error is corrected, two are reported (R150). -/
theorem test_symbol_code :
    decodeLine [(5, 0x40)] = .corrected [] ∧ decodeLine [(5, 0x40), (71, 1)] = .uncorrectable ∧ decodeLine [] = .clean [] := by
  decide +kernel

/-- With 4 partitions, partition 0 rotates 8 KiB granules over stacks 0 to 2, and its stack-local view names them by number
(R18 to R24). -/
theorem test_memory_views :
    (let s : State := { State.reset with layout := 4 }
     s.resolve 0 0 8192 = some (1, 0) ∧ s.resolve 0 0 (3 * 8192 + 5) = some (0, 8197)
       ∧ s.resolve 0 1 (2 ^ 43 + 2 ^ 37 + 7) = some (1, 7) ∧ s.resolve 0 1 (2 ^ 43 + 3 * 2 ^ 37) = none) := by decide +kernel

/-- An idle block stays as it is. -/
theorem test_idle_step : step State.reset = .next State.reset := rfl

/-- The first of two commands runs first. -/
theorem test_queue_order :
    (match step { oneInstr 0 with pending := [.nop 0, .halt 1] } with
      | .next t => (t.pinna 0).pc == 1 && t.pending == [.halt 1]
      | _ => false) = true := by decide +kernel

/-! Witnesses of the hypotheses. -/

/-- A SALU with a minimum of two registers, an SLI, and the two forms of AALU at the last legal registers. -/
theorem witness_ScalarInstructionsWriteTheirResult :
    (∀ w ∈ [0x0200_0000_0000_0007, 0x03F8_4001_0000_0000 + 9 * 2 ^ 32, 0x0478_0001_0000_0000, 0x047B_C000_0000_0001],
      let s := oneInstr w
      s.tablesCanonical ∧ (s.pinna 0).following.2 ≤ 8191 ∧ CanIssue s 0 (w / 2 ^ 56)) := by decide

/-- A NOP, an untaken and a taken BR, and a LOOP of one instruction with 2 trips and with none. -/
theorem witness_ControlInstructionsSteerTheSequencer :
    (∀ w ∈ [0, 0x0600_0002_0000_1FFF, 0x0600_0000_0000_1FFF, 0x0500_0000_1000_0002, 0x0500_0000_1000_0000],
      let s := oneInstr w
      s.tablesCanonical ∧ (s.pinna 0).following.2 ≤ 8191 ∧ CanIssue s 0 (w / 2 ^ 56)
        ∧ (w / 2 ^ 56 = 5 → (s.pinna 0).loopBody = 1)) := by decide

/-- A load and a store of the last word of the scratchpad. -/
theorem witness_ScratchpadWordsLoadAndStore :
    (∀ w ∈ [0x0700_0000_0000_0000 + 786428, 0x0800_0000_0000_0000 + 786428],
      let s := oneInstr w
      s.tablesCanonical ∧ (s.pinna 0).spad.wf = true ∧ (s.pinna 0).following.2 ≤ 8191 ∧ CanIssue s 0 (w / 2 ^ 56)
        ∧ (s.pinna 0).wordAddr w = 786428 ∧ (s.pinna 0).heldByVector 786428 true = false) := by decide

/-- Each instruction on a pinna whose engine 0 has ended 1 of 2 descriptors, with tickets 1 and 2 and flags 0. -/
theorem witness_SynchronisationInstructionsPassOrStall :
    (∀ w ∈ [0x2000_0000_0000_0000, 0x2100_4000_0000_0000, 0x2100_8000_0000_0000, 0x2200_0000_0000_0000,
        0x2300_4000_0000_003F, 0x2400_0000_0000_0000, 0x2400_4000_0000_003F],
      let s := oneInstr w
      s.tablesCanonical ∧ (s.pinna 0).following.2 ≤ 8191 ∧ CanIssue s 0 (w / 2 ^ 56)
        ∧ ((s.pinna 0).sreg 1).toNat = 1 ∧ ((s.pinna 0).sreg 2).toNat = 2 ∧ SMap.get 0 (s.pinna 0).submitted 0 = 2
        ∧ SMap.get 0 (s.pinna 0).done 0 = 1 ∧ (s.pinna 0).queue = [] ∧ SMap.wf 0#32 (s.pinna 0).sregs = true ∧ (s.pinna 0).wordAddr w % 64 = w % 64)  ∧
    (∀ lim ∈ [0, 1],
      let s : State := ({ State.reset with ticks := 200, pinnae := [(0, { onePinna 0x2400_4000_0000_0000 with stall := some .flag })] }
        : State).setWord (.pna 0) Reg.PNA_TREE_TIMEOUT lim
      s.tablesCanonical ∧ CanIssue s 0 0x24 ∧ (s.pinna 0).stall = some .flag ∧ (s.pinna 0).following.2 ≤ 8191
        ∧ s.word (.frd 0) (flagOff 0) < ((s.pinna 0).sreg 1).toNat ∧ s.fld (.pna 0) Reg.PNA_TREE_TIMEOUT 23 0 = lim ∧ 128 * lim ≤ s.ticks) ∧
    (let q : QDesc := { bytes := [], addr := 0, submitter := .pinna 0 0 1 0, ctx := 0, seed := 0#64, proth := false, sealArg := none }
     let s : State := { oneInstr 0x2000_0000_0000_0000 with fronds := [(0, { engines := [(0, { queue := List.replicate 32 q })] })] }
     s.tablesCanonical ∧ CanIssue s 0 0x20 ∧ 32 ≤ ((s.frond 0).engine 0).queue.length) := by
  refine ⟨?_, ?_, ?_⟩ <;> decide

/-- A HALT of a pinna whose command waits for it, and a zeroing. -/
theorem witness_ProgramEndsAtHalt :
    (let s := oneInstr 0x0100_0000_0000_0000
     s.tablesCanonical ∧ CanIssue s 0 0x01 ∧ (s.pinna 0).queue = [] ∧ (s.pinna 0).treeRun = none) ∧
    (let s : State := { State.reset with pinnae := [(767, { zeroing := true })] }
     s.tablesCanonical ∧ (s.pinna 767).zeroing = true) := by decide

/-- One word for each clause, at the first refused value. -/
theorem witness_RefusedInstructionsStopTheProgram :
    (∀ w ∈ [0x0300_000A_0000_0000, 0x0480_0001_0000_0000, 0x0404_0000_0000_0000, 0x0600_0005_0000_0000,
        0x0500_0000_0000_0001, 0x0704_0000_0000_0000, 0x0804_0000_0000_0000, 0x0700_0000_0000_0002,
        0x0800_0000_0000_0000 + 786430],
      let s := oneInstr w
      s.tablesCanonical ∧ CanIssue s 0 (w / 2 ^ 56)) ∧
    (let s := oneInstr 0x0900_0000_0000_0000
     s.tablesCanonical ∧ s.pinnaRuns 0 = true ∧ reservedOp (fOp (s.pinna 0).fetch) = true) := by decide

/-- A tree of pinnae 0 and 1 in which 0 waits, with the limit at 1 and at 0. -/
theorem witness_TreeWaitLimitStopsTheProgram :
    ∀ lim ∈ [0, 1],
      let s := ({ inTree with ticks := 200 } : State).setWord (.pna 0) Reg.PNA_TREE_TIMEOUT lim
      s.tablesCanonical ∧ (s.treeAwaits 0).isSome = true ∧ s.fld (.pna 0) Reg.PNA_TREE_TIMEOUT 23 0 = lim
        ∧ (s.treeAwaits 0).map (fun x => decide (x.1.since + 128 * lim < s.ticks)) = some true := by decide

/-- A VADD of no elements, which passes, and one with a reserved field, which fails check 2. -/
theorem witness_VectorInstructionsIssue :
    (let s := oneInstr 0x8000_0000_0000_0000
     s.tablesCanonical ∧ s.pinnaRuns 0 = true ∧ (0x80, Instr.vadd 0 .issue) ∈ vectorCommands 0 .issue
       ∧ (s.pinna 0).heldByCompress (s.pinna 0).fetch (s.pinna 0).vecExt = false ∧ (s.pinna 0).vecQueued < 4
       ∧ (s.pinna 0).stalledBy ((s.pinna 0).entry (s.pinna 0).vecExt) = false
       ∧ (vFields (s.pinna 0).fetch).refusal (s.pinna 0).fetch (s.pinna 0).vecExt (s.pinna 0).slotOk
           ((s.pinna 0).entry (s.pinna 0).vecExt) = none) ∧
    (let s := oneInstr 0x8000_0000_0000_1000
     s.pinnaRuns 0 = true ∧ (vFields (s.pinna 0).fetch).refusal (s.pinna 0).fetch (s.pinna 0).vecExt (s.pinna 0).slotOk
           ((s.pinna 0).entry (s.pinna 0).vecExt) = some 0x4003) := by decide

/-- A VADD of one FP32 element at the head of the queue. -/
theorem witness_VectorInstructionsWriteOnlyTheirRun :
    let s := oneQueued 0x8000_0000_0080_0000
    s.tablesCanonical ∧ (s.pinna 0).spad.wf = true ∧ bit (s.word (.pna 0) Reg.PNA_VEC_CTL) 0 = false
      ∧ SMap.wf 0#32 (s.pinna 0).sregs = true ∧ SMap.wf 0 (s.pinna 0).masks = true
      ∧ s.haltedPart (s.pinnaPart 0) = false ∧ (s.pinna 0).queue = [queued 0x8000_0000_0080_0000]
      ∧ (s.pinna 0).launch.isSome = true ∧ fOp (queued 0x8000_0000_0080_0000).word.toNat = 0x80 := by decide

/-- VMLOGIC m7 := not m0 with the largest count. -/
theorem witness_MaskLogicWorksBitByBit :
    let w := 0x9400_0000_0000_0400 + 4096 * 2 ^ 23 + 7 * 2 ^ 17
    let s := oneQueued w
    s.tablesCanonical ∧ SMap.wf 0 (s.pinna 0).masks = true ∧ s.haltedPart (s.pinnaPart 0) = false
      ∧ (s.pinna 0).queue = [queued w] ∧ fOp (queued w).word.toNat = 0x94 ∧ (vFields w).sub = 4 ∧ (vFields w).md = 7
      ∧ (vFields w).count = 4096 := by decide

/-- A GOPEN that passes, and one with a reserved bit set. -/
theorem witness_MatrixInstructionsIssue :
    (let s := oneInstr 0x4800_0000_0000_0000
     s.tablesCanonical ∧ CanIssue s 0 0x48 ∧ (s.pinna 0).launch.isSome = true ∧ (s.pinna 0).arrayQueued 0 < 4
       ∧ (s.pinna 0).stalledBy ((s.pinna 0).entry 0) = false
       ∧ gopenCheck (s.pinna 0).fetch ((s.pinna 0).entry 0) ⟨0, 0, 0#64, false⟩ = none) ∧
    (let s := oneInstr 0x4800_0000_0000_0001
     CanIssue s 0 0x48 ∧ gopenCheck (s.pinna 0).fetch ((s.pinna 0).entry 0) ⟨0, 0, 0#64, false⟩ = some 0x3007) := by decide

/-- Each instruction at the head of a queue: GOPEN and GFILL on a closed group, the others on an open one. -/
theorem witness_GroupInstructionsPerform :
    (∀ w ∈ [0x4800_0000_0000_0000, 0x4BB0_0000_0000_0000],
      let s := oneQueued w
      s.tablesCanonical ∧ (s.pinna 0).spad.wf = true ∧ SMap.wf {} (s.pinna 0).groups = true
        ∧ (s.pinna 0).queue = [queued w] ∧ fOp (queued w).word.toNat = w / 2 ^ 56 ∧ bit (s.word (.pna 0) Reg.PNA_MMA_CTL) 0 = false
        ∧ ((s.pinna 0).group 0).state = .closed ∧ (Mem.byte (s.imageMem 0 w) 12416).toNat ≤ 2) ∧
    (∀ w ∈ [0x4010_0000_0000_0000 + 2 ^ 48, 0x4900_0000_0000_0000, 0x4AB0_0000_0000_0000],
      let s := oneOpened w
      s.tablesCanonical ∧ (s.pinna 0).spad.wf = true ∧ SMap.wf {} (s.pinna 0).groups = true
        ∧ (s.pinna 0).queue = [queued w] ∧ fOp (queued w).word.toNat = w / 2 ^ 56
        ∧ ((s.pinna 0).group (groupOf w)).state = .opened ∧ ((s.pinna 0).group (groupOf w)).attr = .none
        ∧ (gcFields w).ssrc = 0 ∧ mmaScaled (mFields w).fmta = false) := by decide

/-- A GREDUCE by pinnae 0 and 1, a tile for an idle pinna, and a tile for the waiting pinna 0. -/
theorem witness_TreeParticipantsSendOrWait :
    (let q : QEntry := { queued 0x4C00_1800_0000_0000 with sregs := [(3, 0x40#32)] }
     let s : State := { State.reset with pinnae := [(0, { onePinna 0 with groups := [(0, { state := .opened })], queue := [q] })] }
     s.tablesCanonical ∧ AtHead s 0 0x4C q ⟨0, 0, 0#64, false⟩ ∧ (s.pinna 0).treeRun = none
       ∧ (s.pinna 0).queue.find? (fun x => fOp x.word.toNat == 0x4C) = some q ∧ SMap.wf {} (s.pinna 0).groups = true
       ∧ s.treeSpecOk 0 0 (q.s (bits q.word.toNat 47 43)) = true
       ∧ ((s.pinna 0).group (groupOf q.word.toNat)).state = .opened) ∧
    (let s : State := { State.reset with treeNet := [treeTile] }
     s.tablesCanonical ∧ s.treeAwaits 0 = none ∧ s.treeNet.find? (fun t => t.dst == 0) = some treeTile) ∧
    (let s : State := { inTree with treeNet := [treeTile] }
     s.tablesCanonical ∧ (s.treeAwaits 0).map (fun x => (x.1.spec, x.2.2)) = some (treeTile.spec, treeTile.src)
       ∧ (s.pinna 0).treePort = none ∧ bit (s.word (.pna 0) Reg.PNA_MMA_CTL) 0 = false) := by decide

/-- The first line of an ACTIVE region is admitted, and the line before it is not; both in a state out of reset. -/
theorem witness_MemoryReadsReturnStoredBytes :
    oneRegion.tablesCanonical ∧ oneRegion.clk.inReset = false ∧ Undisturbed (oneRegion.stack 0)
      ∧ (match oneRegion.checkLine 0 32768 0 0 false with
          | .ok r => r == 0
          | .error _ => false) = true
      ∧ (match oneRegion.checkLine 0 32767 0 0 false with
          | .ok _ => false
          | .error _ => true) = true := by decide

/-- A write of the last byte of the first line of an ACTIVE region. -/
theorem witness_MemoryWritesStoreTheirBytesOnly :
    oneRegion.tablesCanonical ∧ oneRegion.clk.inReset = false ∧ Undisturbed (oneRegion.stack 0)
      ∧ (oneRegion.stack 0).mem.wf = true ∧ SMap.get 0 (oneRegion.stack 0).ctrs 32768 < 2 ^ 64 - 1
      ∧ (match oneRegion.checkLine 0 32768 0 0 true with
          | .ok r => r == 0
          | .error _ => false) = true := by decide

/-- A stack with a write-back due, a queued sweep and a zeroing. -/
theorem witness_StackMaintenanceTouchesNoLiveByte :
    let x : Stack := { writeback := [(5, [(1, 2)])], sweeps := [⟨0, .init, 0⟩], zeroing := true }
    let s : State := { State.reset with stackTab := [(11, x)] }
    s.tablesCanonical ∧ (s.stack 11).writeback.find? (fun a => a.1 == 5) = some (5, [(1, 2)])
      ∧ SMap.wf [] (s.stack 11).err = true ∧ (s.stack 11).sweep = none ∧ s.haltDev = false
      ∧ (let y : Stack := { sweep := some ⟨3, .zero, 0⟩, sweeps := [⟨0, .init, 0⟩] }
         (({ s with stackTab := [(11, y)] } : State).sweepOwed 11 3 = false)
           ∧ ({ s with stackTab := [(10, y), (11, y)] } : State).sweepOwed 11 3 = true) := by decide

/-- A region of stacks 0 and 11 whose sweep of each kind runs in both. -/
theorem witness_SweepsEndWithTheirRegionSettled :
    ∀ kind ∈ [SweepKind.init, .zero, .rekey],
      let g : Region := { state := .rekey, inStacks := 0x801, base := 1, limit := 2 }
      let x : Stack := { sweep := some ⟨63, kind, 0⟩ }
      let s : State := { State.reset with regions := [(63, g)], stackTab := [(0, x), (11, x)] }
      s.tablesCanonical ∧ (s.region 63).has 11 = true ∧ (s.region 63).has 0 = true ∧ (s.region 63).has 1 = false
        ∧ (s.stack 0).sweep = some ⟨63, kind, 0⟩ ∧ (s.stack 11).sweep = some ⟨63, kind, 0⟩ ∧ s.haltDev = false
        ∧ (s.stack 0).mem.wf = true ∧ Undisturbed (s.stack 0) := by decide

/-- Host port 0 writes 8, 8, 8 and 8, 8, 9. -/
theorem witness_StageSplitIsTakenOrRefused :
    upState.tablesCanonical ∧ bits 0x080808 4 0 + bits 0x080808 12 8 + bits 0x080808 20 16 = 24
      ∧ bits 0x090808 4 0 + bits 0x090808 12 8 + bits 0x090808 20 16 = 25 ∧ (upState.stack 0).lanes = []
      ∧ (upState.stack 0).entries = [] ∧ Page.exists (.rhz 0) = true ∧ upState.canAsk hostPf = true
      ∧ upState.tdiRefuses hostPf = false ∧ upState.reaches hostPf (.rhz 0) = true
      ∧ upState.mayWrite hostPf (.rhz 0) Reg.RHZ_STAGE_SPLIT = true ∧ upState.lockBinds hostPf (.rhz 0) = false := by decide

/-- A descriptor of 32 FP32 elements of frond 31's memory at the head of its engine 3, and one of no elements. -/
theorem witness_DescriptorsStartInQueueOrder :
    ∀ x ∈ [(32, 0), (0, 0x2001)],
      let q : QDesc := { bytes := copyBytes x.1, addr := 0, submitter := .job 0 0, ctx := 1, seed := 0#64, proth := false,
                         sealArg := none }
      let e : EngineId := .frond 31 3
      let s : State := State.reset.setEngine e { queue := [q, q] }
      s.tablesCanonical ∧ e.exists = true ∧ s.engineHalted e = false ∧ (s.engine e).running = none
        ∧ (s.engine e).queue = [q, q] ∧ (Desc.ofBytes q.bytes).linesNeeded = []
        ∧ ((s.setEngine e { queue := [q], running := some q }).feed e).descCheck e q (Desc.ofBytes q.bytes) 0 = x.2 := by
  decide +kernel

/-- A running plain descriptor of one element from host window 0, and a running copy within a frond, in a context at work
and in one that is torn down. -/
theorem witness_RunningDescriptorsEnd :
    (∀ st ∈ [CtxState.active, .teardown],
      let q : QDesc := { bytes := runningBytes, addr := 0, submitter := .job 0 0, ctx := 1, seed := 0#64, proth := false,
                         sealArg := none }
      let e : EngineId := .host 0 0
      let s : State := (State.reset.setCtx 1 { state := st }).setEngine e { running := some q }
      s.tablesCanonical ∧ e.exists = true ∧ s.engineHalted e = false ∧ (s.engine e).running = some q
        ∧ s.descReady e q = true ∧ (s.ctxEnding 1 = true ↔ st = .teardown) ∧ 0 < (Desc.ofBytes q.bytes).count
        ∧ (Desc.ofBytes q.bytes).srcSpace = 4) ∧
    (∀ st ∈ [CtxState.active, .teardown],
      let q : QDesc := { bytes := copyBytes 32, addr := 0, submitter := .job 0 0, ctx := 1, seed := 0#64, proth := false,
                         sealArg := none }
      let e : EngineId := .frond 31 3
      let s : State := (State.reset.setCtx 1 { state := st }).setEngine e { running := some q }
      s.tablesCanonical ∧ e.exists = true ∧ s.engineHalted e = false ∧ (s.engine e).running = some q
        ∧ s.descReady e q = true ∧ CopiesWithinFrond q 4 ∧ (s.frond 31).mem.wf = true
        ∧ (Desc.ofBytes q.bytes).count = 32) := by
  refine ⟨?_, ?_⟩ <;> decide +kernel

/-- Host port 0 writes slot 63 of frond 0. -/
theorem witness_StatisticsSlotsAreWritten :
    upState.tablesCanonical ∧ Page.exists (.frd 0) = true ∧ upState.canAsk hostPf = true
      ∧ upState.tdiRefuses hostPf = false ∧ upState.reaches hostPf (.frd 0) = true
      ∧ upState.mayWrite hostPf (.frd 0) (statOff 63) = true ∧ upState.lockBinds hostPf (.frd 0) = false := by decide

/-- A GCLOSE of seed 7 waits for slot 5; and host port 0 writes slot 5 of partition 0. -/
theorem witness_EstimatorSlotsFoldAndTakeWrites :
    (let w := 0x4940_0400_0000_0000 + 5 * 2 ^ 36
     let p := { onePinna 0 with queue := [queued w], launch := some ⟨0, 0, 7#64, false⟩ }
     let s0 : State := State.reset.setEst 0 5 4 0 9
     let s : State := { s0 with pinnae := [(0, p.setGroup 0 { state := .opened })] }
     s.tablesCanonical ∧ s.estSeeded 0 5 7#64 = false ∧ s.estCloses 0 5 7#64 = true ∧ s.estFld 0 5 57 57 = 0) ∧
    (upState.tablesCanonical ∧ Page.exists (.est 0) = true ∧ upState.canAsk hostPf = true
      ∧ upState.tdiRefuses hostPf = false ∧ upState.reaches hostPf (.est 0) = true
      ∧ upState.mayWrite hostPf (.est 0) (estOff 5) = true ∧ upState.lockBinds hostPf (.est 0) = false) := by decide

/-- Runs about to send a request that passes and one that fails, a part at the head of a queue, within and past npos, and a
run whose parts have ended. -/
theorem witness_CacheSelectionRequestsRun :
    (∀ x ∈ [(true, none), (false, some (0x2101, 0))],
     let r : CseRun := { job := 3, ctx := 1, engine := 0, addr := 0, reqs := [if x.1 then cseBytes else leBytes 64 0] }
     let s : State := { State.reset with fronds := [(31, { cse := [r] })] }
     s.tablesCanonical ∧ s.haltedPart (s.partOfQuarter (31 / 8)) = false ∧ (s.frond 31).cseNext = some r
       ∧ s.cseCheck 1 31 0 (CseReq.ofBytes (nth [] r.reqs r.index)) = x.2) ∧
    (let r : CseRun := { job := 3, ctx := 1, engine := 0, addr := 0, reqs := [cseBytes], sent := true,
                         parts := [(0, [0xFF800000 :: 0 :: List.replicate 32 0]), (1, [1 :: 2 :: List.replicate 32 3])] }
     let s : State := { State.reset with fronds := [(31, { cse := [r] })] }
     (s.frond 31).cse.find? (fun r => r.sent && r.waiting.isEmpty) = some r ∧ r.fault = none
       ∧ (CseReq.ofBytes cseBytes).dstSpace = 3 ∧ (CseReq.ofBytes cseBytes).merge = false
       ∧ (CseReq.ofBytes cseBytes).flagEn = true ∧ (CseReq.ofBytes cseBytes).stackList = [0, 1]
       ∧ ∀ p ∈ r.parts, p.2.length = (CseReq.ofBytes cseBytes).g ∧ ∀ c ∈ p.2, c.length = 2 + (CseReq.ofBytes cseBytes).d) ∧
    (∀ k ∈ [0, 1],
     let cmd : LaneCmd := { kind := .csePart, ctx := 1, job := some 3, desc := cseBytes }
     let s : State := { State.reset with stackTab := [(k, { lanes := [cmd] })] }
     s.tablesCanonical ∧ s.lanesRun k = true ∧ (s.stack k).lanes = [cmd] ∧ s.laneFree k cmd = true
       ∧ ((CseReq.ofBytes cseBytes).npos ≤ (CseReq.ofBytes cseBytes).rank k * (CseReq.ofBytes cseBytes).seg ↔ k = 1)) := by
  decide +kernel

/-- A started REDUCE command of each operation, with its descriptor in frond memory: an illegal arm, sends that are illegal
and legal, a release of a CLOSED entry, and a legal arm. -/
theorem witness_ReductionBuffersAreArmedAndReleased :
    (∀ x ∈ [(0, leBytes 64 0), (1, leBytes 64 0), (1, sendBytes), (2, leBytes 64 0), (0, armBytes)],
      let s := withBytes (oneJob 3 x.1) x.2
      s.tablesCanonical ∧ (s.job 9).map (fun x => (x.1, cmdOf x.2.entry, redOp x.2, x.2.id)) = some (1, 3, x.1, 9)
        ∧ s.haltedPart 0 = false ∧ (s.ctx 1).jobs = [theJob 3 x.1] ∧ (s.frondDesc 1 (theJob 3 x.1) 0 64).2 = some x.2
        ∧ (descRead s 3 x.1).tablesCanonical ∧ s.armHeld 1 (theJob 3 x.1) = false
        ∧ (entryEngine (theJob 3 x.1).entry).1 = 0) ∧
    (let s := descRead (withBytes (oneJob 3 1) (leBytes 64 0)) 3 1
     s.sendLegal 1 0 (SendDesc.ofBytes (leBytes 64 0)) = false) ∧
    (let s := descRead (withBytes (oneJob 3 1) sendBytes) 3 1
     let d := SendDesc.ofBytes sendBytes
     s.sendLegal 1 0 d = true ∧ d.dst = s.node ∧ d.srcSpace = 3 ∧ d.codesSpace = 3 ∧ d.typ = 2 ∧ d.nspan = 1) ∧
    (let s := descRead (withBytes (oneJob 3 0) (leBytes 64 0)) 3 0
     s.armLegal 0 0 (armEntry 0 1 (s.fld (.rhz 0) Reg.RHZ_RED_CTL 4 0) (s.ctx 1).proth) = false) ∧
    (let s := descRead (ownsUnit (withBytes (oneJob 3 0) armBytes)) 3 0
     let e := armEntry (leNat armBytes) 1 (s.fld (.rhz 0) Reg.RHZ_RED_CTL 4 0) (s.ctx 1).proth
     s.armLegal 0 (leNat armBytes) e = true ∧ (s.stack 0).findEntry 1 e.group e.buffer = none
       ∧ (s.stack 0).freeEntry = some 0 ∧ e.kind = 0 ∧ e.replay = false ∧ bit (leNat armBytes) 404 = true) ∧
    (let s := descRead ((withBytes (oneJob 3 2) (leBytes 64 0)).setEntry 0 63 { state := .closed, ctx := 1 }) 3 2
     (s.stacksOf 0).contains 0 = true ∧ (s.stack 0).findEntry 1 0 0 = some 63 ∧ SMap.wf {} (s.stack 0).entries = true
       ∧ ((s.stack 0).entry 63).state = .closed) := by
  refine ⟨?_, ?_, ?_, ?_, ?_, ?_⟩ <;> decide +kernel

/-- A full block for an OPEN entry, before and after its rank was accepted, and with no entry at all. -/
theorem witness_ContributionsAreAcceptedOnce :
    (∀ acc ∈ [0, 1],
      let e : RedEntry := { state := .opened, nel := 32, nranks := 1, cycle := 0, codes := [0#8], spans := [(0, { acc := acc, nacc := 1 })] }
      let m : Inbound := { ctx := 0, sender := .link 3, bytes := oneContrib }
      let s : State := { State.reset with stackTab := [(0, { inbox := [m], entries := [(5, e)] })] }
      s.tablesCanonical ∧ s.rhzRuns 0 = true ∧ (s.stack 0).inbox[0]? = some m ∧ (∀ o ∈ (s.stack 0).inbox.take 0, o.sender ≠ m.sender)
        ∧ (s.stack 0).findEntry 0 (Contrib.ofBytes oneContrib).group (Contrib.ofBytes oneContrib).buffer = some 5
        ∧ SMap.wf {} (s.stack 0).entries = true ∧ ((s.stack 0).entry 5).state = .opened
        ∧ ((s.stack 0).entry 5).contribOk (Contrib.ofBytes oneContrib) oneContrib.length = true
        ∧ s.rhzCycle ≤ ((s.stack 0).entry 5).cycle ∧ (Contrib.ofBytes oneContrib).step = ((s.stack 0).entry 5).step
        ∧ SMap.wf {} ((s.stack 0).entry 5).spans = true ∧ ((s.stack 0).entry 5).replay = false
        ∧ bit (((s.stack 0).entry 5).span (Contrib.ofBytes oneContrib).span).acc (Contrib.ofBytes oneContrib).rank
            = decide (acc = 1)) ∧
    (let s : State := { State.reset with stackTab := [(0, { inbox := [{ ctx := 0, sender := .link 3, bytes := oneContrib }] })] }
     s.tablesCanonical ∧ s.rhzRuns 0 = true ∧ SMap.wf {} (s.stack 0).entries = true
       ∧ (s.stack 0).findEntry 0 (Contrib.ofBytes oneContrib).group (Contrib.ofBytes oneContrib).buffer = none) := by
  decide +kernel

/-- An entry in each of the three states at the last index, and one past its deadline. -/
theorem witness_BuffersCloseInOrder :
    ∀ x ∈ [(RedState.opened, false, 0), (.opened, false, 32), (.closing, false, 0), (.closing, true, 0)],
      let e : RedEntry := { state := x.1, checking := x.2.1, nel := x.2.2 }
      let s : State := { State.reset with stackTab := [(11, { entries := [(63, e)] })] }
      s.tablesCanonical ∧ SMap.wf {} (s.stack 11).entries = true ∧ (s.stack 11).entry 63 = e
        ∧ (e.complete = true ∨ 5 * (e.cycle + 1) < 32 * (s.ticks + 1)) ∧ s.rhzRuns 11 = true := by decide

/-- A started UPDATE command of each operation, with its descriptor in frond memory: in a context without regions only
LOADPROG passes, in one with a region INIT and CLEAR too. -/
theorem witness_UpdateCommandsReachTheirLanes :
    ∀ x ∈ [(0, false, some 0), (1, false, some 0), (2, false, some 0), (3, false, none), (0, true, none), (2, true, none)],
      let bs := leBytes 64 (x.1 * 2 ^ 52 + 3 * 2 ^ 108 + 2 ^ 232)
      let s := if x.2.1 then ownsUnit (withBytes (oneJob 4 0) bs) else withBytes (oneJob 4 0) bs
      s.tablesCanonical ∧ (s.job 9).map (fun x => (x.1, cmdOf x.2.entry, x.2.begun, x.2.id)) = some (1, 4, false, 9)
        ∧ s.haltedPart 0 = false ∧ (UpdDesc.ofBytes bs).op = x.1
        ∧ (s.ctx 1).jobs = [theJob 4 0] ∧ (entryEngine (theJob 4 0).entry).1 = 0
        ∧ (s.frondDesc 1 (theJob 4 0) 0 64).2 = some bs ∧ ((descRead s 4 0).updNel 1 0 (UpdDesc.ofBytes bs)).2 = some 0
        ∧ ((descRead s 4 0).updNel 1 0 (UpdDesc.ofBytes bs)).1.tablesCanonical
        ∧ ((descRead s 4 0).updNel 1 0 (UpdDesc.ofBytes bs)).1.updCheck 1 0 (UpdDesc.ofBytes bs) 0 = x.2.2 := by decide +kernel

/-- A command of each kind at the head of stack 11's lane queue. -/
theorem witness_LaneCommandsRunInOrder :
    ∀ kind ∈ [LaneKind.init, .apply, .clear, .loadprog, .update, .skip, .fault 0x5009],
      let cmd : LaneCmd := { kind := kind, ctx := 1, job := some 9, desc := leBytes 64 (2 ^ 232), image := leBytes 320 0 }
      let s : State := ({ State.reset with stackTab := [(11, { lanes := [cmd, cmd] })] } : State).setFld (.ctx 1) Reg.CTX_CQ 46 44 4
      s.tablesCanonical ∧ s.lanesRun 11 = true ∧ (s.stack 11).lanes = [cmd, cmd] ∧ s.laneFree 11 cmd = true
        ∧ s.laneOf 9 kind = some 11 ∧ RecordsOutside s 1 ∧ (s.stack 11).mem.wf = true ∧ (s.ctx 1).joint = false
        ∧ (SMap.get {} (s.stack 11).progs (UpdDesc.ofBytes cmd.desc).slot).valid = false
        ∧ progBad cmd.image (UpdDesc.ofBytes cmd.desc).ni = none := by decide +kernel

/-- An APPLY's release of one layer, with an empty list, and a mirror copy of another, due in stack 11. -/
theorem witness_ReleasesAndMirrorsAreSent :
    let r : Release := { hdr := 64, ctx := 1, closed := none, step := 0, status := 0, listAt := 0, w := 0, nel := 32 }
    let s : State := { State.reset with stackTab := [(11, { releases := [r], mirrors := [(128, 1)] })],
                                        regions := [(0, { state := .active, owner := 1, inStacks := 2 ^ 11 })] }
    s.tablesCanonical ∧ s.rhzRuns 11 = true ∧ (s.stack 11).releases.findIdx? (fun r => r.hdr == 64 && !r.begun) = some 0
      ∧ (s.stack 11).releases[0]? = some r ∧ s.relReady 11 r = true
      ∧ (s.stack 11).mirrors.find? (fun m => m.1 == 128) = some (128, 1)
      ∧ (s.stack 11).releases.any (fun r => r.hdr == 128 && !r.begun) = false
      ∧ r.stamps = [] ∧ s.mirrorPath 1 (s.fld .fabric (Reg.LML_MIRROR + 16) 47 32) = none := by decide +kernel

/-- Link 15 in every phase: retrained and rekeyed by host port 0, trained, in bootstrap, and up with a waiting binding. -/
theorem witness_LinksTrainAndRunTheirSession :
    (let s := onLink (oneLink .training)
     s.tablesCanonical ∧ (s.link 15).canonical ∧ Page.exists (.lml 15) = true ∧ s.canAsk hostPf = true
       ∧ s.tdiRefuses hostPf = false ∧ s.reaches hostPf (.lml 15) = true
       ∧ s.mayWrite hostPf (.lml 15) Reg.LML_LINK_CTL = true ∧ s.mayWrite hostPf (.lml 15) Reg.LML_REKEY_CTL = true
       ∧ s.clk.inReset = false ∧ (s.link 15).phase = .training ∧ ((s.link 15).slot 8).bound = true
       ∧ (s.part (s.partOfQuarter (15 / 4))).resetting = false) ∧
    (let s0 := onLink (oneLink .bootstrap)
     ∀ q ∈ [[], [ThlReq.session 15]],
     let s : State := { s0 with thl := { s0.thl with stage := 1, queue := q } }
     s.tablesCanonical ∧ (s.link 15).canonical ∧ (s.link 15).phase = .bootstrap
       ∧ s.thlServes = true ∧ (q = [] ∨ s.thl.queue.head? = some (.session 15)) ∧ ecdhValid [] = false) ∧
    (let x := oneLink .up
     let w : SlotWait := { page := none, ctx := 0, fsid := 7, maps := [] }
     let s0 := onLink { x with waits := [(1, some w)] }
     let s : State := { s0 with thl := { s0.thl with stage := 1 } }
     s.tablesCanonical ∧ (s.link 15).canonical ∧ SMap.get none (s.link 15).waits 1 = some w ∧ (s.link 15).phase = .up
       ∧ s.thlServes = true ∧ s.thl.queue = []) := by decide +kernel

/-- Lane 7 of link 15: all lanes good, in both stages of its remap, and with the spare in use for lane 0; and lane 7 alone
above a threshold of 1. -/
theorem witness_LanesFailAreRemappedAndHalved :
    (let s := (onLink { phase := .up }).setFld (.lml 15) Reg.LML_LANE_CTL 15 0 1
     s.tablesCanonical ∧ (s.link 15).runs = true ∧ (s.link 15).half = none ∧ (s.link 15).spareFor = none
       ∧ (s.link 15).remapping = none ∧ (s.link 15).failed = 0 ∧ s.fld (.lml 15) Reg.LML_LANE_CTL 15 0 = 1
       ∧ 1 < ([0, 0, 0, 0, 0, 0, 0, 2, 1] : List Nat).getD 7 0) ∧
    (∀ st ∈ [1, 2], let s := onLink { phase := .up, failed := 128, remapping := some 7, remapStage := st }
      s.tablesCanonical ∧ (s.link 15).runs = true ∧ (s.link 15).remapping = some 7 ∧ (s.link 15).remapStage = st) ∧
    (let s := onLink { phase := .up, failed := 1, spareFor := some 0 }
     s.tablesCanonical ∧ (s.link 15).half = none ∧ (s.link 15).spareFor = some 0 ∧ (s.link 15).failed = 2 ^ 0) := by decide

/-- A bootstrap link with a message on VC3 to send, and the same with a frame of epoch 0 on slot 0 to receive whose tag is
zero, one whose tag is not, and one in a lost codeword. -/
theorem witness_FramesAreSentReceivedAndRepeated :
    (let x : Link := { phase := .bootstrap, tx := [(3, [{ bytes := [1#8] }])], replay := [(7, [])], seqOut := 8 }
     let s := (onLink x).setWord (.lml 15) (Reg.LML_VC + 12) 0x83F00000
     s.tablesCanonical ∧ x.runs = true ∧ x.canonical ∧ s.link 15 = x ∧ s.chosen 15 = some 3) ∧
    (∀ tag ∈ [0#8, 1#8],
      let x : Link := { phase := .bootstrap }
      let s := (onLink x).setWord (.lml 15) (Reg.LML_VC + 12) 0x83F00000
      let h : FrameHdr := { vc := 3, slot := 0, som := true, eom := true, fm1 := 0, len := 1, epoch := 0, counter := 0, seq := 0 }
      let bytes := h.bytes ++ List.replicate 223 0#8 ++ [tag]
      let block : Superblock := { ctl := 0x3C1#40, flits := bytes ++ List.replicate 1024 0#8, errs0 := [], errs1 := [] }
      s.tablesCanonical ∧ frameStands 0 [block] = true ∧ frameAt 0 [block] = bytes ∧ FrameHdr.ofBytes bytes = h
        ∧ frameLost 0 [block] = false ∧ startSeen [block] = true ∧ h.seq = x.seqIn ∧ s.frameFits 15 h bytes = true
        ∧ (x.slot 0).stale 0 0 = false ∧ h.epoch = (x.slot 0).rxEpoch ∧ ((x.open h bytes).isSome = true ↔ tag = 0#8)
        ∧ h.fm1 + 1 ≤ s.bufferFlits 15 3 ∧ (s.part (s.partOfQuarter (15 / 4))).resetting = false
        ∧ frameLost 0 [{ block with errs0 := List.range 16 }] = true) := by decide +kernel

/-- A message of each kind on slot 8 of link 15, its length field one too large; one that may be written to a region of
context 31 in stack 11; and two unacknowledged writes of a release. -/
theorem witness_RemoteWritesArePerformedOrRefused :
    (∀ kind ∈ [0x20, 0x21, 0x22, 0x23],
      let bs := leBytes 64 (kind + 2 ^ 96 + 9 * 2 ^ 128)
      let x := oneLink .up
      let s := onLink { x with inbox := [(4, 8, bs)] }
      s.tablesCanonical ∧ (s.link 15).canonical ∧ (s.link 15).nextWriteMsg = some (4, 8, bs) ∧ leNat (bs.take 1) = kind
        ∧ ((s.link 15).slot 8).bound = true ∧ bits (leNat (bs.take 64)) 127 96 ≠ (bs.drop 64).length
        ∧ s.findWrite 15 9 = none) ∧
    (∀ x ∈ [(0x20, false), (0x23, true)],
      let a := 2 ^ 43 + 11 * stackBytes
      let bs := leBytes 64 (x.1 + a * 2 ^ 40 + 2 ^ 84 + 64 * 2 ^ 96 + 9 * 2 ^ 128) ++ List.replicate 64 7#8
      let y := oneLink .up
      let s0 := onLink { y with slots := SMap.set {} [] 8 { bound := true, ctx := 0, txEpoch := 1, rxEpoch := 1 } }
      let s : State := { s0 with regions := [(0, { state := .active, owner := 0, sealedBit := x.2, inStacks := 2 ^ 11 })] }
      bits (leNat (bs.take 64)) 83 40 = a ∧ bits (leNat (bs.take 64)) 86 84 = 1 ∧ bits (leNat (bs.take 64)) 127 96 = 64
        ∧ s.holds { ctx := 0 } 1 a 64 = true ∧ s.viewOwned 0 1 a 64 (fun g => g.sealedBit == x.2) = true
        ∧ (s.writeView 0 1 a (if x.2 then 3 else 0) 0 (bs.drop 64) (runFuel 64)).2 = true
        ∧ s.resolve 0 1 a = some (11, 0) ∧ (s.stack 11).mem.wf = true) ∧
    (let r : Release := { hdr := 64, ctx := 1, closed := none, step := 0, status := 0, listAt := 0, w := 0, nel := 32,
                          begun := true, unacked := [(0, 8, 15), (0, 9, 15)] }
     let s := (onLink (oneLink .up)).setStack 11 { releases := [r] }
     s.findWrite 15 9 = some (11, 0, 0) ∧ (s.stack 11).releases[0]? = some r
       ∧ (r.unacked.filter (fun u => !(u.2.1 == 9 && u.2.2 == 15))).any (fun u => u.1 == 0) = true) := by decide +kernel

/-- A follower of link 15 that asks, its request at the head of VC1, one that answers, one with an answer in time and one
with a late one, and one whose request has had no answer for more than 100 µs. -/
theorem witness_TimeIsExchangedOverALink :
    (let m : Msg := { bytes := timeRequest 0 }
     let x : Link := { phase := .up, slots := SMap.set {} [] 0 { bound := true, txEpoch := 1, rxEpoch := 1 }, tx := [(1, [m])] }
     let s := ((onLink x).setWord (.lml 15) (Reg.LML_VC + 4) 0x83F00000).setFld (.lml 15) Reg.LML_TIME_CTL 1 0 2
     s.tablesCanonical ∧ (s.link 15).canonical ∧ s.timeRole 15 = 2 ∧ (s.link 15).phase = .up
       ∧ s.rateOpen (timeKey 15) (200 * 2 ^ s.fld (.lml 15) Reg.LML_TIME_CTL 5 2) = true
       ∧ (s.link 15).runs = true ∧ s.chosen 15 = some 1 ∧ timeKind m.bytes = 1 ∧ s.fineTime % 1024 = 0) ∧
    (∀ t4 ∈ [2 * 65536, 100001 * 65536],
     let s0 := (onLink { phase := .up, timeDue := [(3, 0)], timeAsked := [(5, 0)], timeGot := [(5, 0, 0, t4)] }).setFld (.lml 15)
       Reg.LML_TIME_CTL 1 0 1
     let s : State := { s0 with tmb := { ns := 100001 } }
     s.tablesCanonical ∧ (s.link 15).canonical ∧ s.timeRole 15 = 1 ∧ 0 + 40 * 65536 ≤ s.fineTime
       ∧ (s.link 15).timeDue = [(3, 0)] ∧ (s.link 15).timeGot.find? (fun g => g.2 == (0, 0, t4)) = some (5, 0, 0, t4) ∧ (s.link 15).timeAsked.find? (fun a => a.1 == 5) = some (5, 0)
       ∧ signed 32 (s.word (.lml 15) Reg.LML_TIME_ASYM) = 0) ∧
    (let s0 := onLink { phase := .up, timeAsked := [(5, 0)] }
     let s : State := { s0 with tmb := { ns := 100001 } }
     s.tablesCanonical ∧ (s.link 15).canonical ∧ 0 + 100000 * 65536 < s.fineTime
       ∧ (s.link 15).timeAsked.find? (fun a => (s.link 15).timeGot.all (fun g => g.1 != a.1)) = some (5, 0)) := by
  refine ⟨?_, ?_, ?_⟩ <;> decide +kernel

/-- PWR_OK low, and high in every phase of the start. -/
theorem witness_ClocksStartStepByStep :
    (let p := State.reset.pwr
     let s : State := { State.reset with pwr := { p with ok := false } }
     s.pwr.ok = false) ∧
    (∀ ph ∈ [ClockPhase.waitEdge, .settling, .pllStarting, .running, .failed 2],
      let c := State.reset.clk
      let s : State := { State.reset with clk := { c with phase := ph } }
      s.pwr.ok = true ∧ s.clk.phase = ph) := by decide

/-- A running module with a staged image 1 that starts, and one whose reset has been in force for 200 cycles. -/
theorem witness_ModuleResetsReturnTheBlocks :
    (let c := State.reset.clk
     let s : State := { State.reset with
       clk := { c with inReset := false, phase := .running },
       thl := { started := true, awaiting := [1], dir := { states := [(0, 2)] } }, ticks := 400000000, ports := [(0, { linkUp := true })] }
     s.tablesCanonical ∧ s.pwr.ok = true ∧ (∀ e ∈ allEngines, (s.engine e).running = none) ∧ s.thl.stage = 0
       ∧ (s.stagedCopy 1).isSome = true ∧ s.clk.releasedAt + 2000 * msTicks ≤ s.ticks ∧ s.thl.awaiting.contains 1 = true
       ∧ s.thl.started = true ∧ s.clk.inReset = false ∧ s.clk.phase = .running ∧ s.canAsk hostPf = true ∧ s.tdiRefuses hostPf = false ∧ s.reaches hostPf .top = true
       ∧ (s.mayWrite hostPf .top Reg.TOP_RESET = true ∨ s.clk.mgmtPort = 1)
       ∧ s.canAsk .mc = true ∧ s.mayWrite .mc .top Reg.TOP_RESET = true) ∧
    (let c := State.reset.clk
     let s : State := { State.reset with clk := { c with phase := .running, resetAt := 40 }, ticks := 240 }
     s.tablesCanonical ∧ s.clk.inReset = true ∧ s.clk.resetAt + 200 ≤ s.ticks ∧ s.ticks % 40 = 0 ∧ s.clk.doms = []) := by
  decide +kernel

/-- Host port 0 resets partition 0 and, through VF 1, context 0; partition 3 and context 31 are being reset. -/
theorem witness_PartitionAndContextResetsBeginOnce :
    (let s : State := { upState with ports := [(0, { linkUp := true, vfEn := true, numVfs := 1 })] }
     s.tablesCanonical ∧ Page.exists (.prt 0) = true ∧ s.canAsk hostPf = true ∧ s.tdiRefuses hostPf = false
       ∧ s.reaches hostPf (.prt 0) = true ∧ s.mayWrite hostPf (.prt 0) Reg.PRT_RESET = true
       ∧ (s.part 0).resetting = false ∧ s.vfUp (s.portOfCtx 0) 1 = true ∧ s.canAsk (.host 0 1 false) = true
       ∧ s.tdiRefuses (.host 0 1 false) = false ∧ s.reaches (.host 0 1 false) (.ctx 0) = true
       ∧ s.mayWrite (.host 0 1 false) (.ctx 0) Reg.CTX_RESET = true ∧ (s.ctx 0).resetting = false
       ∧ (s.ctx 0).state = .free ∧ (s.port (s.portOfCtx 0)).linkUp = true ∧ SMap.wf {} (s.port (s.portOfCtx 0)).tdis = true) ∧
    (let s : State := { upState with thl := { stage := 1, trngOk := true }, parts := [(3, { resetting := true })],
                                     ctxs := [(31, { state := .faulted, resetting := true })] }
     s.tablesCanonical ∧ (s.part 3).resetting = true ∧ s.thl.stage = 1 ∧ s.thl.trngOk = true ∧ s.thlServes = true
       ∧ s.thl.queue = [] ∧ s.clk.inReset = false ∧ (s.ctx 31).resetting = true ∧ s.engineBusy 31 = false) := by decide +kernel

/-- A ROM that has not run, a started runtime, image 4 awaited with copy B staged, and a TRNG in both states. -/
theorem witness_ThallusBootsOrStops :
    ∀ ok ∈ [true, false],
      let s : State := { upState with thl := { started := true, trngOk := ok, awaiting := [4], dir := { states := [(7, 2)] } }, ticks := 100000000 }
      upState.thl.started = false ∧ upState.thl.stage = 0 ∧ upState.clk.inReset = false ∧ upState.tablesCanonical
        ∧ s.clk.inReset = false ∧ s.tablesCanonical ∧ s.thl.stage = 0 ∧ s.thl.awaiting.contains 4 = true
        ∧ s.stagedCopy 4 = some 1 ∧ SMap.wf 0 s.thl.dir.states = true ∧ SMap.wf [] s.thl.flash = true
        ∧ SMap.get 0 s.thl.startedAt 4 + 500 * msTicks ≤ s.ticks ∧ s.thl.started = true ∧ s.thl.trngOk = ok := by decide

/-- A request of each operation; a transfer open on port 0 with one byte missing; a staged image 2; a cancel by the host. -/
theorem witness_MailboxRequestsAreAnswered :
    (∀ op ∈ [2, 4, 5, 6, 7],
      let s0 := oneMailbox op 17 2 0
      let s : State := { s0 with thl := { s0.thl with dir := { states := [(3, 2)] }, xfer := some ⟨2, some 0, 1, []⟩ } }
      s.tablesCanonical ∧ s.thlServes = true ∧ s.thl.queue.head? = some (.mailbox 0) ∧ SMap.wf 0 s.thl.dir.states = true
        ∧ s.noFwUpdate = false ∧ (s.stagedCopy 2).isSome = true
        ∧ (s.mbxRequest 0).map (fun bs => (leNat (slice bs 0 2), byteAt bs 2, leNat (slice bs 4 4), (bs.drop 16).length))
            = some (op, 2, 0, 1)) ∧
    (let s := oneMailbox 3 528 0 6
     s.thlServes = true ∧ (s.mbxRequest 0).map (fun bs => (leNat (slice bs 0 2), byteAt bs 16, bs.length)) = some (3, 6, 528)) ∧
    (let s := oneMailbox 1 16 0 0
     s.tablesCanonical ∧ Page.exists (.mbx 0) = true ∧ s.canAsk hostPf = true ∧ s.tdiRefuses hostPf = false
       ∧ s.reaches hostPf (.mbx 0) = true ∧ s.mayWrite hostPf (.mbx 0) Reg.THL_MBX_CTL = true
       ∧ s.thl.queue.contains (.mailbox 0) = true) := by decide +kernel

/-- A message of each type in a mailbox; and an operator message of both kinds, too short for its block, there and from
the management controller. -/
theorem witness_SignedMessagesNeedNonceAndSignature :
    (∀ ty ∈ [1, 2, 3, 4, 5],
      let s := oneMailbox 9 80 0 ty
      s.tablesCanonical ∧ s.thl.trngOk = true ∧ s.thlServes = true ∧ s.thl.queue.head? = some (.mailbox 0)
        ∧ (s.mbxRequest 0).map (fun bs => (leNat (slice bs 0 2), fabType (bs.drop 16), s.fabricGood (bs.drop 16))) = some (9, ty, false)) ∧
    (∀ ty ∈ [1, 2],
      let s := oneMailbox 8 80 0 ty
      s.thlServes = true ∧ s.thl.queue.head? = some (.mailbox 0)
        ∧ (s.mbxRequest 0).map (fun bs => (leNat (slice bs 0 2), opType (bs.drop 16), s.operatorBad (bs.drop 16))) = some (8, ty, 6)) ∧
    (let s : State := { upState with thl := { stage := 1, trngOk := true } }
     s.tablesCanonical ∧ s.thl.trngOk = true ∧ s.thlServes = true ∧ s.thl.queue = [] ∧ s.operatorBad [2#8] = 6) := by
  decide +kernel

/-- A request in a mailbox and from the management controller, and a snapshot in hand of each. -/
theorem witness_CalyptraSnapshotIsSigned :
    (let s := oneMailbox 1 48 0 0
     s.tablesCanonical ∧ s.signRefusal = none ∧ s.thlServes = true ∧ s.thl.queue.head? = some (.mailbox 0)
       ∧ (s.mbxRequest 0).map (fun bs => leNat (slice bs 0 2)) = some 1) ∧
    (let s : State := { upState with thl := { stage := 1, trngOk := true } }
     s.tablesCanonical ∧ s.signRefusal = none ∧ s.thlServes = true ∧ s.thl.queue = []) ∧
    (∀ src ∈ [MsgSource.mailbox 0, .mc []],
      let s : State := { upState with thl := { stage := 1, signing := some ⟨src, [], 0⟩ } }
      s.tablesCanonical ∧ s.thl.signing = some ⟨src, [], 0⟩) := by decide +kernel

/-- Requests that a DOE mailbox and the MCTP endpoint answer in every stage, and one while the ROM runs. -/
theorem witness_SpdmRequestsAreAnswered :
    (∀ x ∈ [0, 2], ∀ code ∈ [0xE0, 0x84, 0xE1, 0xE3, 0x81, 0x82, 0x83, 0xE4, 0xE5, 0xE9, 0xE8, 0xEC, 0x85, 0x86, 0xFE],
      let s := oneSession .unlocked
      let m : List Byte := [if code = 0x84 then 0x10#8 else 0x13#8, BitVec.ofNat 8 code, 1#8] ++ List.replicate 433 6#8
      s.tablesCanonical ∧ spdmCode m = code ∧ s.spdmPath x = true ∧ s.thl.stage = 1 ∧ s.thl.signing = none
        ∧ s.thlServes = true ∧ s.thl.queue = [] ∧ leNat (slice m 0 1) = (if code = 0x84 then 0x10 else 0x13) ∧ m.length = 436 ∧ param1 m = 1
        ∧ bit (leNat (slice m 8 4)) 2 = true ∧ bit (leNat (slice m 12 4)) 1 = true
        ∧ SMap.wf none (s.spdm x).sessions = true ∧ ((s.spdm x).session 5).map (fun y => y.established) = some true) ∧
    (∀ st ∈ [1, 2, 3],
      let y : Option Session := some {}
      let s : State := { upState with
        thl := { stage := 1 },
        ports := [(0, { linkUp := true, spdm := { stage := st, sessions := (List.range 8).map (fun i => (i, y)) } })] }
      s.tablesCanonical ∧ s.spdmPath 0 = true ∧ (s.spdm 0).stage = st ∧ 8 ≤ (s.spdm 0).sessions.length
        ∧ SMap.wf none (s.spdm 0).sessions = true ∧ ((s.spdm 0).session 7).map (fun y => y.established) = some false) ∧
    upState.spdmPath 0 = true ∧ upState.thl.stage ≠ 1 := by decide +kernel

/-- VF 32 of port 0 in every state of its TDI, with its stream Secure; and stream 32 of the same port with a complete key
set. -/
theorem witness_InterfacesAreKeyedLockedAndRun :
    (∀ st ∈ [TdiState.unlocked, .locked, .run, .error], ∀ ty ∈ [0x83, 0x84, 0x85, 0x86, 0x87],
      let s := oneSession st
      let m : List Byte := [0x10#8, BitVec.ofNat 8 ty, 0#8, 0#8, 32#8] ++ List.replicate 43 0#8
      s.tablesCanonical ∧ s.spdmPath 0 = true ∧ s.thl.stage = 1 ∧ s.thl.trngOk = true
        ∧ ((s.spdm 0).session 5).map (fun y => y.established) = some true ∧ SMap.wf {} (s.port 0).tdis = true
        ∧ SMap.wf {} (s.port 0).ide = true ∧ ((s.port 0).stream 32).secure = true ∧ (s.port 0).linkUp = true
        ∧ tdispFn m = 32 ∧ (s.port 0).numVfs = 32 ∧ (s.port 0).vfEn = true ∧ leNat (slice m 0 1) = 0x10
        ∧ leNat (slice m 1 1) = ty ∧ m.length = 48 ∧ ((s.port 0).tdi 32).state = st
        ∧ (st ≠ .unlocked → ((s.port 0).tdi 32).session = 5)) ∧
    (let m : List Byte := [2#8, 0#8, 0#8, 32#8, 0#8, 1#8, 0#8] ++ List.replicate 40 7#8
     m.length = 47 ∧ leNat (slice m 0 1) = 2 ∧ leNat (slice m 3 1) = 32 ∧ leNat (slice m 5 1) = 1 ∧ leNat (slice m 6 1) = 0
       ∧ (keySet 1).contains 1 = true ∧ SMap.wf [] (((oneSession .run).port 0).stream 32).keys = true) ∧
    (let st : IdeStream := { keys := (keySet 0).map (fun k => (k, [1#8])) }
     (keySet 0).all (fun k => SMap.get [] st.keys k != []) = true) := by decide +kernel

/-- Requests of each operation, legal ones and one that is forbidden; and a joint context without its key. -/
theorem witness_ContextsAndSlotsAreGrantedOnRequest :
    (∀ op ∈ [1, 2], ∀ st ∈ [CtxState.free, .active],
      let s := oneRequest [BitVec.ofNat 8 op, 0#8, 1#8] st
      s.tablesCanonical ∧ s.thlServes = true ∧ s.thl.queue.head? = some (.tenancy 0) ∧ byteAt (s.reqBlock 0) 0 = op
        ∧ byteAt (s.reqBlock 0) 2 = 1 ∧ restZero (s.reqBlock 0) [(0, 2)] = true ∧ (s.ctx 0).state = st
        ∧ s.dieParked 0 = false ∧ s.takesContexts = true ∧ s.thl.trngOk = true ∧ s.policyDigests.length < 1024) ∧
    (let bs : List Byte := [7#8, 0#8, 0#8, 2#8, 5#8, 0#8, 0#8, 0#8, 1#8] ++ List.replicate 23 0#8 ++ [4#8]
     let s := oneRequest bs .active
     byteAt (s.reqBlock 0) 0 = 7 ∧ s.bindBad 0 (s.reqBlock 0) = none ∧ (s.link 0).canonical) ∧
    (let s := oneRequest [7#8, 0#8, 16#8] .active
     byteAt (s.reqBlock 0) 0 = 7 ∧ s.bindBad 0 (s.reqBlock 0) = some 2) ∧
    (let s := oneRequest [8#8, 0#8, 0#8, 1#8] .active
     byteAt (s.reqBlock 0) 0 = 8 ∧ byteAt (s.reqBlock 0) 3 = 1 ∧ restZero (s.reqBlock 0) [(0, 3)] = true
       ∧ ((s.link 0).slot 1).bound = true ∧ ((s.link 0).slot 1).ctx = 0) ∧
    (let s := oneRequest [9#8] .active
     byteAt (s.reqBlock 0) 0 = 9 ∧ restZero (s.reqBlock 0) [(0, 1), (8, 19)] = true ∧ (s.ctx 0).joint = false) ∧
    (let y : Policy := { digest := [], rule := 1, hyper := [], period := 0, window := 0, members := [[7#8]], programs := [] }
     let x : Link := { phase := .up, peerId := [7#8] }
     let s : State := { upState with thl := { stage := 1 }, links := [(15, x)], ctxs := [(31, { state := .active, joint := true, policy := some y })] }
     s.tablesCanonical ∧ s.thlServes = true ∧ s.thl.queue = [] ∧ (s.ctx 31).policy = some y ∧ (s.ctx 31).policyKey = none ∧ (s.link 15).phase = .up
       ∧ y.members.contains (s.link 15).peerId = true) := by decide +kernel

/-- A legal CREATE and one without a stack, a rekey and a destroy of an ACTIVE region, a teardown, and contexts in both
stages of one. -/
theorem witness_RegionsAndTeardownsFollowRequests :
    (let s := oneRequest [4#8, 0#8, 63#8, 0#8, 1#8, 0#8, 5#8, 0#8, 6#8] .active
     s.tablesCanonical ∧ s.thl.trngOk = true ∧ s.thlServes = true ∧ s.thl.queue.head? = some (.tenancy 0)
       ∧ byteAt (s.reqBlock 0) 0 = 4 ∧ s.createBad 0 (s.reqBlock 0) = none) ∧
    (let s := oneRequest [4#8] .active
     s.createBad 0 (s.reqBlock 0) = some 2) ∧
    (∀ op ∈ [5#8, 6#8],
      let s0 := oneRequest [op, 0#8, 63#8] .active
      let s : State := { s0 with regions := [(63, { state := .active, inStacks := 1 })] }
      s.tablesCanonical ∧ s.thlServes = true ∧ byteAt (s.reqBlock 0) 0 = op.toNat
        ∧ s.rgnBad 0 (s.reqBlock 0) 2 (fun x => x == .active) = none) ∧
    (let s := oneRequest [3#8, 0#8, 1#8] .faulted
     byteAt (s.reqBlock 0) 0 = 3 ∧ restZero (s.reqBlock 0) [(0, 2)] = true ∧ (s.ctx 0).state = .faulted) ∧
    (∀ st ∈ [TeardownPhase.stopping, .destroyed],
      let s : State := { State.reset with ctxs := [(31, { state := .teardown, teardown := st })] }
      s.tablesCanonical ∧ (s.ctx 31).teardown = st ∧ s.engineBusy 31 = false ∧ SMap.wf {} (s.link 0).slots = true) := by
  refine ⟨?_, ?_, ?_, ?_, ?_⟩ <;> decide +kernel

/-- A legal and an illegal entry at the head of a queue whose tail is 1, with the host's doorbells of VF 1. -/
theorem witness_QueuesMoveByDoorbellsAndStarts :
    ∀ cmd ∈ [8, 9],
      let s := oneQueue [BitVec.ofNat 8 cmd] 1
      s.tablesCanonical ∧ s.canAsk (.host 0 1 false) = true ∧ s.tdiRefuses (.host 0 1 false) = false ∧ (s.ctx 0).state = .active
        ∧ s.qEn 0 (sqOff 3) = true ∧ s.qEn 0 Reg.CTX_CQ = true ∧ s.qSize 0 (sqOff 3) = 16 ∧ s.qSize 0 Reg.CTX_CQ = 16
        ∧ s.qTail 0 (sqOff 3) = 1 ∧ s.qHead 0 (sqOff 3) = 0 ∧ s.cqUsed 0 = 0 ∧ s.nextStart 0 = some (0, 3)
        ∧ ((s.turned 0 0 3).readEntry 0 3).2.map (fun e => s.entryLegal 0 e) = some (decide (cmd = 8)) ∧ s.capMode 0 ≠ 2 := by
  decide +kernel

/-- A started command of each kind, not begun and with nothing to wait for, its queue's memory mapped. -/
theorem witness_StartedCommandsRunAndEnd :
    ∀ cmd ∈ [1, 2, 5, 6, 7, 8], ∀ w ∈ [0, 2 ^ 48], ∀ joint ∈ [true, false],
      let j : Job := { id := 9, ctx := 0, queue := 3, index := 0, named := [23], waits := true,
                       entry := leBytes 8 cmd ++ leBytes 8 0 ++ leBytes 8 (w + 64) ++ leBytes 8 (if w = 0 then 0 else 1) ++ leBytes 8 1 ++ leBytes 24 0 }
      let s0 := oneQueue [8#8] 1
      let s : State := { s0 with ctxs := [(0, { state := .active, jobs := [j], joint := joint })], ticks := 200 }
      s.tablesCanonical ∧ s.job 9 = some (0, j) ∧ cmdOf j.entry = cmd ∧ s.haltedPart 0 = false ∧ j.begun = false ∧ j.pinnae = [] ∧ j.waitFor = []
        ∧ (s.ctx 0).policy = none ∧ (s.engine (entryEngineId j.entry)).queue.length < 32 ∧ qword j.entry 4 ≠ 0
        ∧ bit (qword j.entry 2) 48 = decide (w ≠ 0)
        ∧ (s.readSpace { ctx := 0, frond := some 0 } 0 64 64).2.isSome = true ∧ s.accumulating 0 (qword j.entry 2) = false
        ∧ s.rateOpen (pollKey 9) usTicks = true ∧ j.since + usTicks * qword j.entry 4 ≤ s.ticks
        ∧ ((s.readSpace { ctx := 0 } 0 64 8).2.map leNat) = some 0
        ∧ (s.readSpace { ctx := 0 } 0 64 8).1.pinnae = s.pinnae := by decide +kernel

/-- A DMA command of two descriptors whose read reaches a joint context or another one; a descriptor at 64 that a joint
context may not carry out to the host, and one that it may; and one whose address no stack holds. -/
theorem witness_StartedDmaCommands :
    ∀ sp ∈ [0#8, 0x40#8], ∀ joint ∈ [true, false], ∀ at_ ∈ [64, 2 ^ 42],
      let j : Job := { id := 9, ctx := 0, queue := 3, index := 0,
                       entry := leBytes 8 2 ++ leBytes 8 0 ++ leBytes 8 at_ ++ leBytes 8 1 ++ leBytes 32 0 }
      let s0 := oneQueue [2#8] 1
      let s : State := { s0 with ctxs := [(0, { state := .active, jobs := [j], joint := joint })],
                                 stackTab := SMap.set {} [] 0 { mem := Mem.write [] 75 [sp] } }
      let r := s.readSpace { ctx := 0, frond := some 0 } 0 at_ 128
      s.tablesCanonical ∧ s.job 9 = some (0, j) ∧ j.begun = false ∧ (s.engine (entryEngineId j.entry)).queue.length < 32
        ∧ (entryEngineId j.entry).frond? = some 0 ∧ findJob (r.1.ctx 0).jobs 9 = some j ∧ (r.1.ctx 0).joint = joint
        ∧ r.1.feeder (entryEngineId j.entry) = none ∧ j.nextDesc = 0 ∧ (r.1.engine (entryEngineId j.entry)).queue.length < 32
        ∧ r.2.isSome = decide (at_ = 64)
        ∧ r.2.map (fun bs => (groupsOf 64 3 bs).all (fun d => r.1.exportOk 0 0 0 (Desc.ofBytes d)))
            = (if at_ = 64 then some (decide (sp = 0#8)) else none) := by decide +kernel

/-- Host port 0 and its own page, locked and not; a page that it does not reach; and offsets without a register. -/
theorem witness_RegisterAccessesFollowTheHeaderRules :
    (upState.tablesCanonical ∧ Page.exists (.hif 0) = true ∧ upState.canAsk hostPf = true ∧ upState.tdiRefuses hostPf = false
      ∧ upState.reaches hostPf (.hif 0) = true ∧ upState.reaches hostPf (.hif 1) = false ∧ Page.exists (.hif 1) = true
      ∧ PageKind.hif.word 0x7FC = [] ∧ upState.mayWrite hostPf (.hif 0) 0x014 = true
      ∧ upState.mayWrite hostPf (.hif 0) 0x04C = true ∧ upState.writesLock hostPf (.hif 0) = true
      ∧ upState.lockBinds hostPf (.hif 0) = false ∧ (Page.hif 0).id ∉ upState.wlDone) ∧
    (let s0 := upState.setFld (.hif 0) 0x008 1 1 1
     let s : State := { s0 with wlDone := [1] }
     s.tablesCanonical ∧ s.lockOf (.hif 0) = true ∧ (Page.hif 0).id ∈ s.wlDone ∧ s.heldVf (.hif 0) 0x04C = none
       ∧ PageKind.hif.word 0x04C ≠ [] ∧ (PageKind.hif.word 0x04C).all (fun f => f.acc == .rw) = true
       ∧ s.rateOpen (0xD002 * 2 ^ 40 + (Page.hif 0).id * 2 ^ 20 + 0) msTicks = true) := by decide +kernel

/-- VF 1 of port 0 at the first and the last of its own words, and at the words before and behind them. -/
theorem witness_MirrorWindowsShowTheirOwnWords :
    ∀ off ∈ [0x3FC, 0x400, 0x40C, 0x410],
      let s : State := { upState with ports := [(0, { linkUp := true, vfEn := true, numVfs := 1 })] }
      let r : Requester := .host 0 1 false
      s.tablesCanonical ∧ Page.exists (.mirror 0) = true ∧ s.canAsk r = true ∧ s.tdiRefuses r = false
        ∧ s.reaches r (.mirror 0) = true ∧ s.lockBinds r .fabric = false ∧ s.mayWrite r (.mirror 0) off = true := by decide

/-- Port 1 held in its fundamental reset, training, and with its link up. -/
theorem witness_PortsTrainResetAndAnswer :
    (let s : State := { upState with ports := [(1, { perst := false, training := true })] }
     s.tablesCanonical ∧ s.pwr.ok = true ∧ s.clk.inReset = false ∧ (s.port 1).perst = false ∧ (s.port 1).training = true
       ∧ (s.port 1).linkUp = false) ∧
    (let s : State := { upState with ports := [(1, { perst := false, linkUp := true })] }
     s.tablesCanonical ∧ (s.port 1).linkUp = true ∧ (s.port 1).vfEn = false ∧ s.portOfPart 0 = 0) ∧
    (upState.pwr.ok = true ∧ (upState.port 1).perst = true) := by decide

/-- A running module at rest, with a busy die, in both later phases of a switch, with a set due, and with both outputs on,
an edge of each due or its pulse at its end. -/
theorem witness_DomainsSwitchAndTheTimebaseRuns :
    (running.tablesCanonical ∧ running.canAsk .mc = true ∧ running.mayWrite .mc .clk Reg.CLK_DOM = true
      ∧ running.mayWrite .mc .clk (Reg.CLK_DOM + 12) = true ∧ running.lockBinds .mc .clk = false ∧ running.reaches .mc .clk = true
      ∧ running.mayWrite .mc .tmb Reg.TMB_SET_CTL = true ∧ running.mayWrite .mc .tmb Reg.TMB_SLEW = true
      ∧ running.reaches .mc .tmb = true ∧ running.lockBinds .mc .tmb = false ∧ running.tdiRefuses .mc = false
      ∧ (running.dom 3).cur = false ∧ (running.dom 3).phase = .none ∧ running.dieIdle 1 = true ∧ running.pwr.ok = true
      ∧ running.clk.phase = .running ∧ running.tmb.setIn ≠ some 0 ∧ latchOf .mc = some 128
      ∧ SMap.wf none running.tmb.latchHi = true ∧ SMap.wf none running.tmb.latchFrac = true) ∧
    (let s : State := { running with ctxs := [(0, { state := .active })] }
     s.dieIdle 0 = false ∧ s.tablesCanonical ∧ (s.dom 0).cur = false ∧ (s.dom 0).phase = .none) ∧
    (∀ ph ∈ [SwitchPhase.stopping, .restarting],
      let c := running.clk
      let s : State := { running with clk := { c with doms := [(3, { target := true, phase := ph, since := 20 })] }, ticks := 400 }
      s.tablesCanonical ∧ (s.dom 3).phase = ph ∧ (s.dom 3).since + restartTicks 3 true ≤ s.ticks ∧ s.ticks % 40 = 0 ∧ s.clk.phase = .running ∧ SMap.wf {} s.clk.doms = true) ∧
    (let s : State := { running with tmb := { setIn := some 0 } }
     s.tablesCanonical ∧ s.tmb.setIn = some 0 ∧ s.clk.inReset = false) ∧
    (∀ due ∈ [true, false],
      let s0 := running.setFld .tmb Reg.TMB_OUT_CTL 1 0 3
      let s : State := { s0 with tmb := { valid := true, ppsDue := due, refDue := due, ppsHigh := 1, refHigh := 1 } }
      s.tablesCanonical ∧ s.ppsOn = true ∧ s.refOn = true) := by
  refine ⟨?_, ?_, ?_, ?_, ?_⟩ <;> decide +kernel

/-- A running module whose sensor 75 has been hot twice, and one with the stage off. -/
theorem witness_ThrottleLevelsFollowTheirLoops :
    (let p := running.pwr
     let s : State := { running with pwr := { p with hot := [(75, 2)] } }
     s.tablesCanonical ∧ s.throttles = true ∧ s.ticks % 8 = 0 ∧ s.periodOpen 0 200 = true ∧ s.periodOpen 1 20000 = true
       ∧ s.periodOpen 2 msTicks = true ∧ s.pwr.ok = true ∧ s.clk.phase = .running ∧ s.clk.inReset = false
       ∧ SMap.get 0 s.pwr.hot 75 = 2 ∧ (List.replicate 76 105).length = 76
       ∧ s.fld .pwr Reg.PWR_THERM 14 8 ≤ (List.replicate 76 104).getD 75 0
       ∧ s.rateOpen (0xB105 * 2 ^ 40 + Page.pwr.id * 2 ^ 20) secTicks = true) ∧
    (let p := State.reset.pwr
     let s : State := { State.reset with pwr := { p with ok := false, stage := false } }
     s.tablesCanonical ∧ s.pwr.stage = false ∧ s.pwr.tripped = false) := by decide +kernel

/-- A running module with its meter ready and its interval over; one whose meter is not ready, with an entry of type 1 in
its log; and one after a thermal trip. -/
theorem witness_MeterCountsAttributesAndRecords :
    (metered.meterRuns = true ∧ metered.periodOpen 3 4000 = true ∧ metered.periodOpen 4 msTicks = true ∧ metered.met.ready = true ∧ metered.met.interval * 60000 ≤ metered.met.intervalMs
      ∧ metered.met.blocked = false ∧ metered.layout = 1 ∧ SMap.wf 0 metered.met.chan = true
      ∧ SMap.wf 0 metered.met.acct = true ∧ SMap.wf [] metered.met.log = true
      ∧ (List.replicate 10 (0 : Int)).length = 10 ∧ (List.replicate 32 0).length = 32
      ∧ (List.replicate 32 1).getD 8 0 ≠ 0) ∧
    (let e : List Byte := leBytes 4 0 ++ leBytes 1 1 ++ List.replicate 123 1#8
     let s : State := { running with met := { params := [0#8, 15#8], log := [(0, e)], seq := 1, key := [1#8] } }
     s.met.key ≠ [] ∧ s.meterRuns = true ∧ s.met.ready = false ∧ s.met.blocked = false ∧ SMap.wf [] s.met.log = true
       ∧ s.met.lastEntry = some (0, e) ∧ entryType e ≠ 7 ∧ s.met.lastTotals = some e) ∧
    (let p := State.reset.pwr
     let s : State := { metered with pwr := { p with ok := false, stage := false, tripped := true } }
     s.met.ready = true ∧ s.pwr.tripped = true ∧ s.met.blocked = false) ∧
    (let s : State := { metered with met := { ready := true, params := [0#8, 15#8], intervalMs := 900000, seq := 47 * 378 } }
     s.meterRuns = true ∧ s.met.blocked = true ∧ SMap.wf [] s.met.log = true) ∧ metered.layoutLegal := by
  refine ⟨?_, ?_, ?_, ?_, Or.inl rfl, fun _ => Nat.zero_lt_two⟩ <;> decide +kernel

/-- A ready meter; messages of each code in each length; and a ready meter that has begun a transfer. -/
theorem witness_ReaderMessagesAreAnsweredOrRefused :
    (metered.meterReads = true ∧ SMap.wf [] metered.met.log = true ∧ SMap.wf [] metered.met.images = true
      ∧ metered.met.logFull = false ∧ metered.met.xfer = none) ∧
    (∀ p ∈ [(1, 4), (1, 5), (0, 4), (7, 4), (2, 36), (2, 4), (3, 12), (3, 4)],
      let m : List Byte := leBytes 4 p.1 ++ leBytes (p.2 - 4) (5 * 2 ^ 32)
      leNat (slice m 0 4) = p.1 ∧ m.length = p.2 ∧ (p = (3, 12) → leNat (slice m 8 4) = 5)) ∧
    (∀ code ∈ [4, 5], leNat (slice (leBytes 8 code) 0 4) = code ∧ (leBytes 8 code).length ≠ 8 + blockLen
      ∧ (leBytes 8 code).length ≠ 268 + blockLen) ∧
    (let s : State := { metered with met := { ready := true, xfer := some (8 + blockLen, []) } }
     s.meterReads = true ∧ s.met.xfer = some (8 + blockLen, []) ∧ SMap.wf [] s.met.images = true) := by
  refine ⟨?_, ?_, ?_, ?_⟩ <;> decide +kernel

/-- A managed module: as grandmaster, with each source of time, without its link, and with transfers in two stages. -/
theorem witness_ManagementServesSensorsUpdatesAndTime :
    (let s := managed 0x00060040
     s.tablesCanonical ∧ s.mcRuns = true ∧ SMap.wf 0 s.mgt.readings = true ∧ s.thlServes = true ∧ s.thl.queue = [] ∧ s.thl.xfer = none
       ∧ s.periodOpen 5 (100 * msTicks) = true ∧ s.fld .mgt Reg.MGT_STS 1 1 = 1 ∧ s.fld .mgt Reg.MGT_TIME_CTL 6 6 = 1 ∧ s.fld .mgt Reg.MGT_TIME_CTL 1 0 ≠ 2
       ∧ s.ptpOf [] = none ∧ 32 ∈ sensorIds ∧ 77 ∉ sensorIds ∧ s.noFwUpdate = false ∧ 0xFFFFF ≤ imageSize 2
       ∧ s.stagedCopy 2 = none) ∧
    (let s0 := managed 0
     let s : State := { s0 with thl := { stage := 1, dir := { states := [(3, 2)] } } }
     s.mcRuns = true ∧ s.thlServes = true ∧ s.thl.queue = [] ∧ (s.stagedCopy 2).isSome = true ∧ s.noFwUpdate = false) ∧
    (∀ got ∈ [0, 1024],
      let s0 := managed 0
      let x : Xfer := { image := 2, path := none, len := 1025, got := List.replicate got 0#8 }
      let s : State := { s0 with thl := { stage := 1, xfer := some x } }
      s.mcRuns = true ∧ s.thlServes = true ∧ s.thl.queue = [] ∧ x.got.length < x.len
        ∧ (List.replicate (if got = 0 then 1024 else 1) 0#8).length = min 1024 (x.len - x.got.length)) ∧
    (let m : List Byte := [0x80, 1, 0, 9].map (BitVec.ofNat 8)
     2 ≤ m.length ∧ bit (leNat (slice m 0 1)) 7 = true ∧ leNat (slice m 1 1) = 1 ∧ leNat (slice m 3 1) = 9) ∧
    (∀ theta ∈ [(65536001 : Int), 655360, 0],
      let s0 := managed 2
      let s : State := { s0 with mgt := { sample := some theta, good := 15 } }
      s.mcRuns = true ∧ s.timeSample 7 = some (theta, 7) ∧ s.tablesCanonical) ∧
    (let s := (managed 1).setFld .mgt Reg.MGT_STS 2 1 2
     s.mcRuns = true ∧ s.fld .mgt Reg.MGT_STS 2 2 = 1 ∧ s.fld .mgt Reg.MGT_STS 1 1 = 0 ∧ s.fld .mgt Reg.MGT_TIME_CTL 1 0 = 1
       ∧ 5 * s.mgt.sampleAt + 8 * s.mgt.period ≤ 5 * s.ticks) := by
  refine ⟨?_, ?_, ?_, ?_, ?_, ?_⟩ <;> decide +kernel

/-- A module whose log has an alarm, or a run of three lost events, to take in and a page to write; one whose log has not
resumed; and a context in each mode, whose ring is its sealed region or none. -/
theorem witness_LogAndCaptureStreamsAreKept :
    (let e : LogEntry := { time := 1, code := 0x9001, ptype := 0xB, inst := 0, grp := 0, flags := 1, owner := 0, arg1 := 1, arg2 := 2, boot := 0 }
     let s0 := managed 0
     (∀ i ∈ [Intake.entry e, .gap 3],
       let s : State := { s0 with log := { started := true, intake := [i], unsaved := [(0, 5, e)] } }
       s.tablesCanonical ∧ s.logRuns = true ∧ s.pageDue = true ∧ s.log.started = true ∧ SMap.wf [] s.log.flash = true) ∧
     (let s : State := { s0 with log := { started := false, flash := [(0, [(7, e)])] } }
      s.clk.inReset = false ∧ s.fld .mgt Reg.MGT_STS 0 0 = 1 ∧ s.log.started = false ∧ s.log.kept = [(7, e)])) ∧
    (∀ m ∈ [0, 1, 2],
      let s := running.setFld (.ctx 3) Reg.CTX_CAP_CTL 1 0 m
      s.tablesCanonical ∧ s.clk.inReset = false ∧ s.lockOf (.ctx 3) = false ∧ s.capMode 3 = m ∧ s.capFull 3 = false
        ∧ s.ringOk 3 = false) ∧
    (let g : Region := { state := .active, sealedBit := true, owner := 3, inStacks := 4095, base := 0, limit := 4 }
     let s0 : State := { running with regions := [(0, g)] }
     let s := s0.setWord (.ctx 3) 0x110 1
     s.tablesCanonical ∧ s.lockOf (.ctx 3) = false ∧ s.capMode 3 = 0 ∧ s.ringOk 3 = true) := by
  refine ⟨?_, ?_, ?_⟩ <;> decide +kernel

theorem witness_StepPerformsTheFrontCommand :
    ({ State.reset with pending := [.halt 0, .nop 1] } : State).pending = [.halt 0, .nop 1] ∧ State.reset.pending = [] := by decide

/-- A running module with a tick of its timebase in front of a second command: canonical, legal, and it steps. -/
theorem witness_EveryStepKeepsTablesAndMemoriesCanonical :
    let s : State := { running with ports := [], stackTab := [], pending := [.timebaseTick, .nop 0] }
    (s.tablesCanonical ∧ s.innerCanonical ∧ s.memoriesCanonical) ∧ ∃ t, step s = .next t ∧ t.ticks = 1 := by
  refine ⟨⟨by decide, ⟨fun _ => ⟨rfl, rfl, rfl⟩, fun _ => ⟨rfl, rfl⟩, fun _ => ⟨rfl, rfl, rfl⟩⟩,
    ⟨fun _ => rfl, fun _ => rfl, fun _ => rfl, fun _ => rfl⟩⟩, ?_⟩
  exact completes_of (p := fun t => t.ticks == 1) (by decide +kernel) fun _ => LawfulBEq.eq_of_beq

theorem witness_EveryStepKeepsLayoutAndTakesOneCommand :
    let s : State := { running with layout := 2, portOf := [(1, 1)], pending := [.timebaseTick, .nop 0] }
    (s.layout = 2 ∧ s.portOfPart 0 = 0 ∧ s.portOfPart 1 = 1) ∧ (∀ p, s.portOfPart (p + 2) < 2)
      ∧ ∃ t, step s = .next t ∧ t.pending = [.nop 0] :=
  ⟨⟨rfl, rfl, rfl⟩, fun _ => Nat.zero_lt_two, _, rfl, rfl⟩

end Sys2Proof.Tests
end

section
/-!
Lines of a stack that nothing has disturbed: what fetching metadata and writing a line change there (07 R151, 12 R296,
R298, R300, R301).
-/
namespace Sys2Proof.Machine

/-! Bytes of a line. -/

/-- A line with the bytes `bs` placed from offset `off` on, as `State.writeLine` merges them. -/
def placed (old : List Byte) (off : Nat) (bs : List Byte) : List Byte :=
  (bs.zipIdx.map (fun b => (off + b.2, b.1))).foldl (fun l e => l.set e.1 e.2) old

theorem foldl_set_zipIdx_getElem? (bs old : List Byte) (off n i : Nat) (h : off + n + bs.length ≤ old.length) :
    (((bs.zipIdx n).map (fun b => (off + b.2, b.1))).foldl (fun l e => l.set e.1 e.2) old)[i]? =
      if off + n ≤ i ∧ i < off + n + bs.length then bs[i - (off + n)]? else old[i]? := by
  induction bs generalizing old n with
  | nil => exact (if_neg (by simp)).symm
  | cons b bs ih =>
    rw [List.length_cons] at h
    simp only [List.zipIdx_cons, List.map_cons, List.foldl_cons]
    rw [ih _ (n + 1) (by rw [List.length_set]; omega), List.getElem?_set]
    rcases Nat.lt_trichotomy i (off + n) with hi | rfl | hi
    · rw [if_neg (by omega), if_neg (by omega), if_neg (by omega)]
    · rw [if_neg (by omega), if_pos rfl, if_pos (by omega), if_pos (by simp)]; simp
    · obtain ⟨j, rfl⟩ : ∃ j, i = off + n + 1 + j := ⟨i - (off + n + 1), by omega⟩
      rw [show off + n + 1 + j - (off + (n + 1)) = j by omega, show off + n + 1 + j - (off + n) = j + 1 by omega,
        List.getElem?_cons_succ, if_neg (by omega : ¬ off + n = off + n + 1 + j)]
      by_cases hj : j < bs.length
      · rw [if_pos (by omega), if_pos (by rw [List.length_cons]; omega)]
      · rw [if_neg (by omega), if_neg (by rw [List.length_cons]; omega)]

theorem placed_getElem? {bs old : List Byte} {off : Nat} (h : off + bs.length ≤ old.length) (i : Nat) :
    (placed old off bs)[i]? = if off ≤ i ∧ i < off + bs.length then bs[i - off]? else old[i]? :=
  foldl_set_zipIdx_getElem? bs old off 0 i h

theorem foldl_set_length (es : List (Nat × Byte)) (old : List Byte) :
    (es.foldl (fun l e => l.set e.1 e.2) old).length = old.length := by
  induction es generalizing old with
  | nil => rfl
  | cons e es ih => rw [List.foldl_cons, ih, List.length_set]

@[simp] theorem placed_length (old bs : List Byte) (off : Nat) : (placed old off bs).length = old.length :=
  foldl_set_length _ _

@[simp] theorem Mem.length_read (m : Mem) (a n : Nat) : (m.read a n).length = n := by
  induction n generalizing a with
  | zero => rfl
  | succ n ih => rw [Mem.read, List.length_cons, ih]

theorem Mem.getElem_read (m : Mem) (a n i : Nat) (h : i < (m.read a n).length) : (m.read a n)[i] = m.byte (a + i) := by
  induction n generalizing a i with
  | zero => simp at h
  | succ n ih =>
    cases i with
    | zero => rfl
    | succ i => simp only [Mem.read, List.getElem_cons_succ, ih, Nat.add_assoc, Nat.add_comm 1 i]

@[simp] theorem Stack.bytes_length (x : Stack) (line : Nat) : (x.bytes line).length = 64 := Mem.length_read _ _ _

/-! A stack without disturbances. -/

/-- Every line of a metadata cache holds what the MPE wrote. -/
def CleanCache (c : SMap (List CacheLine)) : Prop := ∀ e ∈ c, ∀ l ∈ e.2, l.dev = []

/-- The entries of a table after a write: those it had, and the one written. -/
theorem SMap.mem_of_mem_set {α : Type} [DecidableEq α] {d : α} {m : SMap α} {k : Nat} {v : α} {e : Nat × α}
    (h : e ∈ SMap.set d m k v) : e ∈ m ∨ e = (k, v) := by
  induction m with
  | nil =>
    unfold SMap.set at h
    split at h
    · exact Or.inl h
    · exact Or.inr (List.mem_singleton.1 h)
  | cons a m ih =>
    obtain ⟨j, w⟩ := a
    unfold SMap.set at h
    split at h
    · split at h
      · exact Or.inl h
      · exact (List.mem_cons.1 h).symm
    · split at h
      · split at h
        · exact Or.inl (List.mem_cons_of_mem _ h)
        · exact (List.mem_cons.1 h).symm.imp_left (List.mem_cons_of_mem _)
      · rcases List.mem_cons.1 h with rfl | h
        · exact Or.inl List.mem_cons_self
        · exact (ih h).imp_left (List.mem_cons_of_mem _)

theorem CleanCache.get {c : SMap (List CacheLine)} (h : CleanCache c) (n : Nat) :
    ∀ l ∈ SMap.get [] c n, l.dev = [] :=
  SMap.get_sat (P := fun ls : List CacheLine => ∀ l ∈ ls, l.dev = []) (by simp) h n

theorem CleanCache.set {c : SMap (List CacheLine)} (h : CleanCache c) (n : Nat) {ls : List CacheLine}
    (hl : ∀ l ∈ ls, l.dev = []) : CleanCache (SMap.set [] c n ls) := by
  intro e he
  rcases SMap.mem_of_mem_set he with he | rfl
  · exact h e he
  · exact hl

/-- A cached line changed, without a deviation from what was written, leaves the cache clean and the rest as it was. -/
theorem Stack.useLine_clean {x : Stack} (h : CleanCache x.cache) (m : Nat) {f : CacheLine → CacheLine}
    (hf : ∀ c, c.dev = [] → (f c).dev = []) : ∃ c, x.useLine m f = { x with cache := c } ∧ CleanCache c := by
  unfold Stack.useLine Stack.cacheLine
  dsimp only
  split
  · rename_i c hc
    refine ⟨_, rfl, h.set _ ?_⟩
    have hl := h.get (cacheSet m)
    intro l hm
    rcases List.mem_cons.1 hm with rfl | hm
    · exact hf c (hl c (List.mem_of_find?_eq_some hc))
    · exact hl l (List.mem_filter.1 hm).1
  · exact ⟨x.cache, rfl, h⟩

theorem Stack.touch_clean {x : Stack} (h : CleanCache x.cache) (m : Nat) (dirty : Bool) :
    ∃ c, x.touch m dirty = { x with cache := c } ∧ CleanCache c := Stack.useLine_clean h m fun _ hc => hc

theorem Stack.writeMeta_undisturbed {x : Stack} (h : Undisturbed x) {c : CacheLine} (hc : c.dev = []) :
    x.writeMeta c = x := by
  obtain ⟨he, hw, -⟩ := h
  cases x
  simp only at he hw
  simp [Stack.writeMeta, he, hw, hc, ErrPat.whole, SMap.set]

theorem Stack.tagDev_clean {x : Stack} (h : CleanCache x.cache) (g : TreeGeo) (line : Nat) : x.tagDev g line = [] := by
  unfold Stack.tagDev Stack.cacheLine
  split
  · rename_i c hc
    rw [h.get _ c (List.mem_of_find?_eq_some hc)]; rfl
  · rfl

/-! Fetching and caching metadata. -/

/-- The tables are canonical and nothing has disturbed stack `k`. -/
def Quiet (k : Nat) (s : State) : Prop := s.tablesCanonical ∧ Undisturbed (s.stack k)

theorem Quiet.clean {k : Nat} {s : State} (h : Quiet k s) : CleanCache (s.stack k).cache := h.2.2.2

/-- Of all stacks and messages, nothing but the metadata cache of stack `k` differs, and it stays clean. -/
structure OnlyCache (k : Nat) (s t : State) : Prop where
  quiet : Quiet k t
  out : t.out = s.out
  other : ∀ j, j ≠ k → t.stack j = s.stack j
  own : ∃ c, t.stack k = { s.stack k with cache := c }

theorem OnlyCache.refl {k : Nat} {s : State} (h : Quiet k s) : OnlyCache k s s := ⟨h, rfl, fun _ _ => rfl, _, rfl⟩

theorem OnlyCache.trans {k : Nat} {s t u : State} (h : OnlyCache k s t) (g : OnlyCache k t u) : OnlyCache k s u := by
  obtain ⟨c, hc⟩ := h.own
  obtain ⟨d, hd⟩ := g.own
  exact ⟨g.quiet, g.out.trans h.out, fun j hj => (g.other j hj).trans (h.other j hj), d, by rw [hd, hc]⟩

theorem OnlyCache.bump {k : Nat} {s t : State} (h : OnlyCache k s t) (pg : Page) (off n : Nat) :
    OnlyCache k s (t.bump pg off n) :=
  ⟨⟨State.bump_canonical h.quiet.1 pg off n, h.quiet.2⟩, h.out, h.other, h.own⟩

theorem OnlyCache.setCache {k : Nat} {s : State} (h : Quiet k s) {c : SMap (List CacheLine)} (hc : CleanCache c) :
    OnlyCache k s (s.setStack k { s.stack k with cache := c }) := by
  obtain ⟨hs, hu⟩ := h
  have hget := State.stack_setStack s hs.2.2.2.2.2.1 k
  have hk : (s.setStack k { s.stack k with cache := c }).stack k = { s.stack k with cache := c } := by rw [hget, if_pos rfl]
  exact ⟨⟨State.setStack_canonical hs _ _, by rw [hk]; exact ⟨hu.1, hu.2.1, hc⟩⟩, rfl,
    fun j hj => by rw [hget, if_neg hj], c, hk⟩

theorem OnlyCache.touch {k : Nat} {s t : State} (h : OnlyCache k s t) (m : Nat) (dirty : Bool) :
    OnlyCache k s (t.setStack k ((t.stack k).touch m dirty)) := by
  obtain ⟨c, he, hc⟩ := Stack.touch_clean h.quiet.clean m dirty
  rw [he]; exact h.trans (OnlyCache.setCache h.quiet hc)

theorem OnlyCache.foldl {α : Type} {k : Nat} {f : State → α → State} (l : List α) {s t : State} (h : OnlyCache k s t)
    (hf : ∀ a u, OnlyCache k s u → OnlyCache k s (f u a)) : OnlyCache k s (l.foldl f t) := by
  induction l generalizing t with
  | nil => exact h
  | cons a l ih => exact ih (hf a t h)

/-- Lines that decode as they were written. -/
def asWritten (ms : List Nat) : List (Nat × Option ErrPat) := ms.map fun m => (m, some [])

theorem State.decode_quiet {s : State} {k : Nat} (h : Quiet k s) (line : Nat) : s.decode k line = (s, some []) := by
  have he : (s.stack k).errOf line = [] := by unfold Stack.errOf; rw [h.2.1]; rfl
  unfold State.decode
  rw [he]; rfl

theorem State.decodeAll_quiet {s : State} {k : Nat} (h : Quiet k s) (ms : List Nat) :
    s.decodeAll k ms = (s, asWritten ms) := by
  have hfold : ∀ acc, ms.foldl (fun (a : State × List (Nat × Option ErrPat)) m =>
      ((a.1.decode k m).1, a.2 ++ [(m, (a.1.decode k m).2)])) (s, acc) = (s, acc ++ asWritten ms) := by
    induction ms with
    | nil => intro acc; simp [asWritten]
    | cons m ms ih => intro acc; simp only [List.foldl_cons, State.decode_quiet h, ih, asWritten]; simp
  exact (hfold []).trans (by simp)

theorem deadLine_asWritten (ms : List Nat) : deadLine (asWritten ms) = none := by simp [deadLine, asWritten]

theorem leftOf_asWritten (ms : List Nat) (m : Nat) : leftOf (asWritten ms) m = [] := by
  unfold leftOf asWritten
  cases h : (ms.map fun m => (m, some ([] : ErrPat))).find? (fun d => d.1 == m) with
  | none => rfl
  | some d =>
    obtain ⟨n, -, rfl⟩ := List.mem_map.1 (List.mem_of_find?_eq_some h)
    rfl

theorem State.forgedLine_asWritten (s : State) (k r : Nat) (ms : List Nat) : s.forgedLine k r (asWritten ms) = none := by
  have hb : s.digestBad k r (asWritten ms) = fun _ => false := by
    funext m
    unfold State.digestBad
    simp only [leftOf_asWritten]
    split
    · rfl
    · split <;> exact if_pos ⟨rfl, rfl⟩
  unfold State.forgedLine
  rw [hb]; simp

theorem OnlyCache.cacheInsert {k : Nat} {new : CacheLine} (hn : new.dev = []) (fuel : Nat) {s : State} (h : Quiet k s) :
    OnlyCache k s (s.cacheInsert k new fuel) := by
  induction fuel generalizing s new with
  | zero => exact OnlyCache.refl h
  | succ fuel ih =>
    have hl := h.clean.get (cacheSet new.line)
    have put : ∀ l : List CacheLine, (∀ c ∈ l, c.dev = []) → OnlyCache k s
        (s.setStack k { s.stack k with cache := SMap.set [] (s.stack k).cache (cacheSet new.line) (new :: l) }) :=
      fun l hl => OnlyCache.setCache h (h.clean.set _ (List.forall_mem_cons.2 ⟨hn, hl⟩))
    unfold State.cacheInsert
    dsimp only
    split
    · exact put _ hl
    · split
      · exact OnlyCache.refl h
      · rename_i old hold
        have h1 := put _ fun c hc => hl c ((List.dropLast_sublist _).subset hc)
        generalize s.setStack k _ = s1 at h1 ⊢
        split
        · exact h1
        · -- the evicted line goes to DRAM as it was written
          have h2 : OnlyCache k s1 (s1.setStack k ((s1.stack k).writeMeta old)) := by
            rw [Stack.writeMeta_undisturbed h1.quiet.2 (hl old (List.mem_of_getLast? hold))]
            exact OnlyCache.setCache h1.quiet h1.quiet.clean
          have h3 := (h1.trans h2).bump (.mpe k) (mpeCounter 2) 1
          generalize (s1.setStack k _).bump _ _ = s2 at h3 ⊢
          split
          · exact h3
          · split
            · exact h3
            · rw [State.decodeAll_quiet ((h3.bump _ _ _).bump _ _ _).quiet]
              simp only [deadLine_asWritten, State.forgedLine_asWritten]
              exact (OnlyCache.foldl _ ((h3.bump _ _ _).bump _ _ _) fun m u hu => hu.trans (ih rfl hu.quiet)).touch _ _

theorem State.loadMeta_quiet {s : State} {k : Nat} (h : Quiet k s) (r line : Nat) (tag : Bool) :
    ∃ t, s.loadMeta k r line tag = (t, .ok) ∧ OnlyCache k s t := by
  unfold State.loadMeta
  dsimp only
  have h1 := (OnlyCache.refl h).bump (.mpe k)
  rw [State.decodeAll_quiet ((h1 _ _).bump _ _ _).quiet]
  simp only [deadLine_asWritten, State.forgedLine_asWritten, leftOf_asWritten]
  refine ⟨_, rfl, OnlyCache.foldl _ (OnlyCache.foldl _ ((h1 _ _).bump _ _ _) ?_) ?_⟩
  · exact fun m u hu => hu.trans (OnlyCache.cacheInsert rfl 12 hu.quiet)
  · exact fun m u hu => hu.touch m false

/-! Reads and writes of an admitted line. -/

theorem State.treePlain_quiet {s : State} {k : Nat} (r line : Nat) : s.treePlain k r line [] [] = some ((s.stack k).bytes line) := rfl

theorem State.readNative_quiet {s : State} {k : Nat} (h : Quiet k s) (line r : Nat) :
    s.readNative k line r = (s, some ((s.stack k).bytes line)) := by
  unfold State.readNative
  rw [State.decode_quiet h]; rfl

/-- The metadata of a tree-mode line is found good, and the line reads as 64 bytes. -/
theorem State.openTree_quiet {s : State} {k : Nat} (h : Quiet k s) (line r : Nat) (read write : Bool) :
    ∃ t old, s.openTree k line r read write = (t, some old) ∧ OnlyCache k s t ∧ old.length = 64 := by
  unfold State.openTree
  dsimp only
  obtain ⟨t, ht, hc⟩ := State.loadMeta_quiet h r line (write || !((s.stack k).ctr line == 0))
  have hd : (if read && !((s.stack k).ctr line == 0) then t.decode k line else (t, some [])) = (t, some []) := by
    rw [State.decode_quiet hc.quiet, ite_self]
  simp only [ht, hd, Stack.tagDev_clean hc.quiet.clean, State.treePlain_quiet]
  split
  · exact ⟨t, _, rfl, hc, List.length_replicate⟩
  · exact ⟨t, _, rfl, hc, Stack.bytes_length _ _⟩

/-- Line `line` of stack `k` has been written with `new`; every other byte of every stack, and the messages, are as
before. -/
structure LineWritten (k line : Nat) (new : List Byte) (s t : State) : Prop where
  out : t.out = s.out
  other : ∀ j, j ≠ k → (t.stack j).mem = (s.stack j).mem
  own : (t.stack k).mem = (s.stack k).mem.write (64 * line) new

theorem LineWritten.setStack {s : State} (h : s.tablesCanonical) {k line : Nat} {x : Stack} {new : List Byte}
    (hx : x.mem = (s.stack k).mem.write (64 * line) new) : LineWritten k line new s (s.setStack k x) := by
  have hget := State.stack_setStack s h.2.2.2.2.2.1 k
  exact ⟨rfl, fun j hj => by rw [hget, if_neg hj], by rw [hget, if_pos rfl, hx]⟩

theorem LineWritten.after {k line : Nat} {new : List Byte} {s t u : State} (h : OnlyCache k s t)
    (g : LineWritten k line new t u) : LineWritten k line new s u := by
  obtain ⟨c, hc⟩ := h.own
  exact ⟨g.out.trans h.out, fun j hj => by rw [g.other j hj, h.other j hj], by rw [g.own, hc]⟩

theorem State.storeTree_quiet {s : State} {k line : Nat} (h : Quiet k s) (r : Nat) (bs : List Byte)
    (hc : (s.stack k).ctr line ≠ 2 ^ 64 - 1) :
    ∃ t, s.storeTree k line r bs = (t, true) ∧ LineWritten k line bs s t := by
  unfold State.storeTree
  dsimp only
  rw [if_neg hc]
  refine ⟨_, rfl, LineWritten.setStack h.1 ?_⟩
  obtain ⟨c, he, hcl⟩ := Stack.touch_clean h.clean (((s.region r).geo.path line).headD 0) true
  obtain ⟨d, hd, -⟩ := Stack.useLine_clean (x := { s.stack k with cache := c }) hcl ((s.region r).geo.tagLine line)
    (f := fun l => { l with
      dirty := true, dev := l.dev.filter fun e => decide (e.1 / 8 ≠ (line - (s.region r).geo.data0) % 8) })
    (fun l hl => by simp [hl])
  rw [he, hd]; rfl

/-- An admitted write of an undisturbed line places its bytes on what the line held; in a region not in tree mode that is
the line's bytes, unless the write covers the whole line. -/
theorem State.writeLine_quiet {s : State} {k line cls ctx off r : Nat} {data : List Byte} (h : Quiet k s)
    (hr : s.checkLine k line cls ctx true = .ok r) (hlen : off + data.length ≤ 64)
    (hc : (s.stack k).ctr line ≠ 2 ^ 64 - 1) :
    ∃ t old, s.writeLine k line cls ctx off data = (t, true) ∧ LineWritten k line (placed old off data) s t
      ∧ old.length = 64
      ∧ ((s.region r).tree = false → off = 0 ∧ data.length = 64 ∨ old = (s.stack k).bytes line) := by
  unfold State.writeLine State.writeMasked
  rw [hr]
  dsimp only
  split
  · rename_i htree
    obtain ⟨t, old, ht, hq, hold⟩ := State.openTree_quiet h line r
      (!(List.range 64).all fun i => (data.zipIdx.map fun b => (off + b.2, b.1)).any fun e => e.1 == i) true
    obtain ⟨c, hown⟩ := hq.own
    obtain ⟨u, hu, hw⟩ := State.storeTree_quiet hq.quiet r (placed old off data) (line := line) (by rw [hown]; exact hc)
    rw [ht]
    exact ⟨u, old, hu, hw.after hq, hold, fun hf => absurd htree (by simp [hf])⟩
  · split
    · rename_i hfull
      refine ⟨_, List.replicate 64 0#8, rfl, LineWritten.setStack h.1 rfl, List.length_replicate, fun _ => Or.inl ?_⟩
      have hat : ∀ i < 64, off ≤ i ∧ i < off + data.length := by
        intro i hi
        obtain ⟨e, he, hei⟩ := List.any_eq_true.1 (List.all_eq_true.1 hfull i (List.mem_range.2 hi))
        obtain ⟨b, hb, rfl⟩ := List.mem_map.1 he
        have := List.snd_lt_of_mem_zipIdx hb
        have := eq_of_beq hei
        omega
      have := hat 0 (by omega)
      have := hat 63 (by omega)
      omega
    · rw [State.readNative_quiet h]
      exact ⟨_, _, rfl, LineWritten.setStack h.1 rfl, Stack.bytes_length _ _, fun _ => Or.inr rfl⟩

/-! The bytes after a write. -/

section
variable {k line off : Nat} {s t : State} {old data : List Byte}

theorem LineWritten.byte_placed (h : LineWritten k line (placed old off data) s t) (hm : (s.stack k).mem.wf = true)
    (hold : old.length = 64) {i : Nat} (hi : i < 64) :
    some ((t.stack k).mem.byte (64 * line + i)) = (placed old off data)[i]? := by
  have hi' : i < (placed old off data).length := by rwa [placed_length, hold]
  rw [h.own, Mem.byte_write_inside hm _ _ i hi', List.getElem?_eq_getElem hi']

theorem LineWritten.sameBut_line (h : LineWritten k line (placed old off data) s t) (hm : (s.stack k).mem.wf = true)
    (hold : old.length = 64) : StacksSameBut k (64 * line) (64 * line + 64) s t := by
  intro j a ha
  by_cases hj : j = k
  · subst hj
    rw [h.own]
    refine Mem.byte_write_outside hm _ _ _ ?_
    rw [placed_length, hold]
    exact ha.resolve_left fun hne => hne rfl
  · rw [h.other j hj]

/-- Where the line held `old`, no byte beside the data changes. -/
theorem LineWritten.sameBut_data (h : LineWritten k line (placed old off data) s t) (hm : (s.stack k).mem.wf = true)
    (hold : old = (s.stack k).bytes line) (hlen : off + data.length ≤ 64) :
    StacksSameBut k (64 * line + off) (64 * line + off + data.length) s t := by
  have h64 : old.length = 64 := by rw [hold, Stack.bytes_length]
  intro j a ha
  by_cases hin : j = k ∧ 64 * line ≤ a ∧ a < 64 * line + 64
  · obtain ⟨rfl, hlo, hhi⟩ := hin
    obtain ⟨i, rfl⟩ : ∃ i, a = 64 * line + i := ⟨a - 64 * line, by omega⟩
    have hi : i < 64 := by omega
    have hb := h.byte_placed hm h64 hi
    rw [placed_getElem? (by omega), if_neg (by omega), hold, List.getElem?_eq_getElem (by simpa using hi)] at hb
    exact (Option.some.inj hb).trans (Mem.getElem_read _ _ _ _ _)
  · exact h.sameBut_line hm h64 j a (by omega)
end

theorem exec_memoryLineWrite (k line cls ctx off : Nat) (data : List Byte) (s : State) :
    exec (.memoryLineWrite k line cls ctx off data) s = execMemoryLineWrite k line cls ctx off data s := by
  rfl

/-- Settles O15: metadata fetched in an undisturbed stack changes its cache alone, and the line is then written with the
data placed on what it held. -/
theorem memoryWritesStoreTheirBytesOnly : Obligations.MemoryWritesStoreTheirBytesOnly := by
  intro s k line cls ctx off r data hs hk hline hcls hctx hrst hne hlen hm hr hu hctr
  obtain ⟨t, old, ht, hw, hold, hnat⟩ := State.writeLine_quiet ⟨hs, hu⟩ hr hlen (Nat.ne_of_lt hctr)
  refine ⟨t, ?_, hw.out, ?_, hw.sameBut_line hm hold, ?_⟩
  · rw [exec_memoryLineWrite]
    simp [execMemoryLineWrite, hk, hline, hcls, hctx, hne, hlen, hrst, ht]
  · intro i hi
    have hb := hw.byte_placed hm hold (i := off + i) (by omega)
    rw [placed_getElem? (by omega), if_pos (by omega), Nat.add_sub_cancel_left, List.getElem?_eq_getElem hi] at hb
    rw [Nat.add_assoc]
    exact Option.some.inj hb
  · intro htree
    rcases hnat htree with ⟨rfl, h64⟩ | h
    · rw [h64]; exact hw.sameBut_line hm hold
    · exact hw.sameBut_data hm h hlen

end Sys2Proof.Machine
end

section
/-!
The memory path and the reduction buffers: no read, write, alarm or escalation of the memory path changes a buffer entry
of a stack or a message on its way to one (09 R206, R207; 12 R293, R309, R310).
-/
namespace Sys2Proof.Machine

theorem Stack.useLine_entries (x : Stack) (m : Nat) (f : CacheLine → CacheLine) :
    (x.useLine m f).entries = x.entries := by
  unfold Stack.useLine; dsimp only; split <;> rfl

theorem Stack.useLine_inbox (x : Stack) (m : Nat) (f : CacheLine → CacheLine) : (x.useLine m f).inbox = x.inbox := by
  unfold Stack.useLine; dsimp only; split <;> rfl

/-- The state `t` is canonical, and every stack has the buffer entries and the inbox that it has in `s`. -/
structure SameBuffers (s t : State) : Prop where
  canonical : t.tablesCanonical
  entries : ∀ k, (t.stack k).entries = (s.stack k).entries
  inbox : ∀ k, (t.stack k).inbox = (s.stack k).inbox

namespace SameBuffers
variable {s t : State}

theorem refl (h : s.tablesCanonical) : SameBuffers s s := ⟨h, fun _ => rfl, fun _ => rfl⟩

theorem setStack (h : SameBuffers s t) {k : Nat} {x : Stack} (he : x.entries = (t.stack k).entries)
    (hi : x.inbox = (t.stack k).inbox) : SameBuffers s (t.setStack k x) := by
  have hget := State.stack_setStack t h.canonical.2.2.2.2.2.1 k
  refine ⟨State.setStack_canonical h.canonical k x, fun j => ?_, fun j => ?_⟩
  · rw [hget, ← h.entries j]; split
    · subst j; exact he
    · rfl
  · rw [hget, ← h.inbox j]; split
    · subst j; exact hi
    · rfl

theorem setCache (h : SameBuffers s t) (k : Nat) (c : SMap (List CacheLine)) :
    SameBuffers s (t.setStack k { t.stack k with cache := c }) := h.setStack rfl rfl

theorem raise (h : SameBuffers s t) (pg : Page) (code a b : Nat) : SameBuffers s (t.raise pg code a b) :=
  ⟨State.raise_canonical h.canonical pg code a b, fun k => by rw [State.raise_stack]; exact h.entries k,
    fun k => by rw [State.raise_stack]; exact h.inbox k⟩

theorem bump (h : SameBuffers s t) (pg : Page) (off n : Nat) : SameBuffers s (t.bump pg off n) :=
  ⟨State.bump_canonical h.canonical pg off n, h.entries, h.inbox⟩

theorem setWord (h : SameBuffers s t) (pg : Page) (off v : Nat) : SameBuffers s (t.setWord pg off v) :=
  ⟨State.setWord_canonical h.canonical pg off v, h.entries, h.inbox⟩

theorem setRegion (h : SameBuffers s t) (r : Nat) (g : Region) : SameBuffers s (t.setRegion r g) :=
  ⟨State.setRegion_canonical h.canonical r g, h.entries, h.inbox⟩

theorem foldl {α : Type} {f : State → α → State} (l : List α) (h : SameBuffers s t)
    (hf : ∀ a u, SameBuffers s u → SameBuffers s (f u a)) : SameBuffers s (l.foldl f t) := by
  induction l generalizing t with
  | nil => exact h
  | cons a l ih => exact ih (hf a t h)

/-! Decoding and alarms. -/

theorem decode (h : SameBuffers s t) (k line : Nat) : SameBuffers s (t.decode k line).1 := by
  unfold State.decode State.noteCorrected
  split
  · exact h
  · exact (h.setStack (by rfl) (by rfl)).bump _ _ _
  · exact (h.bump _ _ _).setWord _ _ _

theorem dropMeta (h : SameBuffers s t) (r : Nat) : SameBuffers s (t.dropMeta r) :=
  foldl _ h fun k u hu => by
    dsimp only
    split
    · exact hu.setStack rfl rfl
    · exact hu

theorem dropSweeps (h : SameBuffers s t) (r : Nat) : SameBuffers s (t.dropSweeps r) :=
  foldl _ h fun k u hu => by
    dsimp only
    split
    · exact hu.setStack rfl rfl
    · exact hu

theorem clearKeys (h : SameBuffers s t) (r : Nat) : SameBuffers s (t.clearKeys r) :=
  foldl _ h fun k u hu => by
    dsimp only
    split
    · exact hu
    · exact hu.setStack rfl rfl

theorem fence (h : SameBuffers s t) (r : Nat) : SameBuffers s (t.fence r) := by
  have hf := (((h.dropMeta r).dropSweeps r).clearKeys r).setRegion r { t.region r with state := .fenced }
  unfold State.fence
  dsimp only
  split
  · exact hf
  · exact hf
  · exact hf
  · exact h

theorem haltPart (h : SameBuffers s t) (p : Nat) :
    SameBuffers s { t with haltPart := SMap.set false t.haltPart p true } := by
  obtain ⟨h0, h1, h2, h3, h4, h5, h6, h7, h8, h9, h10⟩ := h.canonical
  exact ⟨⟨h0, h1, h2, h3, h4, h5, h6, h7, h8, h9, SMap.wf_set h10 _ _⟩, h.entries, h.inbox⟩

theorem haltDev (h : SameBuffers s t) (c : Clocks) : SameBuffers s { t with haltDev := true, clk := c } :=
  ⟨h.canonical, h.entries, h.inbox⟩

theorem escalate (h : SameBuffers s t) (k r : Nat) : SameBuffers s (t.escalate k r) := by
  unfold State.escalate
  dsimp only
  split
  · exact h
  · split
    · exact h.fence r
    · refine (haltPart (foldl _ h fun i u hu => ?_) _).raise _ _ _ _
      split
      · exact hu.fence i
      · exact hu
    · exact (haltDev (foldl _ h fun i u hu => hu.fence i) _).raise _ _ _ _

theorem tamper (h : SameBuffers s t) (k r code line : Nat) : SameBuffers s (t.tamper k r code line) :=
  ((h.raise _ _ _ _).bump _ _ _).escalate k r

theorem metaDead (h : SameBuffers s t) (k r m : Nat) : SameBuffers s (t.metaDead k r m) := (h.raise _ _ _ _).fence r

/-! Metadata. -/

theorem decodeAll (h : SameBuffers s t) (k : Nat) (ms : List Nat) : SameBuffers s (t.decodeAll k ms).1 := by
  have hfold : ∀ (a : State × List (Nat × Option ErrPat)), SameBuffers s a.1 → SameBuffers s
      (ms.foldl (fun a m => ((a.1.decode k m).1, a.2 ++ [(m, (a.1.decode k m).2)])) a).1 := by
    induction ms with
    | nil => exact fun _ ha => ha
    | cons m ms ih => exact fun a ha => ih _ (ha.decode k m)
  exact hfold (t, []) h

theorem touch (h : SameBuffers s t) (k m : Nat) (dirty : Bool) :
    SameBuffers s (t.setStack k ((t.stack k).touch m dirty)) :=
  h.setStack (Stack.useLine_entries _ _ _) (Stack.useLine_inbox _ _ _)

theorem cacheInsert (h : SameBuffers s t) (k : Nat) (new : CacheLine) (fuel : Nat) :
    SameBuffers s (t.cacheInsert k new fuel) := by
  induction fuel generalizing t new with
  | zero => exact h
  | succ fuel ih =>
    unfold State.cacheInsert
    dsimp only
    split
    · exact h.setStack rfl rfl
    · split
      · exact h
      · rename_i old _
        have h1 := h.setCache k (SMap.set [] (t.stack k).cache (cacheSet new.line)
          (new :: (SMap.get [] (t.stack k).cache (cacheSet new.line)).dropLast))
        generalize t.setStack k _ = t1 at h1 ⊢
        split
        · exact h1
        · have h2 : SameBuffers s ((t1.setStack k ((t1.stack k).writeMeta old)).bump (.mpe k) (mpeCounter 2)) :=
            (h1.setStack (by rfl) (by rfl)).bump _ _ _
          generalize (t1.setStack k _).bump _ _ = t2 at h2 ⊢
          split
          · exact h2
          · split
            · exact h2
            · have h3 := fun a b ms => ((h2.bump (.mpe k) (mpeCounter 0) a).bump (.mpe k) (mpeCounter 1) b).decodeAll k ms
              split
              · exact (h3 _ _ _).metaDead k _ _
              · exact (h3 _ _ _).tamper k _ _ _
              · exact (foldl _ (h3 _ _ _) fun m u hu => ih hu _).touch k _ _

theorem loadMeta (h : SameBuffers s t) (k r line : Nat) (tag : Bool) : SameBuffers s (t.loadMeta k r line tag).1 := by
  have hd := fun a b ms => ((h.bump (.mpe k) (mpeCounter 0) a).bump (.mpe k) (mpeCounter 1) b).decodeAll k ms
  unfold State.loadMeta
  dsimp only
  split
  · exact hd _ _ _
  · exact hd _ _ _
  · exact foldl _ (foldl _ (hd _ _ _) fun m u hu => hu.cacheInsert k _ 12) fun m u hu => hu.touch k m false

/-! Lines. -/

theorem readNative (h : SameBuffers s t) (k line r : Nat) : SameBuffers s (t.readNative k line r).1 := by
  have hd := h.decode k line
  unfold State.readNative
  generalize t.decode k line = p at hd ⊢
  split
  · exact hd.raise _ _ _ _
  · dsimp only at hd
    split
    · exact hd.tamper k r _ _
    · exact hd

theorem openTree (h : SameBuffers s t) (k line r : Nat) (read write : Bool) :
    SameBuffers s (t.openTree k line r read write).1 := by
  unfold State.openTree
  dsimp only
  generalize ha : t.loadMeta k r line _ = a
  have h1 : SameBuffers s a.1 := ha ▸ h.loadMeta k r line _
  generalize hd : (if (read && !(t.stack k).ctr line == 0) = true then a.1.decode k line else (a.1, some [])) = d
  have h2 : SameBuffers s d.1 := by
    rw [← hd]; split
    · exact h1.decode k line
    · exact h1
  split
  · exact h2.metaDead k r _
  · exact h2.raise _ _ _ _
  · exact h2.tamper k r _ _
  · split
    · exact h2
    · split
      · exact h2.tamper k r _ _
      · exact h2

theorem releaseLine (h : SameBuffers s t) (k line r : Nat) : SameBuffers s (t.releaseLine k line r).1 := by
  unfold State.releaseLine
  split
  · exact h.openTree k line r _ _
  · exact h.readNative k line r

theorem refuseLine (h : SameBuffers s t) (k ctx rgn code a1 line : Nat) :
    SameBuffers s (t.refuseLine k ctx rgn code a1 line) := by
  have hb := h.bump (.mpe k) (mpeCounter 4) 1
  unfold State.refuseLine State.raiseAccess
  dsimp only
  split
  · exact hb
  · split
    · exact raise ⟨State.rateNote_canonical hb.canonical _, hb.entries, hb.inbox⟩ _ _ _ _
    · exact hb

theorem checkLine (h : SameBuffers s t) {k line cls ctx : Nat} {write : Bool} {u : State}
    (hu : t.checkLine k line cls ctx write = .error u) : SameBuffers s u := by
  have hr := h.refuseLine k ctx
  unfold State.checkLine at hu
  dsimp only at hu
  split at hu
  · cases hu; exact h.bump _ _ _
  · split at hu
    · cases hu; exact hr _ _ _ _
    · split at hu
      · cases hu; exact hr _ _ _ _
      · split at hu
        · cases hu; exact hr _ _ _ _
        split at hu
        · cases hu; exact hr _ _ _ _
        split at hu
        · cases hu; exact hr _ _ _ _
        split at hu
        · cases hu; exact hr _ _ _ _
        · cases hu

theorem readLine (h : SameBuffers s t) (k line cls ctx : Nat) : SameBuffers s (t.readLine k line cls ctx).1 := by
  unfold State.readLine
  split
  · rename_i hc; exact h.checkLine hc
  · exact h.releaseLine k line _

theorem storeTree (h : SameBuffers s t) (k line r : Nat) (bs : List Byte) :
    SameBuffers s (t.storeTree k line r bs).1 := by
  unfold State.storeTree
  dsimp only
  split
  · exact (h.raise _ _ _ _).bump _ _ _
  · exact h.setStack ((Stack.useLine_entries _ _ _).trans (Stack.useLine_entries _ _ _))
      ((Stack.useLine_inbox _ _ _).trans (Stack.useLine_inbox _ _ _))

theorem writeMasked (h : SameBuffers s t) (k line cls ctx : Nat) (es : List (Nat × Byte)) :
    SameBuffers s (t.writeMasked k line cls ctx es).1 := by
  unfold State.writeMasked
  split
  · rename_i hc; exact h.checkLine hc
  · rename_i r _
    dsimp only
    split
    · generalize hp : t.openTree k line r _ true = p
      have ho : SameBuffers s p.1 := hp ▸ h.openTree k line r _ true
      split
      · exact ho
      · exact ho.storeTree k line r _
    · split
      · exact h.setStack rfl rfl
      · have hn := h.readNative k line r
        generalize t.readNative k line r = p at hn ⊢
        split
        · exact hn
        · exact hn.setStack rfl rfl

theorem writeLine (h : SameBuffers s t) (k line cls ctx off : Nat) (bs : List Byte) :
    SameBuffers s (t.writeLine k line cls ctx off bs).1 := h.writeMasked k line cls ctx _

/-! Runs of bytes. -/

/-- A fold whose state changes keep the buffers, whatever it gathers beside the state. -/
theorem foldl_fst {α β : Type} {f : State × β → α → State × β} (l : List α) {a : State × β} (h : SameBuffers s a.1)
    (hf : ∀ a i, SameBuffers s a.1 → SameBuffers s (f a i).1) : SameBuffers s (l.foldl f a).1 := by
  induction l generalizing a with
  | nil => exact h
  | cons i l ih => exact ih (hf a i h)

theorem readRun (h : SameBuffers s t) (k o n cls ctx : Nat) : SameBuffers s (t.readRun k o n cls ctx).1 := by
  unfold State.readRun
  dsimp only
  split
  · exact h
  · refine foldl_fst _ h fun a i ha => ?_
    split
    · exact ha
    · have hl := ha.readLine k (o / 64 + i) cls ctx
      generalize a.1.readLine k (o / 64 + i) cls ctx = p at hl ⊢
      split <;> exact hl

theorem writeRun (h : SameBuffers s t) (k o cls ctx : Nat) (bs : List Byte) :
    SameBuffers s (t.writeRun k o cls ctx bs).1 := by
  unfold State.writeRun
  dsimp only
  split
  · exact h
  · refine foldl_fst _ h fun a i ha => ?_
    split
    · exact ha
    · generalize hp : a.1.writeLine k (o / 64 + i) cls ctx _ _ = p
      have hl : SameBuffers s p.1 := hp ▸ ha.writeLine k (o / 64 + i) cls ctx _ _
      split <;> exact hl

theorem rhzRead (h : SameBuffers s t) (k c off n : Nat) : SameBuffers s (t.rhzRead k c off n).1 := by
  have hr := h.readRun k off n 2 c
  unfold State.rhzRead
  generalize t.readRun k off n 2 c = p at hr ⊢
  split <;> exact hr

theorem rhzWrite (h : SameBuffers s t) (k c off : Nat) (bs : List Byte) : SameBuffers s (t.rhzWrite k c off bs).1 := by
  have hw := h.writeRun k off 2 c bs
  unfold State.rhzWrite
  generalize t.writeRun k off 2 c bs = p at hw ⊢
  dsimp only
  split <;> exact hw

end SameBuffers
end Sys2Proof.Machine
end

section
/-!
The acceptance of a contribution (09 R206, R207, R209): what the sums' place in the staging SRAM and the checked copies
change of an entry, and the decision on a message.
-/
namespace Sys2Proof.Machine

/-! An entry while a contribution is taken in. -/

/-- Stack `k` of a canonical state has a canonical table of entries and the inbox `box`, and `P` holds of its entry `i`. -/
structure EntryHas (k i : Nat) (box : List Inbound) (P : RedEntry → Prop) (s : State) : Prop where
  canonical : s.tablesCanonical
  entries : SMap.wf {} (s.stack k).entries = true
  inbox : (s.stack k).inbox = box
  holds : P ((s.stack k).entry i)

theorem State.stack_setEntry (s : State) (h : SMap.wf {} s.stackTab = true) (k i : Nat) (e : RedEntry) :
    (s.setEntry k i e).stack k = { s.stack k with entries := SMap.set {} (s.stack k).entries i e } := by
  unfold State.setEntry
  rw [State.stack_setStack s h, if_pos rfl]

theorem State.entry_setEntry (s : State) (h : SMap.wf {} s.stackTab = true) {k : Nat}
    (he : SMap.wf {} (s.stack k).entries = true) (j i : Nat) (e : RedEntry) :
    ((s.setEntry k j e).stack k).entry i = if i = j then e else (s.stack k).entry i := by
  rw [State.stack_setEntry s h]
  exact SMap.get_set he j i e

/-- An OPEN entry whose spans are a canonical table. -/
def OpenSpans (e : RedEntry) : Prop := e.state = .opened ∧ SMap.wf {} e.spans = true

theorem OpenSpans.noteBus {e : RedEntry} (h : OpenSpans e) (l : Option Nat) : OpenSpans (e.noteBus l) := h

theorem OpenSpans.setSpan {e : RedEntry} (h : OpenSpans e) (sp : Nat) (x : Span) : OpenSpans (e.setSpan sp x) :=
  ⟨h.1, SMap.wf_set h.2 sp x⟩

theorem RedEntry.span_of_spans {e f : RedEntry} (h : e.spans = f.spans) (i : Nat) : e.span i = f.span i := by
  unfold RedEntry.span; rw [h]

/-- An OPEN entry whose span `sp` has accepted rank `r`. -/
def OpenAccepted (sp r : Nat) (e : RedEntry) : Prop := e.state = .opened ∧ bit (e.span sp).acc r = true

namespace EntryHas
variable {k i : Nat} {box : List Inbound} {P Q : RedEntry → Prop} {s t : State}

theorem same (h : EntryHas k i box P s) (g : SameBuffers s t) : EntryHas k i box P t :=
  ⟨g.canonical, by rw [g.entries]; exact h.entries, by rw [g.inbox]; exact h.inbox,
    by unfold Stack.entry; rw [g.entries]; exact h.holds⟩

theorem same_refl (h : EntryHas k i box P s) : SameBuffers s s := SameBuffers.refl h.canonical

theorem bump (h : EntryHas k i box P s) (pg : Page) (off n : Nat) : EntryHas k i box P (s.bump pg off n) :=
  h.same (h.same_refl.bump pg off n)

theorem rhzWrite (h : EntryHas k i box P s) (k' c off : Nat) (bs : List Byte) :
    EntryHas k i box P (s.rhzWrite k' c off bs).1 := h.same (h.same_refl.rhzWrite k' c off bs)

theorem rhzRead (h : EntryHas k i box P s) (k' c off n : Nat) :
    EntryHas k i box P (s.rhzRead k' c off n).1 := h.same (h.same_refl.rhzRead k' c off n)

/-- Entry `i` replaced. -/
theorem replace (h : EntryHas k i box P s) {e : RedEntry} (he : Q e) : EntryHas k i box Q (s.setEntry k i e) := by
  have hstack := State.stack_setEntry s h.canonical.2.2.2.2.2.1 k i e
  refine ⟨State.setStack_canonical h.canonical _ _, ?_, ?_, ?_⟩
  · rw [hstack]; exact SMap.wf_set h.entries i e
  · rw [hstack]; exact h.inbox
  · rw [State.entry_setEntry s h.canonical.2.2.2.2.2.1 h.entries, if_pos rfl]; exact he

/-- Any entry of the stack replaced, entry `i` by one of which `P` holds. -/
theorem setEntry (h : EntryHas k i box P s) {j : Nat} {e : RedEntry} (he : j = i → P e) :
    EntryHas k i box P (s.setEntry k j e) := by
  by_cases hj : j = i
  · subst hj; exact h.replace (he rfl)
  · have hstack := State.stack_setEntry s h.canonical.2.2.2.2.2.1 k j e
    refine ⟨State.setStack_canonical h.canonical _ _, ?_, ?_, ?_⟩
    · rw [hstack]; exact SMap.wf_set h.entries j e
    · rw [hstack]; exact h.inbox
    · rw [State.entry_setEntry s h.canonical.2.2.2.2.2.1 h.entries, if_neg (Ne.symm hj)]; exact h.holds

/-! Residency. -/

theorem evictSpan (h : EntryHas k i box OpenSpans s) (j sp : Nat) : EntryHas k i box OpenSpans (s.evictSpan k j sp) := by
  unfold State.evictSpan
  dsimp only
  refine ((h.rhzWrite k _ _ _).rhzWrite k _ _ _).setEntry ?_
  rintro rfl
  exact ((h.holds.noteBus _).noteBus _).setSpan _ _

theorem makeRoom (h : EntryHas k i box OpenSpans s) (need fuel : Nat) :
    EntryHas k i box OpenSpans (s.makeRoom k need fuel) := by
  induction fuel generalizing s with
  | zero => exact h
  | succ fuel ih =>
    unfold State.makeRoom
    dsimp only
    split
    · exact h
    · split
      · exact h
      · exact ih (h.evictSpan _ _)

theorem bringSpan (h : EntryHas k i box OpenSpans s) (sp : Nat) : EntryHas k i box OpenSpans (s.bringSpan k i sp) := by
  have hm := h.makeRoom ((s.stack k).entry i).residentBytes ((s.stack k).residents.length + 1)
  unfold State.bringSpan
  dsimp only
  generalize s.makeRoom k _ _ = s1 at hm ⊢
  split
  · exact h
  · split
    · exact hm.replace (hm.holds.setSpan _ _)
    · generalize hp : s1.rhzRead k _ _ _ = p
      have hr : EntryHas k i box OpenSpans p.1 := hp ▸ hm.rhzRead k _ _ _
      split
      · exact hr.replace ((hm.holds.noteBus _).setSpan _ _)
      · exact hr.replace (hm.holds.setSpan _ _)

/-! Acceptance. -/

theorem copyPicks (h : EntryHas k i box P s) (hP : ∀ e l, P e → P (e.noteBus l)) (c : Contrib) (payload : List Byte) :
    EntryHas k i box P (s.copyPicks k i c payload) := by
  unfold State.copyPicks
  dsimp only
  generalize List.zipIdx _ = picks
  generalize (s.stack k).entry i = e0
  induction picks generalizing s with
  | nil => exact h
  | cons b picks ih =>
    rw [List.foldl_cons]
    refine ih ?_
    have hw := h.rhzWrite k e0.ctx (e0.checkAt c.span b.2 c.rank)
      (slice payload ((b.1 - 128 * c.span) * (32 * e0.elemW)) (32 * e0.elemW))
    exact hw.replace (hP _ _ hw.holds)

/-- An accepted contribution leaves the entry OPEN, its rank among those that the span has accepted. -/
theorem redAccept (h : EntryHas k i box OpenSpans s) (c : Contrib) (payload : List Byte) :
    EntryHas k i box (OpenAccepted c.span c.rank) (s.redAccept k i c payload) := by
  unfold State.redAccept
  dsimp only
  generalize hs1 : (if ((s.stack k).entry i).typ = 2 then _ else s.bringSpan k i c.span : State) = s1
  have h1 : EntryHas k i box OpenSpans s1 := by
    rw [← hs1]
    split
    · have hw := h.rhzWrite k ((s.stack k).entry i).ctx (((s.stack k).entry i).rowAt c.rank c.span) payload
      exact hw.replace (hw.holds.noteBus _)
    · exact h.bringSpan c.span
  refine (copyPicks ?_ (fun e l he => he) c payload).bump _ _ _
  refine same (h1.replace (Q := OpenAccepted c.span c.rank) ?_) ((SameBuffers.refl ?_).setStack (by rfl) (by rfl))
  · refine ⟨h1.holds.1, ?_⟩
    unfold RedEntry.setSpan RedEntry.span
    dsimp only
    rw [SMap.get_set_same h1.holds.2]
    simp [bit, Nat.testBit_or, Nat.testBit_two_pow_self]
  · exact State.setStack_canonical h1.canonical _ _

/-- The early close keeps the accepted ranks, and leaves the entry CLOSING where it is complete. -/
theorem earlyClose {sp r : Nat} (h : EntryHas k i box (OpenAccepted sp r) s) :
    EntryHas k i box (fun e => bit (e.span sp).acc r = true ∧ e.state = if e.complete then .closing else .opened)
      (s.earlyClose k i) := by
  unfold State.earlyClose
  dsimp only
  split
  · rename_i hc
    exact h.replace ⟨h.holds.2, (if_pos hc.2).symm⟩
  · rename_i hc
    exact ⟨h.canonical, h.entries, h.inbox, h.holds.2, by rw [if_neg fun hd => hc ⟨h.holds.1, hd⟩]; exact h.holds.1⟩

/-- A discard keeps the spans. -/
theorem redDiscard {m : SMap Span} (h : EntryHas k i box (fun e => e.spans = m) s) (counter code a1 a2 : Nat) :
    EntryHas k i box (fun e => e.spans = m) (s.redDiscard k i counter code a1 a2) := by
  have hb := h.bump (.rhz k) (redCounter counter) 1
  unfold State.redDiscard
  dsimp only
  split
  · exact hb
  · have he := fun codes => hb.replace (Q := fun e => e.spans = m) (e := { (s.stack k).entry i with raised := codes }) h.holds
    exact (he _).same ((he _).same_refl.raise _ _ _ _)

end EntryHas

/-! The decision on a message (R206). -/

section
variable {s : State} {k c i : Nat} {bytes : List Byte} {h : Contrib}

/-- A message of the step of an OPEN entry that fits its header is accepted, or discarded as one of a rank that has been
accepted or as one that replay does not take. -/
theorem State.redReceive_open (hh : h = Contrib.ofBytes bytes)
    (hf : (s.stack k).findEntry c h.group h.buffer = some i) (hst : ((s.stack k).entry i).state = .opened)
    (hcyc : s.rhzCycle ≤ ((s.stack k).entry i).cycle) (hstep : h.step = ((s.stack k).entry i).step)
    (hok : ((s.stack k).entry i).contribOk h bytes.length = true) :
    s.redReceive k c bytes =
      if bit (((s.stack k).entry i).span h.span).acc h.rank then
        s.redDiscard k i 3 0x5006 (h.buffer + h.group * 65536) (h.rank + h.span % 2 ^ 24 * 256)
      else if ((s.stack k).entry i).replay ∧ !bit (((s.stack k).entry i).takes h.span) h.rank then
        s.redDiscard k i 1 0x5004 (h.buffer + h.group * 65536) (h.rank + h.span % 2 ^ 24 * 256)
      else (s.redAccept k i h (bytes.drop 64)).earlyClose k i := by
  unfold State.redReceive
  dsimp only
  rw [← hh, hf]
  simp [hst, hcyc, hstep, hok]

/-- A message without an entry leaves the entries and the inbox alone, and is reported once (R206). -/
theorem State.redReceive_unarmed (hs : s.tablesCanonical) (hh : h = Contrib.ofBytes bytes)
    (hf : (s.stack k).findEntry c h.group h.buffer = none) :
    SameBuffers s (s.redReceive k c bytes)
      ∧ ((s.stack k).unarmed.contains (c, h.group, h.buffer, h.step) = false →
          bit ((s.redReceive k c bytes).word (.rhz k) 0x010) 5 = true) := by
  have hb := (SameBuffers.refl hs).bump (.rhz k) (redCounter 3) 1
  unfold State.redReceive
  dsimp only
  rw [← hh, hf]
  dsimp only
  split
  · rename_i hold
    exact ⟨hb, fun hnew => absurd hold (by rw [hnew]; exact Bool.false_ne_true)⟩
  · have hx := fun l => hb.setStack (k := k) (x := { s.stack k with unarmed := l }) rfl rfl
    exact ⟨(hx _).raise _ _ _ _, fun _ => State.raise_marks _ (hx _).canonical.1 (.rhz k) 0x5003 _ _ (by decide)⟩
end

/-- The state with the `src`-th message taken from the inbox of stack `k`. -/
def State.inboxTaken (s : State) (k src : Nat) : State :=
  s.setStack k { s.stack k with inbox := (s.stack k).inbox.eraseIdx src }

theorem State.inboxTaken_stack {s : State} (h : s.tablesCanonical) (k src : Nat) :
    (s.inboxTaken k src).stack k = { s.stack k with inbox := (s.stack k).inbox.eraseIdx src } := by
  unfold State.inboxTaken
  rw [State.stack_setStack s h.2.2.2.2.2.1, if_pos rfl]

theorem State.inboxTaken_has {s : State} (h : s.tablesCanonical) {k : Nat} (he : SMap.wf {} (s.stack k).entries = true)
    (src i : Nat) {P : RedEntry → Prop} (hP : P ((s.stack k).entry i)) :
    EntryHas k i ((s.stack k).inbox.eraseIdx src) P (s.inboxTaken k src) := by
  have hstack := State.inboxTaken_stack h k src
  exact ⟨State.setStack_canonical h _ _, by rw [hstack]; exact he, by rw [hstack], by rw [hstack]; exact hP⟩

theorem State.inboxTaken_entry {s : State} (h : s.tablesCanonical) (k src i : Nat) :
    ((s.inboxTaken k src).stack k).entry i = (s.stack k).entry i := by rw [State.inboxTaken_stack h]; rfl

theorem State.inboxTaken_findEntry {s : State} (h : s.tablesCanonical) (k src c group buffer : Nat) :
    ((s.inboxTaken k src).stack k).findEntry c group buffer = (s.stack k).findEntry c group buffer := by
  rw [State.inboxTaken_stack h]; rfl

/-- The message that arrives is taken from the inbox and decided on. -/
theorem exec_contributionReceived {s : State} {k src : Nat} {m : Inbound} (hk : k < 12) (hr : s.rhzRuns k = true)
    (hm : (s.stack k).inbox[src]? = some m) (hfirst : ∀ o ∈ (s.stack k).inbox.take src, o.sender ≠ m.sender) :
    exec (.contributionReceived k src) s = .next ((s.inboxTaken k src).redReceive k m.ctx m.bytes) := by
  have hany : ((s.stack k).inbox.take src).any (fun o => o.sender == m.sender) = false := by
    rw [List.any_eq_false]
    exact fun o ho => by simpa using hfirst o ho
  change execContributionReceived k src s = _
  simp only [execContributionReceived, hk, hr, hm, hany, not_true, if_false, Bool.not_true, Bool.false_eq_true]
  rfl

/-- Settles O25: an accepted contribution sets its rank's bit before the early close looks at the entry; a repeated one
changes no span, and one without an entry no entry. -/
theorem contributionsAreAcceptedOnce : Obligations.ContributionsAreAcceptedOnce := by
  intro s k src m h hs hk hr hm hfirst hh hwf
  have hexec := exec_contributionReceived hk hr hm hfirst
  have hfind := State.inboxTaken_findEntry hs k src m.ctx h.group h.buffer
  have htaken := fun i P => State.inboxTaken_has hs hwf src i (P := P)
  refine ⟨fun i hf hst hcyc hstep hok hspans => ?_, fun hf => ?_⟩
  · have hent := State.inboxTaken_entry hs k src i
    have hdec := State.redReceive_open (s := s.inboxTaken k src) hh (hfind.trans hf)
      (by rw [hent]; exact hst) (by rw [hent]; exact hcyc) (by rw [hent]; exact hstep) (by rw [hent]; exact hok)
    rw [hent] at hdec
    refine ⟨fun hnew htakes => ⟨_, hexec, ?_⟩, fun hold => ⟨_, hexec, ?_⟩⟩
    · have hrec : ¬(((s.stack k).entry i).replay = true ∧ (!bit (((s.stack k).entry i).takes h.span) h.rank) = true) :=
        fun hc => by simp [htakes hc.1] at hc
      rw [hdec, if_neg (by rw [hnew]; exact Bool.false_ne_true), if_neg hrec]
      have hacc := ((htaken i OpenSpans ⟨hst, hspans⟩).redAccept h (m.bytes.drop 64)).earlyClose
      exact ⟨hacc.holds.1, hacc.inbox, hacc.holds.2⟩
    · rw [hdec, if_pos hold]
      have hdis := (htaken i (fun e => e.spans = ((s.stack k).entry i).spans) rfl).redDiscard
        3 0x5006 (h.buffer + h.group * 65536) (h.rank + h.span % 2 ^ 24 * 256)
      exact ⟨RedEntry.span_of_spans hdis.holds h.span, hdis.inbox⟩
  · obtain ⟨hsame, hmark⟩ := State.redReceive_unarmed (s := s.inboxTaken k src)
      (State.setStack_canonical hs k _) hh (hfind.trans hf)
    have hstack := State.inboxTaken_stack hs k src
    refine ⟨_, hexec, (hsame.entries k).trans ?_, (hsame.inbox k).trans ?_, fun hnew => hmark ?_⟩
    · rw [hstack]
    · rw [hstack]
    · rw [hstack]; exact hnew

end Sys2Proof.Machine
end

section
/-!
Register fields of one or more words: what a field reads after a field of the same register is set (00 R4, 06 R145).
-/
namespace Sys2Proof.Machine

/-! Fields of a number. -/

/-- A number in three parts around the bits `[hi:lo]`. -/
theorem split_bits (n hi lo : Nat) :
    n = n % 2 ^ lo + 2 ^ lo * (bits n hi lo + 2 ^ (hi + 1 - lo) * (n / 2 ^ lo / 2 ^ (hi + 1 - lo))) := by
  rw [bits, Nat.shiftRight_eq_div_pow, Nat.mod_add_div, Nat.mod_add_div]

/-- Setting a field replaces its part alone. -/
theorem setBits_eq (n hi lo v : Nat) : setBits n hi lo v =
    n % 2 ^ lo + 2 ^ lo * (v % 2 ^ (hi + 1 - lo) + 2 ^ (hi + 1 - lo) * (n / 2 ^ lo / 2 ^ (hi + 1 - lo))) := by
  have h := split_bits n hi lo
  rw [setBits, Nat.mul_comm (bits n hi lo), Nat.mul_comm (v % _)]
  rw [Nat.mul_add] at h ⊢
  omega

theorem bits_setBits (n hi lo v : Nat) : bits (setBits n hi lo v) hi lo = v % 2 ^ (hi + 1 - lo) := by
  rw [bits, Nat.shiftRight_eq_div_pow, setBits_eq, Nat.add_mul_div_left _ _ (Nat.two_pow_pos lo),
    Nat.div_eq_of_lt (Nat.mod_lt _ (Nat.two_pow_pos lo)), Nat.zero_add, Nat.add_mul_mod_self_left, Nat.mod_mod]

/-- The bits below a field stay. -/
theorem setBits_mod (n hi lo v k : Nat) (h : k ≤ lo) : setBits n hi lo v % 2 ^ k = n % 2 ^ k := by
  have hd := Nat.pow_dvd_pow 2 h
  rw [setBits_eq, ← Nat.mod_mod_of_dvd _ hd, Nat.add_mul_mod_self_left, Nat.mod_mod, Nat.mod_mod_of_dvd _ hd]

theorem bits_low (n hi : Nat) : bits n hi 0 = n % 2 ^ (hi + 1) := rfl

/-! Words of a register. -/

/-- Words below a run of words keep their values when the run is set. -/
theorem State.word_setWords_below (s : State) (h : SMap.wf 0#32 s.regs = true) (pg : Page) {o off : Nat} (n v : Nat)
    (ho : o / 4 < off / 4) : (s.setWords pg off n v).word pg o = s.word pg o := by
  induction n generalizing s off v with
  | zero => rfl
  | succ n ih =>
    rw [State.setWords, ih _ (SMap.wf_set h _ _) _ (by omega)]
    exact State.word_setWord_other s h _ _ _ _ _ (regKey_ne_off (Nat.ne_of_lt ho))

/-- A run of words set from a number reads as it. -/
theorem State.words_setWords (s : State) (h : SMap.wf 0#32 s.regs = true) (pg : Page) (off n v : Nat) :
    (s.setWords pg off n v).words pg off n = v % 2 ^ (32 * n) := by
  induction n generalizing s off v with
  | zero => rw [Nat.mul_zero, Nat.pow_zero, Nat.mod_one]; rfl
  | succ n ih =>
    have h1 : SMap.wf 0#32 (s.setWord pg off (v % 2 ^ 32)).regs = true := SMap.wf_set h _ _
    rw [State.words, State.setWords, State.word_setWords_below _ h1 pg n _ (by omega), ih _ h1,
      State.word_setWord_same s h, Nat.mod_mod, show 32 * (n + 1) = 32 + 32 * n by omega, Nat.pow_add, Nat.mod_mul]

/-- The lowest word of a run. -/
theorem State.words_mod (s : State) (pg : Page) (off n : Nat) : s.words pg off (n + 1) % 2 ^ 32 = s.word pg off := by
  rw [State.words, Nat.add_mul_mod_self_left]
  exact Nat.mod_eq_of_lt (State.wordAt_lt s pg 0 off)

/-! Fields. -/

/-- The bits `[hi:lo]` of a number's low words, as many as hold bit `hi`. -/
theorem bits_mod_words (n hi lo : Nat) (h : lo ≤ hi) : bits (n % 2 ^ (32 * (hi / 32 + 1))) hi lo = bits n hi lo := by
  have hle : lo + (hi + 1 - lo) ≤ 32 * (hi / 32 + 1) := by omega
  rw [bits, bits, Nat.shiftRight_eq_div_pow, Nat.shiftRight_eq_div_pow, ← Nat.mod_mul_right_div_self,
    ← Nat.mod_mul_right_div_self, ← Nat.pow_add, Nat.mod_mod_of_dvd _ (Nat.pow_dvd_pow 2 hle)]

/-- A field reads as it was set. -/
theorem State.fld_setFld (s : State) (h : SMap.wf 0#32 s.regs = true) (pg : Page) (off hi lo v : Nat) (hl : lo ≤ hi) :
    (s.setFld pg off hi lo v).fld pg off hi lo = v % 2 ^ (hi + 1 - lo) := by
  rw [State.fld, State.setFld, State.words_setWords s h, bits_mod_words _ _ _ hl, bits_setBits]

/-- Setting a field beyond the first word keeps the first word. -/
theorem State.fld_setFld_first (s : State) (h : SMap.wf 0#32 s.regs = true) (pg : Page) (off hi lo v : Nat)
    (hl : 32 ≤ lo) : (s.setFld pg off hi lo v).fld pg off 31 0 = s.fld pg off 31 0 := by
  have hw : ∀ t : State, t.fld pg off 31 0 = t.words pg off (hi / 32 + 1) % 2 ^ 32 := fun t => by
    rw [State.fld, bits_low, State.words_mod t pg off 0, State.words_mod]
  rw [hw, hw, State.setFld, State.words_setWords s h,
    Nat.mod_mod_of_dvd _ (Nat.pow_dvd_pow 2 (by omega : 32 ≤ 32 * (hi / 32 + 1))), setBits_mod _ _ _ _ _ hl]

/-! A write of a statistics slot (R142, R145). -/

/-- A write of a slot's elem counter changes register words alone. -/
theorem State.statElemWrite_regs_only (s : State) (f slot value : Nat) :
    { s.statElemWrite f slot value with regs := s.regs } = s := by
  unfold State.statElemWrite
  dsimp only
  split
  · rw [State.setFld_regs_only, State.setFld_regs_only s]
  · rw [State.setFld_regs_only]

theorem State.statElemWrite_elem (s : State) (h : SMap.wf 0#32 s.regs = true) (f slot value : Nat) :
    (s.statElemWrite f slot value).fld (.frd f) (statOff slot) 31 0 = value % 2 ^ 32 := by
  unfold State.statElemWrite
  dsimp only
  split
  · rw [State.fld_setFld_first _ (State.setFld_wf s h _ _ _ _ _) _ _ _ _ _ (by omega), State.fld_setFld s h _ _ _ _ _ (by omega)]
  · exact State.fld_setFld s h _ _ _ _ _ (by omega)

/-- A write of 0 frees the slot. -/
theorem State.statElemWrite_zero_owner (s : State) (h : SMap.wf 0#32 s.regs = true) (f slot : Nat) :
    (s.statElemWrite f slot 0).fld (.frd f) (statOff slot) 165 160 = 0 :=
  State.fld_setFld _ (State.setFld_wf s h _ _ _ _ _) _ _ _ _ _ (by omega)

/-- Settles O21: the owner field lies in another word of the slot than the elem counter. -/
theorem statisticsSlotsAreWritten : Obligations.StatisticsSlotsAreWritten := by
  intro s r f slot value hs h1 h63 hv hadm
  have hexec : exec (.statSlotFree r f slot value) s = .next (s.statElemWrite f slot value) := by
    change execStatSlotFree r f slot value s = _
    rw [execStatSlotFree, if_neg (not_not_intro ⟨h1, h63⟩)]
    exact regWrite_admitted hadm
  refine ⟨_, hexec, ?_, ?_, s.statElemWrite_regs_only f slot value⟩
  · rw [State.statElemWrite_elem s hs.1, Nat.mod_eq_of_lt hv]
  · rintro rfl
    exact State.statElemWrite_zero_owner s hs.1 f slot

end Sys2Proof.Machine
end

section
/-!
The sequencer's move past an instruction, and the instructions that wait for engines and flags (03 R60, R61; 06 R139).
-/
namespace Sys2Proof.Machine

variable {s : State} {n op : Nat}

/-! The record of one pinna. -/

theorem State.setPinna_only (h : SMap.wf {} s.pinnae = true) (n : Nat) (p : Pinna) : OnlyPinna n s (s.setPinna n p) :=
  ⟨rfl, fun m hm => by rw [State.pinna_setPinna s h, if_neg hm]⟩

theorem State.pinna_setPinna_same (h : SMap.wf {} s.pinnae = true) (n : Nat) (p : Pinna) :
    (s.setPinna n p).pinna n = p := by rw [State.pinna_setPinna s h, if_pos rfl]

theorem State.stallAt_only (h : SMap.wf {} s.pinnae = true) (n : Nat) (w : Stall) :
    OnlyPinna n s (s.stallAt n w) ∧ (s.stallAt n w).pinna n = { s.pinna n with stall := some w } :=
  ⟨State.setPinna_only h n _, State.pinna_setPinna_same h n _⟩

/-- A move to the index of an instruction. -/
theorem State.goTo_eq (n : Nat) (ls : List LoopRec) {next : Nat} (h : next ≤ 8191) :
    s.goTo n ls next = s.setPinna n { s.pinna n with pc := next, loops := ls, stall := none } := by
  unfold State.goTo
  dsimp only
  rw [if_neg (Nat.not_lt.2 h), Nat.mod_eq_of_lt (Nat.lt_succ_of_le h)]

/-- Where the next index is an instruction, the sequencer moves there under the loops that go on. -/
theorem State.advance_eq (hf : (s.pinna n).following.2 ≤ 8191) : s.advance n = s.setPinna n
    { s.pinna n with pc := (s.pinna n).following.2, loops := (s.pinna n).following.1, stall := none } := State.goTo_eq n _ hf

theorem State.advance_moves (h : SMap.wf {} s.pinnae = true) (hf : (s.pinna n).following.2 ≤ 8191) :
    MovedOn n (s.pinna n) s (s.advance n) := by
  rw [State.advance_eq hf]
  exact ⟨State.setPinna_only h n _, State.pinna_setPinna_same h n _⟩

/-! Issue. -/

theorem CanIssue.lt (h : CanIssue s n op) : n < 768 := by
  have := h.1
  simp only [State.pinnaRuns, Bool.and_eq_true, decide_eq_true_eq] at this
  exact this.1.1.1.1

theorem CanIssue.launch (h : CanIssue s n op) : ∃ l, (s.pinna n).launch = some l := by
  have := h.1
  simp only [State.pinnaRuns, Bool.and_eq_true] at this
  exact Option.isSome_iff_exists.1 this.1.1.1.2

theorem scalarInstr_issues (h : CanIssue s n op) (eff : Nat → State) :
    scalarInstr s n op eff = .next (eff (s.pinna n).fetch) := scalarInstr_next.2 ⟨h.lt, h, rfl⟩

/-! Tickets and fences. -/

/-- A ticket of an engine that has been issued is waited for until the engine has ended as many descriptors. -/
theorem exec_dwait {e k : Nat} (h : CanIssue s n 0x21)
    (ht : ((s.pinna n).sreg (fA (s.pinna n).fetch)).toNat = e * 2 ^ 30 + k) (hk : k < 2 ^ 30) (h1 : 1 ≤ k)
    (hsub : k ≤ SMap.get 0 (s.pinna n).submitted e) :
    exec (.dwait n) s = .next (if k ≤ SMap.get 0 (s.pinna n).done e then s.advance n else s.stallAt n .ticket) := by
  change execDwait n s = _
  rw [execDwait, scalarInstr_issues h]
  have he : (e * 2 ^ 30 + k) / 2 ^ 30 = e := by omega
  have hr : (e * 2 ^ 30 + k) % 2 ^ 30 = k := by omega
  simp only [ht, he, hr]
  rw [if_neg (by omega)]

theorem exec_dfence (h : CanIssue s n 0x22) : exec (.dfence n) s = .next
    (if (List.range 4).all (fun e => SMap.get 0 (s.pinna n).submitted e == SMap.get 0 (s.pinna n).done e)
     then s.advance n else s.stallAt n .fence) := by
  change execDfence n s = _
  rw [execDfence, scalarInstr_issues h]

/-! Flags. -/

theorem exec_flagadd (h : CanIssue s n 0x23) : exec (.flagadd n) s = .next
    ((s.setWord (.frd (n / 24)) (flagOff (fImm (s.pinna n).fetch % 64))
      ((s.word (.frd (n / 24)) (flagOff (fImm (s.pinna n).fetch % 64))
        + ((s.pinna n).sreg (fA (s.pinna n).fetch)).toNat) % 2 ^ 32)).advance n) := by
  change execFlagadd n s = _
  rw [execFlagadd, scalarInstr_issues h]
  rfl

theorem exec_flagwait (h : CanIssue s n 0x24) : exec (.flagwait n) s = .next
    (if ((s.pinna n).sreg (fA (s.pinna n).fetch)).toNat ≤ s.word (.frd (n / 24)) (flagOff (fImm (s.pinna n).fetch % 64))
     then s.advance n else s.flagStall n) := by
  change execFlagwait n s = _
  rw [execFlagwait, scalarInstr_issues h]
  simp only [State.flagReached, decide_eq_true_iff]
  rfl

/-- A pinna waits for a flag since the moment at which it first stalled. -/
theorem State.flagStall_only (h : SMap.wf {} s.pinnae = true) (n : Nat) :
    OnlyPinna n s (s.flagStall n) ∧ (s.flagStall n).pinna n = { s.pinna n with
      stall := some .flag, waitedFrom := if (s.pinna n).stall = some .flag then (s.pinna n).waitedFrom else s.ticks } := by
  unfold State.flagStall
  dsimp only
  split
  · rename_i hst
    refine ⟨⟨rfl, fun _ _ => rfl⟩, ?_⟩
    rw [← hst]
  · exact ⟨State.setPinna_only h n _, State.pinna_setPinna_same h n _⟩

/-! Submission of a descriptor. -/

/-- An entry other than the default reads back in any table, canonical or not. -/
theorem SMap.get_set_nondefault {α : Type} [DecidableEq α] {d v : α} (m : SMap α) (k : Nat) (hv : v ≠ d) :
    SMap.get d (SMap.set d m k v) k = v := by
  induction m with
  | nil => simp [SMap.set, SMap.get, hv]
  | cons x m ih =>
    obtain ⟨j, w⟩ := x
    unfold SMap.set
    rw [if_neg hv, if_neg hv]
    split
    · simp [SMap.get]
    · split
      · simp [SMap.get]
      · rename_i hlt hne
        simp [SMap.get, hlt, hne, ih]

theorem Frond.engine_setEngine_queued (f : Frond) (e : Nat) (g : Engine) (hq : g.queue ≠ []) :
    (f.setEngine e g).engine e = g :=
  SMap.get_set_nondefault _ _ fun h => hq (by rw [h])

/-- The descriptor that the `DSUB` at the program counter submits, of ticket `t`. -/
def State.dsubDesc (s : State) (n : Nat) (l : Launch) (t : Nat) : QDesc :=
  { bytes := Mem.read (s.pinna n).spad ((s.pinna n).wordAddr (s.pinna n).fetch) 64,
    addr := (s.pinna n).wordAddr (s.pinna n).fetch, submitter := .pinna n l.job t (s.pinna n).pc, ctx := l.ctx,
    seed := l.seed, proth := l.proth, sealArg := none }

/-- The ticket of pinna `n`'s next descriptor at engine `e` (R139). -/
def Pinna.nextTicket (p : Pinna) (e : Nat) : Nat := e * 2 ^ 30 + (SMap.get 0 p.submitted e + 1) % 2 ^ 30

/-- Engine `e` of pinna `n`'s frond takes a descriptor at the end of its queue, and the ticket goes to s[d]. -/
def State.submitted (s : State) (n e : Nat) (d : QDesc) : State :=
  let g := (s.frond (n / 24)).engine e
  (s.setFrond (n / 24) ((s.frond (n / 24)).setEngine e { g with queue := g.queue ++ [d] })).setPinna n
    { (s.pinna n).setS (fD (s.pinna n).fetch) (BitVec.ofNat 32 ((s.pinna n).nextTicket e)) with
      submitted := SMap.set 0 (s.pinna n).submitted e (SMap.get 0 (s.pinna n).submitted e + 1) }

theorem exec_dsub {l : Launch} (h : CanIssue s n 0x20) (hl : (s.pinna n).launch = some l) (hq : (s.pinna n).queue = [])
    (hsub : fSub (s.pinna n).fetch < 4) (hA : fA (s.pinna n).fetch < 16)
    (hal : (s.pinna n).wordAddr (s.pinna n).fetch % 64 = 0)
    (hsz : (s.pinna n).wordAddr (s.pinna n).fetch + 64 ≤ 786432) :
    exec (.dsub n) s = .next
      (if 32 ≤ ((s.frond (n / 24)).engine (fSub (s.pinna n).fetch)).queue.length then s.stallAt n .queue
       else (s.submitted n (fSub (s.pinna n).fetch)
         (s.dsubDesc n l ((s.pinna n).nextTicket (fSub (s.pinna n).fetch)))).advance n) := by
  have hrun : s.pinnaRuns n = true := h.1
  have hop : fOp (s.pinna n).fetch = 0x20 := h.2.1
  have hmod : fSub (s.pinna n).fetch % 4 = fSub (s.pinna n).fetch := Nat.mod_eq_of_lt hsub
  change execDsub n s = _
  unfold execDsub
  simp only [h.lt, hrun, hop, hq, hl, not_true, if_false, Bool.not_true, Bool.false_eq_true, List.isEmpty_nil, ne_eq]
  unfold State.dsub
  dsimp only
  rw [if_neg (by omega), if_neg (by unfold spadSize; omega), hmod]
  rfl

end Sys2Proof.Machine
end

section
/-!
The stop of a program by a refusal, which comes after the writes of the vector instruction in the engine: what it leaves of
the pinna, and that no class that was pending on the pinna's page is lost (03 R86, R89; 05 R117; 15 R394).
-/
namespace Sys2Proof.Machine

/-! Classes that stay pending. -/

/-- In a state with canonical tables, bit `i` of the pending events of page `pg` is set (R394). -/
def Pends (pg : Page) (i : Nat) (s : State) : Prop := s.tablesCanonical ∧ bit (s.word pg 0x010) i = true

/-- A mark of a copy keeps the bits set before. -/
theorem State.markCopy_bits (s : State) (pg : Page) (code : Nat) (c : Nat × Nat × Nat) : ∃ v : Nat,
    (∀ i, (s.wordAt pg c.1 0x010).testBit i = true → v.testBit i = true) ∧
      ((s.markCopy pg code c).regs = (s.setWordAt pg c.1 0x010 v).regs
        ∨ (s.markCopy pg code c).regs = ((s.setWordAt pg c.1 0x010 v).setWordAt pg c.1 0x018 code).regs) := by
  refine ⟨s.wordAt pg c.1 0x010 ||| 2 ^ eventClass code
    ||| if securityAlarm code || plainAlarm code then 2 ^ 16 else 0, fun i hi => by simp [Nat.testBit_or, hi], ?_⟩
  unfold State.markCopy
  dsimp only
  by_cases h0 : s.wordAt pg c.1 0x010 = 0
  · right; rw [if_pos h0]; exact State.regs_ite (State.pageMessage_regs _ _ _ _ _) rfl
  · left; rw [if_neg h0]; exact State.regs_ite (State.pageMessage_regs _ _ _ _ _) rfl

namespace Pends
variable {pg : Page} {i : Nat} {s : State}

/-- A state whose registers and tables agree where it matters. -/
theorem of_word {t : State} (h : Pends pg i s) (ht : t.tablesCanonical) (hw : t.word pg 0x010 = s.word pg 0x010) :
    Pends pg i t := ⟨ht, by rw [hw]; exact h.2⟩

theorem setPinna (h : Pends pg i s) (n : Nat) (p : Pinna) : Pends pg i (s.setPinna n p) :=
  h.of_word (State.setPinna_canonical h.1 n p) rfl

theorem updJob (h : Pends pg i s) (c id : Nat) (f : Job → Job) : Pends pg i (s.updJob c id f) :=
  h.of_word (State.setCtx_canonical h.1 _ _) rfl

theorem setWord (h : Pends pg i s) (q : Page) (off v : Nat) (hk : regKey pg 0 0x010 ≠ regKey q 0 off) :
    Pends pg i (s.setWord q off v) :=
  h.of_word (State.setWord_canonical h.1 q off v) (State.word_setWord_other s h.1.1 q pg off 0x010 v hk)

theorem setWords (h : Pends pg i s) (q : Page) (off n v : Nat)
    (hk : ∀ j < n, regKey pg 0 0x010 ≠ regKey q 0 (off + 4 * j)) : Pends pg i (s.setWords q off n v) := by
  induction n generalizing s off v with
  | zero => exact h
  | succ n ih =>
    refine ih (h.setWord q off _ (hk 0 (Nat.succ_pos n))) _ _ fun j hj => ?_
    rw [show off + 4 + 4 * j = off + 4 * (j + 1) by omega]
    exact hk (j + 1) (Nat.succ_lt_succ hj)

theorem markCopy (h : Pends pg i s) (code : Nat) (c : Nat × Nat × Nat) : Pends pg i (s.markCopy pg code c) := by
  obtain ⟨v, hv, hr⟩ := s.markCopy_bits pg code c
  have h1 : Pends pg i (s.setWordAt pg c.1 0x010 v) := by
    refine ⟨State.setWordAt_canonical h.1 _ _ _ _, ?_⟩
    by_cases hz : c.1 = 0
    · have hi : i < 32 := Nat.lt_of_not_le fun hle => by
        have hlt := Nat.lt_of_lt_of_le (State.wordAt_lt s pg 0 0x010) (Nat.pow_le_pow_right Nat.two_pos hle)
        have hb : (s.wordAt pg 0 0x010).testBit i = true := h.2
        rw [Nat.testBit_lt_two_pow hlt] at hb
        exact Bool.false_ne_true hb
      have hb : v.testBit i = true := hv i (by rw [hz]; exact h.2)
      rw [hz, State.word, State.wordAt_setWordAt_same s h.1.1, bit, Nat.testBit_mod_two_pow]
      simp [hi, hb]
    · have hk : regKey pg 0 0x010 ≠ regKey pg c.1 0x010 := by unfold regKey; omega
      rw [State.word, State.wordAt_setWordAt_other s h.1.1 _ _ _ _ _ _ _ hk]
      exact h.2
  have hc := State.markCopy_canonical h.1 pg code c
  rcases hr with hr | hr
  · exact h1.of_word hc (State.wordAt_of_regs hr _ _ _)
  · have hk : regKey pg 0 0x010 ≠ regKey pg c.1 0x018 := by unfold regKey; omega
    exact h1.of_word hc ((State.wordAt_of_regs hr _ _ _).trans
      (State.wordAt_setWordAt_other _ h1.1.1 _ _ _ _ _ _ _ hk))

/-- An event of the page adds its class to those that are pending. -/
theorem raise (h : Pends pg i s) (code a b : Nat) : Pends pg i (s.raise pg code a b) := by
  have hm : Pends pg i ((pg.copies s).foldl (fun s c => s.markCopy pg code c) s) :=
    List.foldlRecOn _ _ h fun u hu c _ => hu.markCopy code c
  refine hm.of_word (State.raise_canonical h.1 _ _ _ _) ?_
  unfold State.raise
  dsimp only
  generalize (pg.copies s).foldl (fun s c => s.markCopy pg code c) s = t at hm ⊢
  have hn := t.countEvent_word hm.1.1 pg
  generalize t.countEvent pg = u at hn ⊢
  obtain ⟨l, hl | hl⟩ := u.logEvent_eq pg code a b (s.evtFate pg != 0)
  · rw [hl]; exact hn.2
  · have hk : regKey pg 0 0x010 ≠ regKey .mgt 0 regLogLost := by simp only [regKey, regLogLost]; omega
    rw [hl]
    exact (State.word_setWord_other ({ u with log := l }) hn.1 .mgt pg regLogLost 0x010 _ hk).trans hn.2

end Pends

/-! The vector instruction in the engine (R117). -/

/-- The format fields of an instruction have four bits (R101). -/
theorem vFields_fmt_lt (w : Nat) : (vFields w).fmt < 16 ∧ (vFields w).fmt2 < 16 :=
  ⟨Nat.mod_lt _ (by decide), Nat.mod_lt _ (by decide)⟩

theorem VFields.outFmt_lt {f : VFields} (h : f.fmt < 16 ∧ f.fmt2 < 16) : f.outFmt < 16 := by
  unfold VFields.outFmt
  split
  · exact h.2
  · split
    · decide
    · exact h.1

theorem vElementwise_ledgerFmt {f : VFields} (h : f.fmt < 16 ∧ f.fmt2 < 16) (q : QEntry) (p : Pinna) (l : Launch) :
    (vElementwise f q p l).ledgerFmt < 16 := by
  have hout : (if f.op == 0x8E then f.fmt2 else f.outFmt) < 16 := by
    split
    · exact h.2
    · exact VFields.outFmt_lt h
  unfold vElementwise
  dsimp only
  exact List.foldlRecOn (motive := fun r : VResult => r.ledgerFmt < 16) _ _ (by decide) fun r _ k _ => hout

theorem vWriteSum_ledgerFmt {f : VFields} (h : f.fmt2 < 16) (r : VResult) (vs : List Val) (proth : Bool) (rnd : Rnd)
    (idx : Nat) : (vWriteSum r f vs proth rnd idx).ledgerFmt < 16 := by
  unfold vWriteSum
  dsimp only
  generalize (if proth then _ else _ : WSum) = w
  split
  · exact h
  · split
    · exact (by decide : 0xB < 16)
    · exact h

theorem vReduction_ledgerFmt {f : VFields} (h : f.fmt < 16 ∧ f.fmt2 < 16) (q : QEntry) (p : Pinna) (l : Launch) :
    (vReduction f q p l).ledgerFmt < 16 := by
  unfold vReduction
  dsimp only
  split
  · exact h.1
  · split
    · split
      · decide
      · exact vWriteSum_ledgerFmt h.2 _ _ _ _ _
    · exact vWriteSum_ledgerFmt h.2 _ _ _ _ _

namespace Pends
variable {n i : Nat} {s : State}

theorem bumpVecDone (h : Pends (.pna n) i s) : Pends (.pna n) i (s.bump (pnaPage n) Reg.PNA_VEC_DONE) :=
  h.setWord _ _ _ (regKey_ne_off (by decide))

/-- The words of a ledger entry of a code of four bits are no header words of a pinna's page. -/
theorem ledgerAdd (h : Pends (.pna n) i s) (c : Nat) {f : Nat} (hf : f < 16) (w : Wrote) :
    Pends (.pna n) i (s.ledgerAdd c f w) := by
  have hadd : ∀ (u : State) (k m : Nat), k ≤ 3 → Pends (.pna n) i u → Pends (.pna n) i
      (if m = 0 then u else u.setFld (.ledger (c / 8)) (Reg.PRT_LEDGER + 0x1A0 * (c % 8) + 0x20 * f + 8 * k) 63 0
        (min (u.fld (.ledger (c / 8)) (Reg.PRT_LEDGER + 0x1A0 * (c % 8) + 0x20 * f + 8 * k) 63 0 + m)
          0xFFFFFFFFFFFFFFFF)) := by
    intro u k m hk hu
    split
    · exact hu
    · refine hu.setWords _ _ _ _ fun j hj => ?_
      have hoff : Reg.PRT_LEDGER + 0x1A0 * (c % 8) + 0x20 * f + 8 * k + 4 * j < 4096 := by
        have : j < 2 := hj
        unfold Reg.PRT_LEDGER
        omega
      have hlow : 0x100 ≤ Reg.PRT_LEDGER + 0x1A0 * (c % 8) + 0x20 * f + 8 * k + 4 * j := by
        unfold Reg.PRT_LEDGER
        omega
      generalize Reg.PRT_LEDGER + 0x1A0 * (c % 8) + 0x20 * f + 8 * k + 4 * j = o at hoff hlow
      simp only [regKey, Page.id]
      omega
  unfold State.ledgerAdd
  exact hadd _ 3 _ (by decide) (hadd _ 2 _ (by decide) (hadd _ 1 _ (by decide) (hadd _ 0 _ (by decide) h)))

theorem pinnaTally (h : Pends (.pna n) i s) (t : Tally) : Pends (.pna n) i (s.pinnaTally n t) := by
  unfold State.pinnaTally
  exact List.foldlRecOn _ _ (h.setPinna n _) fun u hu e _ => hu.raise _ _ _

theorem vecWrite (h : Pends (.pna n) i s) (q : QEntry) (l : Launch) : Pends (.pna n) i (s.vecWrite n q l).1 := by
  have hf := vFields_fmt_lt q.word.toNat
  unfold State.vecWrite
  dsimp only
  generalize vFields q.word.toNat = f at hf ⊢
  split
  · exact h.bumpVecDone
  · split
    · exact (h.setPinna n _).bumpVecDone
    · split
      · exact (h.setPinna n _).bumpVecDone
      · split
        · exact (h.setPinna n _).bumpVecDone
        · refine ((((h.setPinna n _).pinnaTally _).ledgerAdd _ ?_ _)).bumpVecDone
          split
          · exact vReduction_ledgerFmt hf q _ l
          · exact vElementwise_ledgerFmt hf q _ l

theorem finishVec (h : Pends (.pna n) i s) : Pends (.pna n) i (s.finishVec n) := by
  unfold State.finishVec
  split
  · exact h.vecWrite _ _
  · exact h

/-! The end of a program. -/

theorem openAtHalt (h : Pends (.pna n) i s) (idx : Nat) : Pends (.pna n) i (s.openAtHalt n idx) := by
  refine List.foldlRecOn _ _ h fun u hu g _ => ?_
  split
  · exact hu.raise _ _ _
  · exact hu.raise _ _ _
  · exact hu

theorem pinnaReport (h : Pends (.pna n) i s) (stop : Option (Nat × Nat × Nat)) :
    Pends (.pna n) i (s.pinnaReport n stop) := by
  unfold State.pinnaReport
  split
  · exact h
  · exact h.updJob _ _ _

end Pends

theorem State.openAtHalt_pinnae (s : State) (n idx : Nat) : (s.openAtHalt n idx).pinnae = s.pinnae := by
  refine List.foldlRecOn (motive := fun u : State => u.pinnae = s.pinnae) _ _ rfl fun u hu g _ => ?_
  split
  · exact (State.raise_pinnae _ _ _ _ _).trans hu
  · exact (State.raise_pinnae _ _ _ _ _).trans hu
  · exact hu

theorem State.pinnaReport_pinnae (s : State) (n : Nat) (stop : Option (Nat × Nat × Nat)) :
    (s.pinnaReport n stop).pinnae = s.pinnae := by
  unfold State.pinnaReport
  split <;> rfl

/-- A refusal whose event is pending stops the program. -/
theorem State.stopPinna_stops {s : State} {n code : Nat} (h : Pends (.pna n) (code / 4096) s) (idx : Nat)
    (evt : Nat × Nat) : StoppedWith n code idx (s.stopPinna n code idx evt) := by
  unfold State.stopPinna State.endPinna
  dsimp only
  have hv := h.finishVec
  generalize s.finishVec n = u at hv ⊢
  have h1 := hv.setPinna n { u.pinna n with faultPc := idx, faultCode := code }
  have h2 := (h1.openAtHalt idx).pinnaReport (some (code, evt.1, evt.2))
  have hp := (State.pinnaReport_pinnae _ n (some (code, evt.1, evt.2))).trans
    (State.openAtHalt_pinnae (u.setPinna n { u.pinna n with faultPc := idx, faultCode := code }) n idx)
  generalize ((u.setPinna n _).openAtHalt n idx).pinnaReport n _ = t at h2 hp ⊢
  have hrec : t.pinna n = { u.pinna n with faultPc := idx, faultCode := code } := by
    unfold State.pinna
    rw [hp]
    exact SMap.get_set_same hv.1.2.1 n _
  have hlast : (t.setPinna n ((t.pinna n).quit .stopped)).pinna n = (t.pinna n).quit .stopped :=
    SMap.get_set_same h2.1.2.1 n _
  unfold StoppedWith
  rw [hlast, hrec]
  exact ⟨rfl, rfl, rfl, rfl, rfl, rfl, h2.2⟩

end Sys2Proof.Machine
end

section
/-!
DWAIT, DFENCE, FLAGADD, FLAGWAIT and DSUB pass or stall, and FLAG_TIMEOUT stops the program (06 R139, R146).
-/
namespace Sys2Proof.Machine

variable {s : State} {n : Nat}

/-- The limit of a FLAGWAIT: a program that waits below its value is stopped once the limit, not 0, has passed. -/
theorem exec_flagTimeout (h : CanIssue s n 0x24) (hst : (s.pinna n).stall = some .flag)
    (hlow : s.word (.frd (n / 24)) (flagOff (fImm (s.pinna n).fetch % 64)) < ((s.pinna n).sreg (fA (s.pinna n).fetch)).toNat) :
    exec (.flagTimeout n) s =
      if s.treeLimit n = 0 then notEnabled "the limit is disabled"
      else if s.ticks < (s.pinna n).waitedFrom + s.treeLimit n then notEnabled "the limit has not passed"
      else .next ((s.raise (.pna n) 0x200C (s.pinna n).pc 0).stopPinna n 0x200C (s.pinna n).pc ((s.pinna n).pc, 0)) := by
  have hrun : s.pinnaRuns n = true := h.1
  have hop : fOp (s.pinna n).fetch = 0x24 := h.2.1
  have hreach : s.flagReached n (s.pinna n).fetch = false := decide_eq_false (Nat.not_le.2 hlow)
  change execFlagTimeout n s = _
  unfold execFlagTimeout
  simp only [h.lt, hrun, hst, hop, hreach, not_true, if_false, Bool.not_true, Bool.false_eq_true, beq_self_eq_true,
    Bool.and_self]
  rfl

/-- The pinna that submits a descriptor goes on with its ticket in s[d], and its frond's engine holds the descriptor. -/
theorem State.submitted_advance (hs : s.tablesCanonical) (hS : SMap.wf 0#32 (s.pinna n).sregs = true) {e : Nat} {d : QDesc}
    (hf : (s.pinna n).following.2 ≤ 8191) :
    (((s.submitted n e d).advance n).pinna n).sreg (fD (s.pinna n).fetch) = BitVec.ofNat 32 ((s.pinna n).nextTicket e)
      ∧ (((s.submitted n e d).advance n).frond (n / 24)).engine e =
          { (s.frond (n / 24)).engine e with queue := ((s.frond (n / 24)).engine e).queue ++ [d] }
      ∧ (((s.submitted n e d).advance n).pinna n).pc = (s.pinna n).following.2
      ∧ { (s.submitted n e d).advance n with pinnae := s.pinnae, fronds := s.fronds } = s := by
  have hp : (s.submitted n e d).pinna n = { (s.pinna n).setS (fD (s.pinna n).fetch)
      (BitVec.ofNat 32 ((s.pinna n).nextTicket e)) with
        submitted := SMap.set 0 (s.pinna n).submitted e (SMap.get 0 (s.pinna n).submitted e + 1) } :=
    State.pinna_setPinna_same (s := s.setFrond _ _) hs.2.1 n _
  have hfol : ((s.submitted n e d).pinna n).following = (s.pinna n).following := by rw [hp]; rfl
  have hw : SMap.wf {} (s.submitted n e d).pinnae = true := SMap.wf_set hs.2.1 _ _
  rw [State.advance_eq (by rw [hfol]; exact hf), State.pinna_setPinna_same hw, hfol, hp]
  refine ⟨SMap.get_set_same hS _ _, ?_, rfl, rfl⟩
  have hfr : (s.submitted n e d).frond (n / 24) = (s.frond (n / 24)).setEngine e
      { (s.frond (n / 24)).engine e with queue := ((s.frond (n / 24)).engine e).queue ++ [d] } :=
    SMap.get_set_same hs.2.2.1 _ _
  rw [State.setPinna_frond, hfr]
  exact Frond.engine_setEngine_queued _ _ _ (List.append_ne_nil_of_right_ne_nil _ (List.cons_ne_nil _ _))

/-- Settles O4: each instruction is one choice between the move past it and the stall, and a FLAG_TIMEOUT raises its event
before it stops the program. -/
theorem synchronisationInstructionsPassOrStall : Obligations.SynchronisationInstructionsPassOrStall := by
  intro s n hs hf
  have hmove := State.advance_moves hs.2.1 hf
  have hstall := State.stallAt_only hs.2.1 n
  refine ⟨fun h e k ⟨ht, hk, h1, hsub⟩ => ?_, fun h => ?_, fun h => ?_, fun h => ?_,
    fun h hq hS hsub hA hal hsz => ?_, fun h hst hlow => ?_⟩
  · have hx := exec_dwait h ht hk h1 hsub
    refine ⟨fun hd => ⟨_, hx.trans (by rw [if_pos hd]), hmove⟩, fun hd => ⟨_, hx.trans (by rw [if_neg (by omega)]), hstall _⟩⟩
  · have hx := exec_dfence h
    refine ⟨fun hd => ⟨_, hx.trans ?_, hmove⟩, fun hd => ⟨_, hx.trans ?_, hstall _⟩⟩
    · rw [if_pos (by simpa using hd)]
    · obtain ⟨e, he, hne⟩ := hd
      rw [if_neg fun hall => hne (by simpa using List.all_eq_true.1 hall e (List.mem_range.2 he))]
  · refine ⟨_, exec_flagadd h, ?_⟩
    generalize hu : s.setWord _ _ _ = u
    have hadv : u.advance n = _ := State.advance_eq (by rw [← hu]; exact hf)
    have hregs : { s with regs := (u.advance n).regs } = u := by rw [hadv, ← hu]; rfl
    refine ⟨?_, ?_⟩
    · rw [hadv, State.setPinna_word, ← hu, State.word_setWord_same s hs.1, Nat.mod_mod]
    · rw [hregs]
      have hm := State.advance_moves (s := u) (n := n) (by rw [← hu]; exact hs.2.1) (by rw [← hu]; exact hf)
      rwa [show u.pinna n = s.pinna n by rw [← hu]; rfl] at hm
  · have hx := exec_flagwait h
    exact ⟨fun hr => ⟨_, hx.trans (by rw [if_pos hr]), hmove⟩,
      fun hr => ⟨_, hx.trans (by rw [if_neg (Nat.not_le.2 hr)]), State.flagStall_only hs.2.1 n⟩⟩
  · obtain ⟨l, hl⟩ := h.launch
    have hx := exec_dsub h hl hq hsub hA hal hsz
    refine ⟨fun hfull => ⟨_, hx.trans (by rw [if_pos hfull]), hstall _⟩,
      fun hroom => ⟨_, hx.trans (by rw [if_neg (Nat.not_le.2 hroom)]), ?_⟩⟩
    obtain ⟨hreg, heng, hpc, hrest⟩ := State.submitted_advance hs hS (e := fSub (s.pinna n).fetch)
      (d := s.dsubDesc n l ((s.pinna n).nextTicket (fSub (s.pinna n).fetch))) hf
    exact ⟨hreg, ⟨_, rfl, heng⟩, hpc, hrest⟩
  · have hx := exec_flagTimeout h hst hlow
    have hlim : s.treeLimit n = 128 * s.fld (.pna n) Reg.PNA_TREE_TIMEOUT 23 0 := rfl
    refine ⟨fun hne hpast => ⟨_, hx.trans (by rw [if_neg (by omega), if_neg (by omega)]), ?_⟩, fun hnot => ?_⟩
    · exact State.stopPinna_stops ⟨State.raise_canonical hs _ _ _ _, State.raise_marks s hs.1 (.pna n) 0x200C _ _ (by decide)⟩ _ _
    · rcases hnot with hz | hsoon
      · exact ⟨_, hx.trans (if_pos (by omega))⟩
      · by_cases hz : s.treeLimit n = 0
        · exact ⟨_, hx.trans (if_pos hz)⟩
        · exact ⟨_, hx.trans (by rw [if_neg hz, if_pos (by omega)]; rfl)⟩

end Sys2Proof.Machine
end

section
/-!
Two statements about descriptors that fail on a concrete state: the failure of a descriptor lets a vector instruction
finish its writes (05 R117, 06 R140), and an engine table in no canonical form has a second record of the engine.
-/
namespace Sys2Proof.Machine

/-- What `f` sees of the state that an outcome answers. -/
def seenAfter {α : Type} (f : State → α) : Host.Outcome State Fault Refusal → Option α
  | .next t => some (f t)
  | _ => none

theorem seenAfter_next {α : Type} {f : State → α} {o : Host.Outcome State Fault Refusal} {t : State} {v : α}
    (ho : o = .next t) (h : seenAfter f o = some v) : f t = v := by
  subst ho
  exact Option.some.inj h

/-- Engine 0 of frond 0. -/
def engineZero : EngineId := .frond 0 0

/-! A failing descriptor of a pinna whose vector engine is at work. -/

/-- A descriptor of 64 zero bytes, which has no dimension (R126), submitted by pinna 0 for command 0 of context 0. -/
def zeroDesc : QDesc :=
  { bytes := List.replicate 64 0#8, addr := 0, submitter := .pinna 0 0 1 0, ctx := 0, seed := 0#64, proth := false,
    sealArg := none }

/-- A `VMST` of the first 8 bits of m0, which are ones, to byte 0 of the scratchpad (R112). -/
def storeOnes : QEntry := { word := BitVec.ofNat 64 (0x96 * 2 ^ 56 + 8 * 2 ^ 23), ext := 0#64, pc := 1, sregs := [], aregs := [] }

/-- Pinna 0 has submitted the zero descriptor, which stands at the head of its engine, and has then issued the `VMST`. -/
def storeBehindZeroDesc : State :=
  { State.reset with
    pinnae := [(0, { seq := .running, halted := false, launch := some ⟨0, 0, 0#64, false⟩, submitted := [(0, 1)], pc := 2,
                     queue := [storeOnes] })]
    fronds := [(0, { engines := [(0, { queue := [zeroDesc] })] })] }

theorem storeBehindZeroDesc_check :
    ((storeBehindZeroDesc.setEngine engineZero { queue := [], running := some zeroDesc }).feed engineZero).descCheck
      engineZero zeroDesc (Desc.ofBytes zeroDesc.bytes) 0 = 0x2003 := by decide +kernel

theorem storeBehindZeroDesc_start :
    seenAfter (fun t => (t.pinna 0).spad.byte 0) (exec (.dmaDescriptorStart engineZero) storeBehindZeroDesc) = some 0xFF#8 := by
  decide +kernel

/-- Refutes O19: the descriptor's failure stops the pinna that submitted it, and the vector instruction in that pinna's
engine completes its writes first (R117), so that byte 0 of the scratchpad turns from 0 to 0xFF. -/
theorem not_descriptorsStartInQueueOrder : ¬ Obligations.DescriptorsStartInQueueOrder := by
  intro h
  obtain ⟨-, hfail⟩ := h storeBehindZeroDesc engineZero zeroDesc [] _ (by decide) rfl rfl rfl rfl rfl rfl
  obtain ⟨t, ht, -, -, -, hspad, -⟩ := hfail 0x2003 storeBehindZeroDesc_check (by decide)
  have hbyte : (t.pinna 0).spad.byte 0 = 0xFF#8 := seenAfter_next ht storeBehindZeroDesc_start
  rw [hspad 0] at hbyte
  exact absurd hbyte (by decide)

/-! An engine that its frond's record lists twice. -/

/-- A descriptor of one FP32 element copied from 0 to 4,096 of a frond's memory (R126). -/
def copyOne : QDesc :=
  { bytes := leBytes 64 (3 * 2 ^ 44 + 4096 * 2 ^ 48 + 3 * 2 ^ 92 + 2 ^ 143 + 2 ^ 250), addr := 0, submitter := .job 0 0, ctx := 0,
    seed := 0#64, proth := false, sealArg := none }

/-- Engine 0 of frond 0 runs the copy, and the table of the frond's engines, of which `tablesCanonical` says nothing, holds
a second record of it. -/
def engineListedTwice : State :=
  { State.reset with
    fronds := [(0, { engines := [(0, { running := some copyOne }), (0, { running := some copyOne })] })] }

theorem engineListedTwice_complete :
    seenAfter (fun t => (t.engineHalted engineZero, (t.engine engineZero).running))
      (exec (.dmaDescriptorComplete engineZero) engineListedTwice) = some (false, some copyOne) := by
  decide +kernel

/-- Refutes O20: the statement asks for no canonical form of the tables inside a frond's record, and where one lists the
engine twice, the end of the descriptor takes out the first record alone, behind which the engine still runs one. -/
theorem not_runningDescriptorsEnd : ¬ Obligations.RunningDescriptorsEnd := by
  intro h
  obtain ⟨hcomplete, -⟩ := h engineListedTwice engineZero copyOne 0 0 (by decide) ⟨rfl, rfl, rfl⟩
  obtain ⟨t, ht, hidle⟩ := hcomplete rfl rfl (fun _ hx => nomatch hx)
  have hseen : (t.engineHalted engineZero, (t.engine engineZero).running) = (false, some copyOne) :=
    seenAfter_next ht engineListedTwice_complete
  obtain ⟨hhalt, hrun⟩ := Prod.mk.inj hseen
  exact absurd (hrun.symm.trans (hidle hhalt)) (by decide)

end Sys2Proof.Machine
end

section
/-!
Register fields bit by bit: fields of one register that do not meet, and the words that the report of an event leaves
(00 R4, 15 R394).
-/
namespace Sys2Proof.Machine

/-! Bits of a number. -/

theorem testBit_bits (n hi lo i : Nat) : (bits n hi lo).testBit i = (decide (i < hi + 1 - lo) && n.testBit (lo + i)) := by
  rw [bits, Nat.testBit_mod_two_pow, Nat.testBit_shiftRight]

/-- A set field shows its value's bits, and every other bit stays. -/
theorem testBit_setBits {n hi lo v : Nat} (hl : lo ≤ hi) (i : Nat) :
    (setBits n hi lo v).testBit i = if lo ≤ i ∧ i ≤ hi then v.testBit (i - lo) else n.testBit i := by
  have hlow := Nat.mod_lt n (Nat.two_pow_pos lo)
  have hmid := Nat.mod_lt v (Nat.two_pow_pos (hi + 1 - lo))
  rw [setBits_eq, Nat.add_comm (n % 2 ^ lo), Nat.testBit_two_pow_mul_add _ hlow]
  by_cases hbelow : i < lo
  · rw [if_pos hbelow, if_neg (by omega), Nat.testBit_mod_two_pow, decide_eq_true hbelow, Bool.true_and]
  · rw [if_neg hbelow, Nat.add_comm (v % _), Nat.testBit_two_pow_mul_add _ hmid]
    by_cases hin : i ≤ hi
    · rw [if_pos (by omega), if_pos ⟨Nat.le_of_not_lt hbelow, hin⟩, Nat.testBit_mod_two_pow,
        decide_eq_true (by omega), Bool.true_and]
    · rw [if_neg (by omega), if_neg (fun h => hin h.2), Nat.testBit_div_two_pow, Nat.testBit_div_two_pow]
      congr 1
      omega

/-! Bits of a register. -/

/-- Bit `i` of the register of one or more words at byte offset `off` (00 R4). -/
def State.regBit (s : State) (pg : Page) (off i : Nat) : Bool := (s.word pg (off + 4 * (i / 32))).testBit (i % 32)

theorem State.testBit_words (s : State) (pg : Page) (off n i : Nat) :
    (s.words pg off n).testBit i = (decide (i < 32 * n) && s.regBit pg off i) := by
  induction n generalizing off i with
  | zero => exact Nat.zero_testBit i
  | succ n ih =>
    have hword : s.word pg off < 2 ^ 32 := State.wordAt_lt s pg 0 off
    rw [State.words, Nat.add_comm, Nat.testBit_two_pow_mul_add _ hword]
    by_cases hi : i < 32
    · rw [if_pos hi, decide_eq_true (by omega), Bool.true_and, State.regBit, Nat.div_eq_of_lt hi, Nat.mod_eq_of_lt hi]
      rfl
    · have hoff : off + 4 + 4 * ((i - 32) / 32) = off + 4 * (i / 32) := by omega
      rw [if_neg hi, ih, State.regBit, State.regBit, hoff, ← Nat.mod_eq_sub_mod (Nat.le_of_not_lt hi)]
      congr 2
      simp only [eq_iff_iff]
      omega

theorem State.testBit_fld (s : State) (pg : Page) (off hi lo i : Nat) :
    (s.fld pg off hi lo).testBit i = (decide (i < hi + 1 - lo) && s.regBit pg off (lo + i)) := by
  rw [State.fld, testBit_bits, State.testBit_words]
  by_cases hi' : i < hi + 1 - lo
  · rw [decide_eq_true (by omega : lo + i < 32 * (hi / 32 + 1)), Bool.true_and]
  · rw [decide_eq_false hi', Bool.false_and, Bool.false_and]

/-- Words above a run of words keep their values when the run is set. -/
theorem State.word_setWords_above (s : State) (h : SMap.wf 0#32 s.regs = true) (pg : Page) (off : Nat) {n j : Nat} (v : Nat)
    (hj : n ≤ j) : (s.setWords pg off n v).word pg (off + 4 * j) = s.word pg (off + 4 * j) := by
  induction n generalizing s off v j with
  | zero => rfl
  | succ n ih =>
    obtain ⟨j, rfl⟩ : ∃ k, j = k + 1 := ⟨j - 1, by omega⟩
    rw [State.setWords, show off + 4 * (j + 1) = off + 4 + 4 * j by omega, ih _ (SMap.wf_set h _ _) _ _ (by omega)]
    exact State.word_setWord_other s h _ _ _ _ _ (regKey_ne_off (by omega))

/-- Setting a field of a register sets the bits of the field alone. -/
theorem State.regBit_setFld (s : State) (h : SMap.wf 0#32 s.regs = true) (pg : Page) (off : Nat) {hi lo : Nat} (v : Nat)
    (hl : lo ≤ hi) (i : Nat) : (s.setFld pg off hi lo v).regBit pg off i =
      if lo ≤ i ∧ i ≤ hi then v.testBit (i - lo) else s.regBit pg off i := by
  by_cases hin : i < 32 * (hi / 32 + 1)
  · have hrun : ∀ t : State, t.regBit pg off i = (t.words pg off (hi / 32 + 1)).testBit i := fun t => by
      rw [State.testBit_words, decide_eq_true hin, Bool.true_and]
    rw [hrun, hrun s, State.setFld, State.words_setWords s h, Nat.testBit_mod_two_pow, decide_eq_true hin, Bool.true_and,
      testBit_setBits hl]
  · rw [if_neg (by omega), State.regBit, State.setFld, State.word_setWords_above s h pg off _ (by omega), State.regBit]

/-- A field keeps its value when another field of its register is set. -/
theorem State.fld_setFld_other (s : State) (h : SMap.wf 0#32 s.regs = true) (pg : Page) (off : Nat) {hi lo hi' lo' : Nat}
    (v : Nat) (hl : lo ≤ hi) (hd : hi' < lo ∨ hi < lo') :
    (s.setFld pg off hi lo v).fld pg off hi' lo' = s.fld pg off hi' lo' := by
  refine Nat.eq_of_testBit_eq fun i => ?_
  rw [State.testBit_fld, State.testBit_fld, State.regBit_setFld s h pg off v hl]
  by_cases hi' : i < hi' + 1 - lo'
  · rw [if_neg (by omega)]
  · rw [decide_eq_false hi', Bool.false_and, Bool.false_and]

/-- A field of words that agree. -/
theorem State.fld_congr {s t : State} {pg : Page} {off hi lo : Nat}
    (hw : ∀ j ≤ hi / 32, t.word pg (off + 4 * j) = s.word pg (off + 4 * j)) : t.fld pg off hi lo = s.fld pg off hi lo := by
  refine Nat.eq_of_testBit_eq fun i => ?_
  rw [State.testBit_fld, State.testBit_fld]
  by_cases hi' : i < hi + 1 - lo
  · rw [State.regBit, State.regBit, hw _ (Nat.div_le_div_right (by omega))]
  · rw [decide_eq_false hi', Bool.false_and, Bool.false_and]

/-! The words that the report of an event leaves (R394). -/

/-- In a canonical table of registers, the entry of key `k` is `w`. -/
def HasReg (k : Nat) (w : BitVec 32) (s : State) : Prop := SMap.wf 0#32 s.regs = true ∧ SMap.get 0#32 s.regs k = w

/-- The keys of the words that a report on page `pg` may change: its pending classes and first code in either copy, its
count, and the counters of lost crossings and of lost log entries (R394, R412, R453). -/
def reportKeys (pg : Page) : List Nat :=
  [regKey pg 0 0x010, regKey pg 0 0x018, regKey pg 1 0x010, regKey pg 1 0x018, regKey pg 0 0x01C, regKey .clk 0 0x064,
   regKey .mgt 0 regLogLost]

namespace HasReg
variable {k : Nat} {w : BitVec 32} {s : State}

theorem of_regs {t : State} (h : HasReg k w s) (ht : t.regs = s.regs) : HasReg k w t := by
  rw [HasReg, ht]; exact h

theorem setWordAt (h : HasReg k w s) {pg : Page} {cp off : Nat} (hk : k ≠ regKey pg cp off) (v : Nat) :
    HasReg k w (s.setWordAt pg cp off v) := ⟨SMap.wf_set h.1 _ _, (SMap.get_set_other h.1 hk _).trans h.2⟩

/-- A field of a register's first word. -/
theorem setFld (h : HasReg k w s) {pg : Page} {off hi : Nat} (hk : k ≠ regKey pg 0 off) (h32 : hi / 32 = 0) (lo v : Nat) :
    HasReg k w (s.setFld pg off hi lo v) := by
  rw [State.setFld, h32]
  exact h.setWordAt hk _

theorem markCopy (h : HasReg k w s) {pg : Page} {c : Nat × Nat × Nat} (h10 : k ≠ regKey pg c.1 0x010)
    (h18 : k ≠ regKey pg c.1 0x018) (code : Nat) : HasReg k w (s.markCopy pg code c) := by
  obtain ⟨v, -, hr | hr⟩ := s.markCopy_regs pg code c
  · exact (h.setWordAt h10 v).of_regs hr
  · exact ((h.setWordAt h10 v).setWordAt h18 code).of_regs hr

theorem countEvent (h : HasReg k w s) {pg : Page} (hcnt : k ≠ regKey pg 0 0x01C) (hclk : k ≠ regKey .clk 0 0x064) :
    HasReg k w (s.countEvent pg) := by
  unfold State.countEvent
  extract_lets f mark s1 s2
  have hs1 : HasReg k w s1 := h.of_regs rfl
  have hs2 : HasReg k w s2 := (hs1.setFld hcnt rfl 31 1).of_regs rfl
  split
  · exact hs1.setFld hcnt rfl _ _
  · split
    · exact hs2
    · exact hs2.setWordAt hclk _

theorem logEvent (h : HasReg k w s) (hlost : k ≠ regKey .mgt 0 regLogLost) (pg : Page) (code a b : Nat) (m : Bool) :
    HasReg k w (s.logEvent pg code a b m) := by
  obtain ⟨l, hl | hl⟩ := s.logEvent_eq pg code a b m
  · rw [hl]; exact h.of_regs rfl
  · rw [hl]; exact (h.of_regs (t := { s with log := l }) rfl).setWordAt hlost _

theorem raise (h : HasReg k w s) {pg : Page} (hk : k ∉ reportKeys pg) (code a b : Nat) :
    HasReg k w (s.raise pg code a b) := by
  simp only [reportKeys, List.mem_cons, List.not_mem_nil, or_false, not_or] at hk
  obtain ⟨h10, h18, h10', h18', hcnt, hclk, hlost⟩ := hk
  have hmarks : HasReg k w ((pg.copies s).foldl (fun s c => s.markCopy pg code c) s) :=
    List.foldlRecOn _ _ h fun u hu c hc => by
      have hc2 := (Page.copies_first s pg).2 c hc
      obtain hc0 | hc1 : c.1 = 0 ∨ c.1 = 1 := by omega
      · exact hu.markCopy (hc0 ▸ h10) (hc0 ▸ h18) code
      · exact hu.markCopy (hc1 ▸ h10') (hc1 ▸ h18') code
  exact (hmarks.countEvent hcnt hclk).logEvent hlost _ _ _ _ _

end HasReg

/-- A report changes no word but those of its keys. -/
theorem State.word_raise (s : State) (h : SMap.wf 0#32 s.regs = true) {pg q : Page} {o : Nat}
    (hk : regKey q 0 o ∉ reportKeys pg) (code a b : Nat) : (s.raise pg code a b).word q o = s.word q o := by
  obtain ⟨-, hget⟩ := HasReg.raise ⟨h, rfl⟩ hk code a b
  rw [State.word, State.wordAt, hget]
  rfl

end Sys2Proof.Machine
end

section
/-!
The slots of the scale estimator: a fold, held writes and a write of word 0 (08 R173, R174, R176).
-/
namespace Sys2Proof.Machine

variable {p n : Nat} {s t : State}

/-! Fields of a slot. -/

/-- No word of a slot is one that a report on the partition's page may change. -/
theorem estWord_notReported (p : Nat) (hn : n ≤ 63) {j : Nat} (hj : j < 8) :
    regKey (.est p) 0 (estOff n + 4 * j) ∉ reportKeys (.est p) := by
  simp only [reportKeys, regKey, Page.id, estOff, Reg.PRT_EST, regLogLost, List.mem_cons, List.not_mem_nil, or_false, not_or]
  omega

theorem State.estWord_raise (h : SMap.wf 0#32 s.regs = true) (p : Nat) (hn : n ≤ 63) (code a b : Nat) {j : Nat} (hj : j < 8) :
    (s.raise (.est p) code a b).word (.est p) (estOff n + 4 * j) = s.word (.est p) (estOff n + 4 * j) :=
  s.word_raise h (estWord_notReported p hn hj) code a b

theorem State.estFld_raise (h : SMap.wf 0#32 s.regs = true) (p : Nat) (hn : n ≤ 63) (code a b : Nat) {hi lo : Nat}
    (hhi : hi < 256) : (s.raise (.est p) code a b).estFld p n hi lo = s.estFld p n hi lo :=
  State.fld_congr fun _ hj => State.estWord_raise h p hn code a b (by omega)

theorem State.estFld_setEst (h : SMap.wf 0#32 s.regs = true) {hi lo : Nat} (v : Nat) (hl : lo ≤ hi) :
    (s.setEst p n hi lo v).estFld p n hi lo = v % 2 ^ (hi + 1 - lo) := State.fld_setFld s h _ _ _ _ v hl

theorem State.estFld_setEst_other (h : SMap.wf 0#32 s.regs = true) {hi lo hi' lo' : Nat} (v : Nat) (hl : lo ≤ hi)
    (hd : hi' < lo ∨ hi < lo') : (s.setEst p n hi lo v).estFld p n hi' lo' = s.estFld p n hi' lo' :=
  State.fld_setFld_other s h _ _ v hl hd

theorem State.setEst_canonical (h : s.tablesCanonical) (p n hi lo v : Nat) : (s.setEst p n hi lo v).tablesCanonical :=
  State.setFld_canonical h _ _ _ _ _

/-! Held writes put into force (R176). -/

/-- The fields that a held write puts into force: fmt, head, strict and decay of word 0, min and max of word 1. -/
def heldFields : List (Nat × Nat) := [(4, 1), (7, 5), (8, 8), (23, 16), (47, 32)]

/-- What every set of a held field and every change of the held writes keeps, held writes put into force keep. -/
theorem State.estApplyHeld_keeps {P : State → Prop}
    (hset : ∀ t f v, f ∈ heldFields → P t → P (t.setEst p n f.1 f.2 v))
    (hheld : ∀ (t : State) m, P t → P { t with estHeld := m }) (h : P s) : P (s.estApplyHeld p n) := by
  unfold State.estApplyHeld
  extract_lets held s1 s2
  have hs1 : P s1 := by
    unfold s1
    split
    · exact hset _ (23, 16) _ (by decide) (hset _ (8, 8) _ (by decide) (hset _ (7, 5) _ (by decide)
        (hset _ (4, 1) _ (by decide) h)))
    · exact h
  have hs2 : P s2 := by
    unfold s2
    split
    · exact hset _ (47, 32) _ (by decide) hs1
    · exact hs1
  exact hheld _ _ hs2

/-! The fold (R173, R174). -/

/-- The tables of `t` are canonical, and its pinnae and stacks are those of `s`. -/
def SameUnits (s t : State) : Prop := t.tablesCanonical ∧ t.pinnae = s.pinnae ∧ t.stackTab = s.stackTab

namespace SameUnits

theorem setEst (h : SameUnits s t) (p n hi lo v : Nat) : SameUnits s (t.setEst p n hi lo v) :=
  ⟨State.setEst_canonical h.1 p n hi lo v, (State.setFld_pinnae _ _ _ _ _ _).trans h.2.1,
    (State.setFld_stackTab _ _ _ _ _ _).trans h.2.2⟩

theorem raise (h : SameUnits s t) (pg : Page) (code a b : Nat) : SameUnits s (t.raise pg code a b) :=
  ⟨State.raise_canonical h.1 _ _ _ _, (State.raise_pinnae _ _ _ _ _).trans h.2.1,
    (State.raise_stackTab _ _ _ _ _).trans h.2.2⟩

theorem bump (h : SameUnits s t) (pg : Page) (off m : Nat) : SameUnits s (t.bump pg off m) :=
  ⟨State.bump_canonical h.1 _ _ _, h.2⟩

theorem raise_if (h : SameUnits s t) (c : Prop) [Decidable c] (pg : Page) (code a b : Nat) :
    SameUnits s (if c then t.raise pg code a b else t) := by
  split
  · exact h.raise _ _ _ _
  · exact h

theorem estApplyHeld (h : SameUnits s t) (p n : Nat) : SameUnits s (t.estApplyHeld p n) :=
  State.estApplyHeld_keeps (fun _ _ v _ hu => hu.setEst p n _ _ v) (fun _ _ hu => hu) h

theorem estFold (h : SameUnits s t) (p n : Nat) : SameUnits s (t.estFold p n) := by
  unfold State.estFold
  extract_lets u lo hi decay head fmt code obsValid obs estValid est0 est' est valid emax e want0 pressed raisedUp want new
    s1 s2 s3 s4
  have hs1 : SameUnits s s1 := (h.estApplyHeld p n).raise_if _ _ _ _ _
  have hs2 : SameUnits s s2 := hs1.raise_if _ _ _ _ _
  have hs3 : SameUnits s s3 := ((hs2.setEst _ _ _ _ _).setEst _ _ _ _ _).setEst _ _ _ _ _
  have hs4 : SameUnits s s4 := ((hs3.setEst _ _ _ _ _).setEst _ _ _ _ _).setEst _ _ _ _ _
  exact hs4.bump _ _ _

theorem estFold_if (h : SameUnits s t) (c : Prop) [Decidable c] (p n : Nat) :
    SameUnits s (if c then t.estFold p n else t) := by
  split
  · exact h.estFold p n
  · exact h

end SameUnits

/-- The record of an engine stands in its frond or its port. -/
theorem State.setEngine_frame (s : State) (e : EngineId) (g : Engine) : (s.setEngine e g).regs = s.regs
    ∧ (s.setEngine e g).pinnae = s.pinnae ∧ (s.setEngine e g).stackTab = s.stackTab := by
  cases e <;> exact ⟨rfl, rfl, rfl⟩

/-- Handing the code to the descriptors that wait changes records of engines alone. -/
theorem State.estHand_frame (s : State) (p n : Nat) (seed : BitVec 64) : (s.estHand p n seed).regs = s.regs
    ∧ (s.estHand p n seed).pinnae = s.pinnae ∧ (s.estHand p n seed).stackTab = s.stackTab := by
  unfold State.estHand
  refine List.foldlRecOn (motive := fun t : State => t.regs = s.regs ∧ t.pinnae = s.pinnae ∧ t.stackTab = s.stackTab)
    _ _ ⟨rfl, rfl, rfl⟩ fun t ht x _ => ?_
  split
  · obtain ⟨hr, hp, hs⟩ := t.setEngine_frame x.1 { t.engine x.1 with held := s.estTake x.2 (Desc.ofBytes x.2.bytes) }
    exact ⟨hr.trans ht.1, hp.trans ht.2.1, hs.trans ht.2.2⟩
  · exact ht

theorem State.estFld_of_regs (h : t.regs = s.regs) (p n hi lo : Nat) : t.estFld p n hi lo = s.estFld p n hi lo :=
  State.fld_congr fun _ _ => State.wordAt_of_regs h _ _ _

/-- The state in which slot `n` has recorded the seed, and the descriptors that waited have its code (R173). -/
def State.estRecord (s : State) (p n : Nat) (seed : BitVec 64) : State :=
  let u := (s.setEst p n 255 192 seed.toNat).setEst p n 57 57 1
  ({ u with estWait := SMap.set false u.estWait (64 * p + n) false } : State).estHand p n seed

theorem State.estRecord_frame (s : State) (p n : Nat) (seed : BitVec 64) :
    let u := (s.setEst p n 255 192 seed.toNat).setEst p n 57 57 1
    (s.estRecord p n seed).regs = u.regs ∧ (s.estRecord p n seed).pinnae = u.pinnae
      ∧ (s.estRecord p n seed).stackTab = u.stackTab := State.estHand_frame _ p n seed

/-- A slot that records a seed is valid with it. -/
theorem State.estRecord_seeded (h : SMap.wf 0#32 s.regs = true) (p n : Nat) (seed : BitVec 64) :
    (s.estRecord p n seed).estFld p n 57 57 = 1 ∧ (s.estRecord p n seed).estFld p n 255 192 = seed.toNat := by
  obtain ⟨hregs, -⟩ := s.estRecord_frame p n seed
  have h1 : SMap.wf 0#32 (s.setEst p n 255 192 seed.toNat).regs = true := State.setFld_wf s h _ _ _ _ _
  rw [State.estFld_of_regs hregs, State.estFld_of_regs hregs, State.estFld_setEst h1 1 (by decide),
    State.estFld_setEst_other h1 1 (by decide) (by decide), State.estFld_setEst h _ (by decide)]
  exact ⟨rfl, Nat.mod_eq_of_lt seed.isLt⟩

theorem State.estRecord_units (h : SameUnits s t) (p n : Nat) (seed : BitVec 64) :
    (t.estRecord p n seed).pinnae = s.pinnae ∧ (t.estRecord p n seed).stackTab = s.stackTab := by
  obtain ⟨-, hpin, hstk⟩ := (h.setEst p n 255 192 seed.toNat).setEst p n 57 57 1
  obtain ⟨-, hpinnae, hstacks⟩ := t.estRecord_frame p n seed
  exact ⟨hpinnae.trans hpin, hstacks.trans hstk⟩

/-- EST_FOLD that a conversion waits for, of a slot without the seed: while conversions of the old step go on it waits and
says so once; then the slot folds, if it held a seed, and records the new one (R173). -/
theorem exec_estFold_awaited {seed : BitVec 64} (hp : p < 4) (h1 : 1 ≤ n) (h63 : n ≤ 63)
    (hnew : s.estSeeded p n seed = false) (hwait : s.estWaits p n seed = true ∨ s.estCloses p n seed = true) :
    exec (.estFold p n seed) s =
      if (s.estFld p n 57 57 == 1 && s.estBusy p n (s.estFld p n 255 192)) = true then
        if SMap.get false s.estWait (64 * p + n) = true then
          notEnabled "conversions of the old step are still in progress"
        else .next (({ s with estWait := SMap.set false s.estWait (64 * p + n) true } : State).raise (.est p) 0x1107 n 0)
      else .next ((if (s.estFld p n 57 57 == 1) = true then s.estFold p n else s).estRecord p n seed) := by
  have hasks : ¬ (!(s.estWaits p n seed || s.estCloses p n seed)) = true := by
    rcases hwait with h | h <;> simp [h]
  change execEstFold p n seed s = _
  unfold execEstFold
  rw [if_neg (not_not_intro ⟨hp, h1, h63⟩), if_neg (by rw [hnew]; exact Bool.false_ne_true), if_neg hasks]
  dsimp only [State.estRecord]

/-! A write of word 0 (R176). -/

/-- The enable bit and the initial code of slot `n` are those that the word `w` gives. -/
def HasWord0 (p n w : Nat) (t : State) : Prop :=
  SMap.wf 0#32 t.regs = true ∧ t.estFld p n 0 0 = w % 2 ∧ t.estFld p n 31 24 = bits w 31 24

namespace HasWord0
variable {w : Nat}

/-- A set of any other field of the slot. -/
theorem setEst (h : HasWord0 p n w t) {hi lo : Nat} (v : Nat) (hl : lo ≤ hi) (h0 : 0 < lo) (hcode : hi < 24 ∨ 31 < lo) :
    HasWord0 p n w (t.setEst p n hi lo v) :=
  ⟨State.setFld_wf t h.1 _ _ _ _ _, (State.estFld_setEst_other h.1 v hl (Or.inl h0)).trans h.2.1,
    (State.estFld_setEst_other h.1 v hl hcode.symm).trans h.2.2⟩

theorem estApplyHeld (h : HasWord0 p n w t) : HasWord0 p n w (t.estApplyHeld p n) := by
  refine State.estApplyHeld_keeps (fun u f v hf hu => ?_) (fun _ _ hu => hu) h
  have hapart : ∀ f ∈ heldFields, f.2 ≤ f.1 ∧ 0 < f.2 ∧ (f.1 < 24 ∨ 31 < f.2) := by decide
  obtain ⟨hl, h0, hcode⟩ := hapart f hf
  exact hu.setEst v hl h0 hcode

/-- The two fields set. -/
theorem of_set (h : SMap.wf 0#32 s.regs = true) (p n w : Nat) :
    HasWord0 p n w ((s.setEst p n 31 24 (bits w 31 24)).setEst p n 0 0 (if bit w 0 then 1 else 0)) := by
  have h1 : SMap.wf 0#32 (s.setEst p n 31 24 (bits w 31 24)).regs = true := State.setFld_wf s h _ _ _ _ _
  refine ⟨State.setFld_wf _ h1 _ _ _ _ _, ?_, ?_⟩
  · rw [State.estFld_setEst h1 _ (by decide), bit, Nat.testBit_zero]
    rcases Nat.mod_two_eq_zero_or_one w with hw | hw <;> simp [hw]
  · rw [State.estFld_setEst_other h1 _ (by decide) (by decide), State.estFld_setEst h _ (by decide)]
    exact Nat.mod_mod _ _

end HasWord0

/-- A format outside 4 to 10 is refused with 0x1108. -/
theorem State.estWrite_badFmt (s : State) (p n : Nat) {w : Nat} (h : bits w 4 1 < 4 ∨ 10 < bits w 4 1) :
    s.estWrite p n (some w) none = s.raise (.est p) 0x1108 n w := by
  unfold State.estWrite
  exact if_pos (by simpa using h)

/-- A write of word 0 with a legal format sets the enable bit and the initial code, whether or not the rest is held. -/
theorem State.estWrite_hasWord0 (h : SMap.wf 0#32 s.regs = true) (p n : Nat) {w : Nat} (h4 : 4 ≤ bits w 4 1)
    (h10 : bits w 4 1 ≤ 10) : HasWord0 p n w (s.estWrite p n (some w) none) := by
  have hfmt : ¬ (decide (bits w 4 1 < 4) || decide (10 < bits w 4 1)) = true := by
    simp only [Bool.or_eq_true, decide_eq_true_eq]; omega
  unfold State.estWrite
  extract_lets was badFmt badBound will held s1 s2 s3 s4 code
  rw [if_neg hfmt, if_neg Bool.false_ne_true]
  have hs3 : HasWord0 p n w s3 := HasWord0.of_set (s := s1) h p n w
  have hs4 : HasWord0 p n w s4 := by
    unfold s4
    split
    · exact hs3
    · exact hs3.estApplyHeld
  split
  · exact (((hs4.setEst _ (by decide) (by decide) (by decide)).setEst _ (by decide) (by decide) (by decide)).setEst _
      (by decide) (by decide) (by decide)).setEst _ (by decide) (by decide) (by decide)
  · exact hs4

/-- An admitted write of 4 bytes to word 0 is the slot's own write of its low 32 bits. -/
theorem exec_estSlotWrite_word0 {r : Requester} (h1 : 1 ≤ n) (h63 : n ≤ 63) (hadm : Admits s r (.est p) (estOff n) true)
    (value : Nat) : exec (.estSlotWrite r p n 0 4 value) s = .next (s.estWrite p n (some (value % 2 ^ 32)) none) := by
  change execEstSlotWrite r p n 0 4 value s = _
  rw [execEstSlotWrite, if_neg (not_not_intro ⟨h1, h63, by decide⟩)]
  exact regWrite_admitted hadm

/-- Settles O22: a seed is recorded over whatever the fold leaves, a report reaches no word of a slot, and what a write of
word 0 holds back or puts into force lies beside the enable bit and the initial code. -/
theorem estimatorSlotsFoldAndTakeWrites : Obligations.EstimatorSlotsFoldAndTakeWrites := by
  intro s p slot hs hp h1 h63
  refine ⟨fun seed hnew hwait => ?_, fun r value hadm => ?_⟩
  · have hexec := exec_estFold_awaited hp h1 h63 hnew hwait
    refine ⟨fun hidle => ?_, fun hvalid hbusy hnoted => ?_⟩
    · have hfree : ¬ (s.estFld p slot 57 57 == 1 && s.estBusy p slot (s.estFld p slot 255 192)) = true := by
        rcases hidle with h | h <;> simp [h]
      have hsame : SameUnits s s := ⟨hs, rfl, rfl⟩
      have hfold := hsame.estFold_if ((s.estFld p slot 57 57 == 1) = true) p slot
      obtain ⟨hvalid, hseed⟩ := State.estRecord_seeded hfold.1.1 p slot seed
      rw [if_neg hfree] at hexec
      exact ⟨_, hexec, hvalid, hseed, State.estRecord_units hfold p slot seed⟩
    · rw [if_pos (by simp [hvalid, hbusy]), if_neg (by simp [hnoted])] at hexec
      generalize hu : ({ s with estWait := _ } : State) = u at hexec
      have hregs : u.regs = s.regs := by rw [← hu]
      have hwf : SMap.wf 0#32 u.regs = true := hregs ▸ hs.1
      exact ⟨_, hexec, (State.estFld_raise hwf p h63 _ _ _ (by decide)).trans (State.estFld_of_regs hregs _ _ _ _),
        u.raise_marks hwf (.est p) 0x1107 slot 0 (by decide)⟩
  · have hfmt : bits (value % 2 ^ 32) 4 1 = bits value 4 1 := bits_mod_words value 4 1 (by decide)
    have hexec := exec_estSlotWrite_word0 h1 h63 hadm value
    refine ⟨fun hbad => ?_, fun h4 h10 => ?_⟩
    · rw [← hfmt] at hbad
      rw [State.estWrite_badFmt s p slot hbad] at hexec
      exact ⟨_, hexec, fun i hi => State.estWord_raise hs.1 p h63 _ _ _ hi,
        State.raise_marks s hs.1 (.est p) 0x1108 _ _ (by decide)⟩
    · obtain ⟨-, hen, hcode⟩ := State.estWrite_hasWord0 hs.1 p slot (hfmt ▸ h4) (hfmt ▸ h10)
      refine ⟨_, hexec, hen.trans ?_, hcode.trans (bits_mod_words value 31 24 (by decide))⟩
      exact Nat.mod_mod_of_dvd value (by decide)

end Sys2Proof.Machine
end
